-- ==== Sys2Proof/Word.lean ====
section
/-!
DEFINITION. The plain words of the SLG9128 and the shape of a sparse table.
-/

namespace Sys2Proof

abbrev Byte := BitVec 8
abbrev W16 := BitVec 16
abbrev W32 := BitVec 32
abbrev W64 := BitVec 64

/-- A core frame number: a 48-bit count compared modulo 2^48 (R46, R47). -/
abbrev Cfn := BitVec 48

/-- A sparse table: keys strictly rising, no entry equal to the table's default. `Machine/Tbl.lean` reads and
writes it and keeps that form. -/
abbrev Tbl (α : Type) := List (Nat × α)

/-- Host memory as DMA-S can read it: extents (address, bytes). Memory outside every extent does not answer. -/
abbrev HostMem := List (Nat × List Byte)

end Sys2Proof
end

