-- ==== Sys2Proof/Syntax.lean ====
section
/-!
DEFINITION. The commands of the SLG9128: one constructor of `Instr` for each row of the opcode table, with the
operands the spec gives it. The spec's table gives no row any bits, so a command has no encoding: an operand is what the
outside party does (the bytes of a mailbox request, a register write) or what the hardware meets (the content of a
received frame, a measured value).
-/

namespace Sys2Proof

/-- The ten masters of the bus matrix, in index order (R362). -/
inductive BusMaster where
  | cpA | cpB | dmaS | dmaP | pcie | debug | eg0 | eg1 | eg2 | eg3
  deriving DecidableEq, Repr

/-- A mailbox request as the host hands it over: the header fields of R340 and the payload bytes. -/
structure MbReq where
  mb      : Nat
  seq     : W16
  flags   : W32
  status  : W32
  length  : W32
  payload : List Byte
  deriving DecidableEq, Repr

/-- A transaction in flight at a function's weir (R399): case 1-5, master and target indices, beats, and its address (for PCIe the
offset in PF0 BAR0, R356). -/
structure WeirTxn where
  kind   : Nat
  master : Nat
  target : Nat
  beats  : Nat
  addr   : Nat
  deriving DecidableEq, Repr

/-- What a lane's receiver sees in one line frame (R68, R72-R75): the offsets at which the pattern appears, each with its
multiframe indicator (on OTL4.4 for one of the lane's five logical lanes); whether the FlexO overhead CRC is good, and the GID, PID,
PHY map and RDI of that overhead; and the FEC's corrected symbols, uncorrectable codewords and codewords. -/
structure LineFrame where
  sightings : List (Nat × Nat)
  logical   : Nat
  crcOk     : Bool
  gid       : W32
  pid       : Nat
  phyMap    : List Nat
  rdi       : Bool
  fec       : Nat × Nat × Nat
  deriving DecidableEq, Repr

/-- A stitch lane frame as received (R308-R310, R316): the marker, the measured delay, the partner's frame phase against the local one
in ns, the column words (sparse), and the invalid blocks: a data block by its column, a control block by 16,384 + its place among the
48. -/
structure StitchRx where
  markerOk : Bool
  offset   : Nat
  txLane   : Nat
  index    : Nat
  cfn      : Cfn
  delayNs  : Nat
  phaseNs  : Int
  columns  : List (Nat × W64)
  invalid  : List Nat
  deriving DecidableEq, Repr

/-- One upset of a stored word: the memory's unit (pond, egress buffer or bank), the word in it and the mask of flipped
bits, check bits at 64-71 (R125). -/
structure Upset where
  unit : Nat
  word : Nat
  mask : BitVec 72
  deriving DecidableEq, Repr

/-- What one endpoint's functions met in the frame that ends: counts for C0-C5 and the defects in force, in the bit
places of C7 (R222, R223). -/
structure EpEvents where
  ep      : Nat
  counts  : List Nat
  defects : W32
  tti     : Option (List Byte)
  deriving DecidableEq, Repr

/-- Everything the outside gives the device in the core frame that a boundary ends. -/
structure FrameInput where
  /-- Words of each ingress context recovered from the line. -/
  arrivals    : List (Nat × List W64)
  /-- Tributary bits of each ingress context that do not complete a word. -/
  residual    : List (Nat × Nat)
  /-- The MSI received for a stream's slice: for each line slot the TPN, or none where it is unallocated (R89). -/
  msi         : List (Nat × List (Option Nat))
  /-- Direction (0 ingress, 1 egress), context and line slots in use from the boundary that a resize handshake fixed (R104). -/
  lcr         : List (Nat × Nat × BitVec 80)
  /-- Ingress contexts with dLOFLOM (R220). -/
  loflom      : List Nat
  /-- Ingress contexts whose bandwidth ramp runs (R95). -/
  ramp        : List Nat
  endpoints   : List EpEvents
  pondUpsets  : List Upset
  ebufUpsets  : List Upset
  mapUpsets   : List Upset
  /-- Islands that acknowledged a commit notice in this frame (R146). -/
  acks        : List Nat
  /-- Islands whose clock was stopped at this frame's token (R18). -/
  stopped     : List Nat
  /-- Increments of event counters whose events this model's other steps do not show. -/
  perf        : List (Nat × Nat)
  /-- Groups whose transmitter begins a FlexO multiframe in the frame (R83, R85). -/
  multiframe  : List Nat
  twinHbPin   : Bool
  twinActIn   : Bool
  /-- Reference inputs without an edge in the last 4 nominal periods at the frame's end (R285). -/
  noEdge      : List Nat
  /-- Egress streams whose test check is enabled (R42 states no command for it). -/
  testCheck   : List Nat
  /-- Timing units whose loop self-check failed in the frame (R427, R432). -/
  tuCheck     : List Nat
  /-- The phase of the standby timing unit's output against the active one's, in ps, where a monitor gives it (R302, R432). -/
  tuPhase     : Option Int
  deriving DecidableEq, Repr

def FrameInput.none : FrameInput :=
  ⟨[], [], [], [], [], [], [], [], [], [], [], [], [], [], false, false, [], [], [], Option.none⟩

/-- A mismatch found by a march run: memory, array, row and bit-column (R374). -/
structure Mismatch where
  memory : Nat
  array  : Nat
  row    : Nat
  col    : Nat
  deriving DecidableEq, Repr

/-- The measurement of one reference candidate over a second (R285): its offset in 0.1 ppb, the unit of TIM_STATUS. -/
structure CandMeas where
  cand      : Nat
  offset    : Int
  activity  : Bool
  deriving DecidableEq, Repr

/-- A block header as received on the decrypt side (R256). -/
structure CipherHeader where
  inv  : BitVec 48
  ctl  : Byte
  hcrc : Byte
  deriving DecidableEq, Repr

/-- What one run of the unwrap unit fetches wrongly: the flipped bits of the 48 wrapped bytes and of the KEK (R274). -/
structure FetchError where
  data : BitVec 384 := 0
  kek  : BitVec 256 := 0
  deriving DecidableEq, Repr

/-- The fetch errors of the two runs of the unwrap unit (R274). -/
structure FetchErrors where
  first  : FetchError := {}
  second : FetchError := {}
  deriving DecidableEq, Repr

/-- The end of the Bring-up march: the mismatches found after the repairs, and the die-to-die wires, by link, that spare wires replace
(R377). -/
structure MarchEnd where
  second : List Mismatch
  wires  : List (Nat × Nat)
  deriving DecidableEq, Repr

/-- A tamper condition that ends: its source, and whether it was shorter than the filter (R417). -/
structure TamperEnd where
  src   : Byte
  short : Bool
  deriving DecidableEq, Repr

/-- A completed tagged instruction (R447, R450). -/
structure TagEvent where
  src      : Nat
  engine   : Nat
  pc       : W32
  latency  : Nat
  item     : Nat
  flags    : BitVec 4
  opclass  : Byte
  issued   : Nat := 0
  deriving DecidableEq, Repr

/-- The commands. -/
inductive Instr where
  -- resets and start (17)
  | powerOn
  | resetNAssert
  | resetRelease
  | fuseLoadDone
  | pllLockTimeout (island : Nat)
  | bringUpMarchDone (first : List Mismatch) (e : MarchEnd)
  | flashBoot (ucodeOk : Bool)
  | bootTimeout
  | bootOk (m : BusMaster)
  | coreRelease (ppsEdge : Bool)
  | ppsAlignTimeout
  | hostColdReset (v : W32)
  | hostWarmReset (v : W32)
  | functionResetRequest (v : W32) (txns : List WeirTxn)
  | pendingResetApply (f : Nat) (txns : List WeirTxn)
  | functionResetRelease (f : Nat)
  | pcieFlr (pf : Nat) (txns : List WeirTxn)
  | perstNAssert (txns : List WeirTxn)
  | critParityError (unit : Nat) (word : BitVec 28)
  | ioHoldRelease
  | tamperAlarm (src : Byte)
  | wipeComplete (firstDirty secondDirty : Bool)
  -- frames and seconds (02)
  | frameBoundary (inp : FrameInput)
  | secondBoundary (meas : List CandMeas)
  | ppsEdge (err : Int)
  | ppsLoss
  -- lanes and groups (03)
  | signalDetected (lane : Nat)
  | signalLost (lane : Nat)
  | adaptConverged (lane : Nat)
  | adaptTimeout (lane : Nat)
  | lineFrame (lane : Nat) (f : LineFrame)
  | huntAccept (lane : Nat)
  | huntTimeout (lane : Nat)
  | dlofDeclare (lane : Nat)
  | cdrLockLoss (lane : Nat)
  | burstDetected (lane : Nat) (ucw frames : Nat)
  | laneTryWindowEnd (lane : Nat)
  | deskewDone (g : Nat) (delays : List Nat)
  | osmcPdu (g : Nat) (subtype : Byte) (rest : List Byte)
  | osmcTimeout (g : Nat)
  | osmcInfoTx (g : Nat)
  -- tributaries (04)
  | tribOpen (tnum : Nat)
  | dfcmovfDeclare (tnum : Nat)
  | dfcmovfClear (tnum : Nat)
  -- stitch (13)
  | stitchFrame (lane : Nat) (f : StitchRx)
  | stitchToken (lane : Nat) (tok : BitVec 168)
  | mirrorRecord (word : W64)
  -- commit (06)
  | commitNotice
  | domainReadiness
  | domainVeto
  | commitDecision
  | commitTakeEffect
  | rollbackTakeEffect
  | domainIdCheck
  | schLoadDone
  | dmaSReadError
  | bmeLost
  | schCopyDone
  | schCheckDone
  -- memories (16), ponds (05)
  | scrubStep (memory word : Nat) (mask : BitVec 72)
  | marchStep (mismatch : List (Nat × Nat))
  | pondPermanentFault (phys : Nat)
  | pondRepairMarchDone (phys : Nat) (first second : List Mismatch)
  | diagMarchDone (found : List Mismatch)
  -- engines (09)
  | engineFaultEvent (e cause : Nat)
  | engineRestart (e : Nat)
  | engineSelfTestDone (e : Nat) (pass : Bool)
  | engineWindowEnd (e : Nat)
  | harvestStart
  | harvestDone
  | harvestTruncate
  -- protection (10)
  | holdOffExpire (pg : Nat) (protect : Bool) (sd : Bool)
  | wtrExpire (pg : Nat)
  | apsAccept (pg : Nat) (v : W32)
  | fopNrTimeout (pg : Nat)
  -- cipher (11)
  | encryptBlockStart (tnum : Nat)
  | headerReceived (tnum : Nat) (h : CipherHeader)
  | tagCheck (tnum : Nat) (tag : BitVec 128) (missing : Bool)
  | untrustClear (tnum : Nat)
  | pipeMismatch (cluster side pipe : Nat) (consecutive : Nat)
  | pipeHandover (cluster side tnum : Nat)
  | pipeSelfTestDone (cluster side pipe : Nat) (pass : Bool)
  | spareKat (cluster side : Nat) (pass : Bool)
  -- timing (12)
  | candActivityLoss (i : Nat)
  | candWtrExpire (i : Nat)
  | qlTimeout (i : Nat)
  | disputeCompare (i j : Nat) (offI offJ : Int)
  | disputeClear (i : Nat)
  | timTransitionEnd
  | timLock
  | timLockLoss (phaseNs : Int)
  | hoReady (estimatePpt : Int)
  | holdoverLimit
  | tuPeriodicSwap
  | tuEdgeMissing
  -- redundancy (19)
  | heartbeatLoss (pair : Nat) (unit : Nat) (partnerSees refereeSees : Bool)
  | unitReady (pair unit : Nat)
  | resyncTimeout (pair unit : Nat)
  | unitWindowEnd (pair unit : Nat)
  | cpPeriodicSwap
  | journalRecord
  -- twin (13)
  | twinHbLoss
  | twinActivate
  | twinStandbyTakeover
  | twinJoinAligned (partnerCfn : Cfn)
  | twinJoinDone
  | twinHandover (cause : Nat)
  -- conjugation pin (08)
  | conjPinEdge (pin : Nat) (rising : Bool)
  -- power (18)
  | tempSample (readings : List Int)
  | avsTick (counts : List Nat)
  | avsPoll (readVoutMv : Nat) (statusWord : W16)
  | pmbusRetry (success : Bool)
  | pmbusAlert (statusWord : W16)
  | islandGate (bit : Nat)
  | resizeComplete (ing eg : Nat) (cause : Nat)
  | pondFlip
  | pertCountdownEnd (control : Nat)
  | tagRecord (t : TagEvent)
  | perfSnapshotDone
  | jtagScan
  | jtagDebugSet (level : Nat)
  | jtagFuseProgram (variant : BitVec 4) (uniqueId : W64) (kekSeed trim repairs : List Byte)
  | devResetStart
  | mailboxReopen (mb : Nat)
  -- host interface (14, 15)
  | msixUnmask
  | intEoi (v : W32)
  | mbRequestWrite (mb : Nat) (off : Nat) (be : BitVec 4) (v : W32)
  | mbEvConsWrite (be : BitVec 4) (v : W32)
  | futureWindowWriteLo (m : BusMaster) (idx : Nat) (be : BitVec 4) (v : W32)
  | futureWindowWriteHi (m : BusMaster) (idx : Nat) (be : BitVec 4) (v : W32)
  | coherentRead (m : BusMaster) (addr : Nat)
  | clearingRead (m : BusMaster) (addr : Nat)
  | aliasWrite (addr : Nat) (be : BitVec 4) (v : W32)
  | aliasRead (addr : Nat)
  | registerWrite (m : BusMaster) (addr : Nat) (be : BitVec 4) (v : W32) (host : HostMem)
  | busDecodeError (m : BusMaster) (write : Bool) (target : Nat) (addr : W64)
  | remapWrite (m : BusMaster) (v : W32)
  | phyCfgWrite (lane : Nat) (be : BitVec 4) (v : W32)
  | pondMaintRead (phys : Nat) (v : W32) (cycle : Nat)
  | pondMaintWrite (phys : Nat) (v : W32) (cycle : Nat)
  | keyDeskClaim
  | keyDeskRelease
  | deskLoad (slot : Nat) (e : FetchErrors)
  | deskActivate (slot : Nat)
  | deskEraseNext (slot : Nat)
  | deskEraseSlot (slot : Nat)
  | keyDeskComplete
  | perfFreeze (freeze : Bool)
  | perfSnapshot
  | perfClear
  | tagBufferClear
  -- mailbox commands (14)
  | devInfo (r : MbReq)
  | devDecommission (r : MbReq) (burnOk : Bool)
  | devCpSwap (r : MbReq)
  | devReset (r : MbReq) (txns : List WeirTxn)
  | devLcChallenge (r : MbReq)
  | devLcAdvance (r : MbReq) (burnOk : Bool)
  | devDebugSet (r : MbReq)
  | devRedCfg (r : MbReq)
  | devUnitStatus (r : MbReq)
  | devUnitReadmit (r : MbReq)
  | devGpioCfg (r : MbReq)
  | grpCreate (r : MbReq)
  | grpDelete (r : MbReq)
  | grpStatus (r : MbReq)
  | laneRetire (r : MbReq)
  | laneReadmit (r : MbReq)
  | grpSetOptions (r : MbReq)
  | trbStatus (r : MbReq)
  | trbResize (r : MbReq)
  | trbResizeAbort (r : MbReq)
  | schLoad (r : MbReq) (host : HostMem)
  | schCopy (r : MbReq)
  | schPrepare (r : MbReq)
  | schUnprepare (r : MbReq)
  | schArm (r : MbReq)
  | schDisarm (r : MbReq)
  | schRollback (r : MbReq)
  | schStatus (r : MbReq)
  | conjNotice (r : MbReq)
  | conjCancel (r : MbReq)
  | conjPinCfg (r : MbReq)
  | conjStatus (r : MbReq)
  | epPlace (r : MbReq)
  | epConfig (r : MbReq)
  | epStatus (r : MbReq)
  | epHarvestCfg (r : MbReq)
  | engStatus (r : MbReq)
  | engReadmit (r : MbReq)
  | pgCommand (r : MbReq)
  | pgStatus (r : MbReq)
  | pgList (r : MbReq)
  | keyLock (r : MbReq)
  | keyLoad (r : MbReq) (e : FetchErrors)
  | keyActivate (r : MbReq)
  | keyErase (r : MbReq)
  | keyStatus (r : MbReq)
  | keyPipeStatus (r : MbReq)
  | keyPipeReadmit (r : MbReq)
  | timCfg (r : MbReq)
  | timCandCfg (r : MbReq)
  | timSetQl (r : MbReq)
  | timStatus (r : MbReq)
  | timHistory (r : MbReq)
  | timSwap (r : MbReq)
  | pwrHold (r : MbReq)
  | pwrResume (r : MbReq)
  | pwrStatus (r : MbReq)
  | pwrGateUnused (r : MbReq)
  | diagMarch (r : MbReq)
  | diagLog (r : MbReq)
  | diagPondSpare (r : MbReq)
  | diagPondRestore (r : MbReq)
  | diagMemStatus (r : MbReq)
  | diagPerfAccess (r : MbReq)
  | fwInfo (r : MbReq)
  | fwWrite (r : MbReq)
  | fwSelect (r : MbReq)
  | fwLiveUpdate (r : MbReq)
  | fwRecoverStart (r : MbReq)
  | twinJoin (r : MbReq)
  | twinLeave (r : MbReq)
  | twinStatus (r : MbReq)
  | twinCfg (r : MbReq)
  | twinYield (r : MbReq)
  | domCfg (r : MbReq)
  | domStatus (r : MbReq)
  | stcLaneSet (r : MbReq)
  | stcLaneRelease (r : MbReq)
  -- further events
  | quadrantFailure (q : Nat)
  | jtagCpHalt (unit : Nat) (halt : Bool)
  | tamperConditionEnd (e : TamperEnd)
  | powerDown
  | elasticBufferRecentring (cluster : Nat)
  | cpBankUncorrectableError (unit : Nat)
  deriving DecidableEq, Repr

end Sys2Proof
end

