-- ==== Sys2Proof/Decode.lean ====
section
/-!
DEFINITION. The decoder of table words. No row of the opcode table carries bits: the commands of this block are acts of
the outside, not words.
-/

namespace Sys2Proof

/-- The command that the `nbits` bits `w` spell by the table's bits: none, since no row gives any. -/
def decodeTableWord (nbits w : Nat) : Option Instr :=
  match nbits, w with
  | _, _ => none

end Sys2Proof
end

