-- ==== Sys2Proof/Machine/State.lean ====
section
/-!
DEFINITION. The state of the SLG9128 as plain data, its reset value, and the reasons a step can stop.
Each field's default is its reset value. A comment `[Rn]` behind a field names the rule that gives the field, and
`(an)` the row of the assumption log where the spec gives the reset value only by the model's choice.
-/

namespace Sys2Proof.Machine

/-- No command of the SLG9128 stops the model: every condition the spec describes has an effect in it. The constructor
is here for a run that meets behaviour the spec calls undefined. -/
inductive Fault where
  /-- A command arrives while a rail is outside its range and RESET_N is high, where R467 calls the behaviour undefined.
  Raised by no meaning at present; safe, because the model stops. -/
  | railsOutOfRange
  deriving DecidableEq, Repr

/-- Why the model declines a command. -/
inductive Refusal where
  /-- An arm of `exec` without a meaning. Safe: nothing can be proved of such a command. -/
  | notModelled (mnemonic : String)
  deriving DecidableEq, Repr

/-- The eight modes of R21. -/
inductive Mode where
  | shallows | bringUp | provisioning | service | degraded | mateFollow | hold | decommission
  deriving DecidableEq, Repr

/-- The life-cycle states of R406. -/
inductive LcState where
  | blank | provisioned | operational | fieldReturn | decommissioned
  deriving DecidableEq, Repr

/-- Where the start sequence of R389 and R393 stands. -/
inductive StartPhase where
  | inReset | fuseLoad | march | romBoot | nganas | releaseWait | ppsWait | started | shallows | decommission
  deriving DecidableEq, Repr

inductive LaneRole where
  | off | line | stitch
  deriving DecidableEq, Repr

/-- Lane alignment states, numbered as `LANE.STAT.STATE` (R66, R76). -/
inductive LaneState where
  | off | waitSignal | adapt | hunt | locked | retired
  deriving DecidableEq, Repr

/-- A lane transition that takes effect at the next frame boundary (R76). -/
inductive LanePend where
  | toLocked | toAdaptTry | toAdaptHeld | toWait | toRetired (declared : Cfn) | readmit
  deriving DecidableEq, Repr

inductive GrpState where
  | down | deskew | aligned | partialUp
  deriving DecidableEq, Repr

inductive FutState where
  | opened | loading | copying | checking | valid
  deriving DecidableEq, Repr

inductive ArmState where
  | idle | commitArmed | commitGo | rollbackArmed | rollbackGo
  deriving DecidableEq, Repr

/-- Engine states, numbered as `ENG_STATUS` reports them (R216, R345). -/
inductive EngState where
  | inService | covered | uncovered | selfTest | retired
  deriving DecidableEq, Repr

inductive HalfState where
  | empty | next | current | retiring
  deriving DecidableEq, Repr

/-- The state of a cipher binding, numbered as `KEY_STATUS` reports it (R260, R345). -/
inductive BindState where
  | acquire | run | encrypt
  deriving DecidableEq, Repr

/-- Candidate states, numbered as `TIM.CAND[i].STATE` (R286). -/
inductive CandState where
  | disabled | failed | wtr | qualified | disputed
  deriving DecidableEq, Repr

/-- Timing unit states, numbered as `TIM.STAT.STATE` (R299). -/
inductive TimState where
  | freeRun | acquiring | locked | transition | holdover
  deriving DecidableEq, Repr

/-- Twin roles, numbered as `TWIN.STAT.ROLE` (R324). -/
inductive TwinRole where
  | solo | joining | leader | follower | standbyAlone | activeAlone
  deriving DecidableEq, Repr

/-- States of a CP or TU, numbered as `DEV_UNIT_STATUS` reports them (R441). -/
inductive UnitState where
  | active | ready | resync | isolated | retired
  deriving DecidableEq, Repr

inductive MbState where
  | idle | busy | done | closed
  deriving DecidableEq, Repr

/-- A pending mode trigger of R23, kept until the next boundary applies the one of highest precedence (R24). -/
inductive ModeTrigger where
  | decommission | hold | mateFollow | leaveMate | resume
  deriving DecidableEq, Repr

/-- One copy of the fuse array (R390, R407): a shipped SLG9128-A by default. -/
structure FuseCopy where
  trim     : List Byte := []
  repairs  : List Byte := []
  variant  : BitVec 4 := 1
  uniqueId : W64 := 0
  kekSeed  : List Byte := []
  crc      : W32 := 0xf17200ed#32
  bitP     : BitVec 3 := 7
  bitO     : BitVec 3 := 0
  bitF     : BitVec 3 := 0
  bitD     : BitVec 3 := 0
  deriving DecidableEq, Repr

/-- A DEV_RESET of kind 1 that waits for its function's release (R403), and whether its mailbox was reset meanwhile (R339). -/
structure FuncAns where
  func : Nat
  mb   : Nat
  seq  : W16
  drop : Bool
  deriving DecidableEq, Repr

/-- Reset, fuses, life cycle (17, 18). -/
structure Rst where
  phase      : StartPhase := .inReset            -- [R393] (a1)
  powered    : Bool := true                      -- [R466] the rails are up (a1)
  coldKind   : Bool := true                      -- [R387] the reset in progress is cold (a1)
  fromMode   : Option Mode := none               -- [R26] mode before the reset in progress
  count      : Nat := 0                          -- [R392]
  failCause  : Nat := 0                          -- [R402]
  lastSrc    : Nat := 0                          -- [R386]
  fuseCopy   : Bool := false                     -- [R390]
  bootOkSeen : Bool := false                     -- [R402]
  marchOk    : Bool := false                     -- [R377] (a1)
  inReset    : BitVec 64 := 0                    -- [R401]
  pend       : BitVec 64 := 0                    -- [R388]
  sticky     : BitVec 5 := 0                     -- [R402] WEIR_EVT LOG_FULL CRIT_PARITY FUNC_REFUSED PEND_EVT
  funcSel    : BitVec 6 := 0                     -- [R402] FUNC_CTRL.FUNC
  critInfo   : W32 := 0                          -- [R395]
  ioHold     : Bool := true                      -- [R405]
  ioRelease  : Bool := false                     -- [R402]
  weirLog    : Tbl (W32 × W32) := []             -- [R400]
  weirCount  : Nat := 0                          -- [R400]
  fuse0      : FuseCopy := {}                    -- [R390] (a2)
  fuse1      : FuseCopy := {}                    -- [R390] (a2)
  shadowOk   : Bool := false                     -- [R390]
  trim       : List Byte := []                   -- [R390] trim in the fuse shadow
  repairs    : List Byte := []                   -- [R390] fused repairs in the fuse shadow
  variant    : BitVec 4 := 1                     -- [R358] (a2)
  uniqueId   : W64 := 0                          -- [R411] (a2)
  kek        : Option (BitVec 256) := none       -- [R273]
  lc         : LcState := .provisioned           -- [R406] (a2)
  lcPend     : Option LcState := none            -- [R408]
  dbgLevel   : BitVec 2 := 0                     -- [R413]
  nonce      : Option (List Byte) := none        -- [R411]
  devReset   : Option Nat := none                -- [R403] kind of a DEV_RESET answered and not yet started
  funcAnswer : List FuncAns := []                -- [R403] DEV_RESETs of kind 1 to be answered after the release
  recoverSlot : Option Nat := none               -- [R349]
  scanDirty  : Bool := false                     -- [R413]
  cpHalted   : BitVec 2 := 0                     -- [R413]
  stale      : List Nat := []                    -- [R18] islands that missed a tense switch
  deriving DecidableEq, Repr

/-- Global block, core frame counter, seconds, interrupts, PCIe (02, 15). -/
structure Glb where
  mode      : Mode := .bringUp                   -- [R21]
  power     : BitVec 2 := 0                      -- [R414]
  triggers  : List ModeTrigger := []             -- [R24]
  modeAt    : Option Cfn := none                 -- [R24] frame of the last mode change
  released  : Bool := false                      -- [R46] the core is released
  cfn       : Cfn := 0                           -- [R46]
  tick      : Cfn := 0                           -- frames since core release, by which timers run (model's own)
  sec       : W32 := 0                           -- [R50]
  secFrames : Nat := 0                           -- [R50]
  secStart  : Cfn := 0                           -- [R49] first frame of the second in progress, by `tick`
  bNext     : Nat := 1600000000                  -- [R49] core cycles from the start of this frame to b(n+1)
  ppsCorr   : Int := 0                           -- [R53] correction of the interval that begins at the next boundary
  stopped   : List Nat := []                     -- [R18] islands whose clock was stopped at the last frame token
  secDue    : Bool := false                      -- [R49] the frame in progress starts a second not yet processed
  ppsCtrl   : W32 := 0x00000400#32               -- [R51]
  ppsSticky : BitVec 2 := 0                      -- [R51] PPS_LOS OUTLIER
  ppsAligned : Bool := false                     -- [R51]
  ppsSlewing : Bool := false                     -- [R51]
  ppsErr    : Int := 0                           -- [R51] (a3)
  ppsWasAligned : Bool := false                  -- [R54]
  ppsBad    : Nat := 0                           -- [R54] consecutive outliers and missing edges
  ppsAny    : Bool := false                      -- [R54] the next edge is accepted whatever its error
  ppsSeen   : Bool := false                      -- [R54] an edge came within 16,384 cycles of the boundary being judged
  ppsJudge  : Nat := 0                           -- [R54] frames until the last second boundary is judged
  ppsNow    : Int := 0                           -- [R53] correction of the interval in progress
  intSticky : W32 := 0                           -- [R359] bits 27..21
  quadFail  : BitVec 4 := 0                      -- [R19]
  quadDown  : BitVec 4 := 0                      -- [R236] the quadrants failed as they stood at the last boundary
  intEnable : W32 := 0                           -- [R359]
  bcastAddr : BitVec 24 := 0                     -- [R354]
  accErrAddr : BitVec 28 := 0                    -- [R356]
  accErrInfo : W32 := 0                          -- [R356]
  remap     : BitVec 2 := 0                      -- [R366]
  msixMask  : Bool := true                       -- [R360] (a12) vector mask bit of PF0
  msixHeld  : Bool := false                      -- [R360]
  msixSent  : Nat := 0                           -- [R360] PF0 messages sent
  pf1Sent   : Nat := 0                           -- [R360] PF1 messages sent
  pf1Mask   : Bool := true                       -- [R350] (a12) vector mask bit of PF1
  pf1Held   : Bool := false                      -- [R350]
  msixTab   : Tbl W32 := []                      -- [R350] (a12) key 4*function+word, words 0-2
  aPrev     : Bool := false                      -- [R360] A was non-zero
  bme       : Bool := false                      -- [R361] PF1 Bus Master Enable (a12)
  mse       : Bool := false                      -- [R361] PF1 Memory Space Enable (a12)
  bars      : Tbl W32 := []                      -- [R350] base addresses, key 8*function+register (a12)
  dmaSticky : BitVec 2 := 0                      -- [R360] BME_LOST S_READ_ERR
  dmaPBusy  : Bool := false                      -- [R360]
  deriving DecidableEq, Repr

/-- One candidate tracker of the alignment hunt (R73). -/
structure Tracker where
  offset : Nat
  mfi    : Nat
  run    : Nat
  deriving DecidableEq, Repr

/-- The alignment of one pattern: of a lane, or of one logical lane of OTL4.4 (R73-R75, R77). -/
structure Align where
  trackers   : List Tracker := []                -- [R73]
  ambig      : Bool := false                     -- [R74] two trackers qualified together in this hunt
  offset     : Nat := 0                          -- [R74] accepted offset
  lastMfi    : Nat := 0                          -- [R75]
  mismatch   : Nat := 0                          -- [R75]
  outOfSeq   : Nat := 0                          -- [R75]
  delayNs    : Nat := 0                          -- [R77] held delay
  deriving DecidableEq, Repr

/-- One lane (03, 13, 21). -/
structure Lane where
  role       : LaneRole := .off                  -- [R58]
  rate       : BitVec 2 := 0                     -- [R66]
  state      : LaneState := .off                 -- [R76]
  retired    : Bool := false                     -- [R66]
  tries      : Nat := 0                          -- [R82]
  sticky     : BitVec 6 := 0                     -- [R66] LOS LOF LOM BURST AMBIG ADAPT_FAIL
  everLocked : Bool := false                     -- [R66]
  aligns     : Tbl Align := []                   -- [R73] key 0, on an OTL4.4 lane 0 to 4
  lof        : Bool := false                     -- [R220] dLOF, from its declaration until the lane is LOCKED again
  lom        : Bool := false                     -- [R220] dLOM
  seen       : W32 := 0                          -- [R206] its defects as captured in the frame before
  since      : Cfn := 0                          -- [R76] entry into the state
  window     : Option Cfn := none                -- [R82] start of the 60 s window
  pend       : Option LanePend := none           -- [R76]
  signal     : Bool := false                     -- [R76]
  txIdle     : Bool := true                      -- [R58]
  idleAt     : Option Cfn := none                -- [R83] boundary at which the transmitter goes idle
  unfitted   : Bool := false                     -- [R77] LOCKED and not fitted to the held delays
  rejoin     : Bool := false                     -- [R85] re-admitted, not yet back in the expected map
  rxPid      : Option Nat := none                -- [R72] received PID
  rxGid      : Option W32 := none                -- [R70] received GID
  pidLost    : Bool := false                     -- [R72] received map lacks this LOCKED member
  stDelay    : Nat := 0                          -- [R327] DELAY_NS
  stPhase    : Int := 0                          -- [R316] the partner's frame phase, in ns
  stSticky   : BitVec 4 := 0                     -- [R327] LATE CFN_MISMATCH UCW TOKEN_ERR
  stPeer     : BitVec 6 := 0                     -- [R327]
  stCfn      : Option Cfn := none                -- [R307] CFN of the last accepted marker
  stWords    : Option (Tbl W64) := none          -- [R310] columns of this lane frame; none all-zero
  stNow      : Option (Tbl W64) := none          -- [R310] columns that this frame writes into the pond; none all-zero
  stRun      : Nat := 0                          -- [R316] consecutive accepted markers
  phyCfg     : W32 := 0x00200028#32              -- [R461]
  phyTx      : W32 := 0x00200028#32              -- [R461] transmit settings in effect
  phyRx      : BitVec 3 := 0                     -- [R461] RX_INV and REACH in effect
  deriving DecidableEq, Repr

/-- A pending conjugation notice (R197). -/
structure Notice where
  target : Cfn
  idx    : Nat
  now    : Nat
  m      : Nat
  pin    : Bool
  mb     : Nat
  seq    : W16
  deriving DecidableEq, Repr

/-- An applied change of a conjugation, as CONJ_STATUS keeps it (R203). -/
structure ConjHist where
  cfn   : Cfn
  old   : Nat
  new   : Nat
  m     : Nat
  cause : Nat
  deriving DecidableEq, Repr

/-- An index change distributed for the next boundary (R195). -/
structure ConjNext where
  idx    : Nat
  cause  : Nat
  notice : Option Notice
  deriving DecidableEq, Repr

/-- One line group's context (03, 08). -/
structure Grp where
  lanes      : Nat                               -- [R61]
  rate       : BitVec 2                          -- [R61]
  otl        : Bool                              -- [R61]
  gidTx      : W32                               -- [R65]
  gidExp     : W32                               -- [R65]
  contain    : Bool                              -- [R65] SLICE_CONTAIN
  retireAuto : Bool                              -- [R65]
  burstWin   : Nat                               -- [R81]
  burstUcw   : Nat                               -- [R81]
  pendOpts   : Option (Bool × Bool × Nat × Nat) := none -- [R65]
  expMap     : List Nat                          -- [R63] expected PIDs
  txMap      : List Nat                          -- [R63] transmitted PHY map
  txDue      : Option (List Nat) := none         -- [R83] PHY map to transmit from the next FlexO multiframe
  state      : GrpState := .down                 -- [R70]
  since      : Cfn := 0                          -- [R70]
  sticky     : BitVec 5 := 0                     -- [R67] LOL GIDM PMM RETIRE_EVT SLICE_LOSS
  skewNs     : Nat := 0                          -- [R67]
  skewNow    : Bool := false                     -- [R77] skew over 4 us among inside members
  rdiTx      : Bool := true                      -- [R68] RDI is returned to the far end
  rdiRx      : Bool := false                     -- [R68] RDI is received
  carrying   : BitVec 16 := 0                    -- [R71] slices that carry line data in this frame
  ql         : BitVec 4 := 0xF#4                 -- [R78]
  qlAt       : Cfn := 0                          -- [R78] frame of the last valid PDU
  osmcTx     : BitVec 4 := 0xF#4                 -- [R80] QL inserted
  osmcInfo   : Nat := 0                          -- [R80] information PDUs sent
  osmcAt     : Option Cfn := none                -- [R80] frame of the last information PDU
  osmcEvent  : Nat := 0                          -- [R80] event PDUs sent
  cur        : Nat := 0                          -- [R204] CUR_IDX
  cur1       : Nat := 0                          -- [R195] index in force one frame ago
  cur2       : Nat := 0                          -- [R195] index in force two frames ago
  usable1    : BitVec 16 := 0xFFFF#16            -- [R194] U as it stood at the boundary before
  hasConj    : Bool := false                     -- [R184] a paradigm is in force
  cause      : Nat := 0                          -- [R204] LAST_CAUSE
  conjSticky : BitVec 6 := 0                     -- [R204] NOTICE_LIMITED NOTICE_ABSENT SLICE_SHORT RANK0_HIT OVERFILL PIN_IGNORED
  notice     : Option Notice := none             -- [R197]
  next       : Option ConjNext := none           -- [R195]
  hist       : List ConjHist := []               -- [R203]
  unavail    : List (Nat × Nat) := []            -- [R187] slices and slots marked unavailable
  slots      : Nat := 20                         -- [R187] slots per slice
  deriving DecidableEq, Repr

/-- A tributary context's configuration (R86, R171). -/
structure CtxCfg where
  active    : Bool := false
  type      : BitVec 3 := 0
  stream    : BitVec 7 := 0
  idx       : BitVec 7 := 0
  n         : Nat := 0
  qsMask    : BitVec 80 := 0
  lineTs    : BitVec 80 := 0
  tpn       : Byte := 0
  resize    : BitVec 2 := 0
  evictRank : Byte := 0
  group     : Nat := 0
  deriving DecidableEq, Repr

/-- One conjugation of a paradigm (R173). -/
structure Conj where
  m         : Nat := 0
  sliceMask : BitVec 16 := 0
  sets      : List Nat := []
  deriving DecidableEq, Repr

/-- A paradigm record (R173). -/
structure Para where
  init  : Nat := 0
  conjs : List Conj := []
  deriving DecidableEq, Repr

/-- A shadow-copy record (R174). -/
structure Shdw where
  srcT     : Nat
  homeT    : Nat
  parkT    : Nat
  homeG    : Nat
  fallG    : Nat
  upto     : Nat
  entries  : Nat
  deriving DecidableEq, Repr

/-- One item of a work list (R175, R209). -/
structure Item where
  ep   : Nat
  func : Nat
  cost : Nat
  args : List Byte
  deriving DecidableEq, Repr

/-- One engine's work list (R175). -/
structure Block where
  understudy : Nat
  load       : Nat
  items      : List Item
  deriving DecidableEq, Repr

/-- A cipher slot binding (R176). -/
structure Bind where
  slot   : Nat
  active : Bool
  auth   : BitVec 2
  deriving DecidableEq, Repr

/-- A protection group's record (R177). -/
structure Pg where
  type      : Nat
  active    : Bool
  revertive : Bool
  aps       : Bool
  sd        : Bool
  wPond     : Nat
  wRp       : Bool
  pPond     : Nat
  pRp       : Bool
  wT        : Nat
  pT        : Nat
  wEp       : Nat
  pEp       : Nat
  apsEp     : Nat
  holdOff   : Nat
  init      : Nat
  wtr       : Nat
  deriving DecidableEq, Repr

/-- One physical tense bank: the six tables, the schedule ID and the stream-use mask (R134). -/
structure Bank where
  id      : W64 := 0                             -- [R134]
  useMask : BitVec 128 := 0                      -- [R143]
  cmap    : Tbl (BitVec 48) := []                -- [R114] key s*16384+c
  mapBad  : Tbl (BitVec 72) := []                -- [R125] flipped bits of stored entries
  dead    : List Nat := []                       -- [R126] entries that act as V = 0
  ing     : Tbl CtxCfg := []                     -- [R86]
  eg      : Tbl CtxCfg := []                     -- [R86]
  alt     : Tbl CtxCfg := []                     -- [R172] key (rtype*16384+tnum)*4096+alt, rtype 0 ingress 1 egress
  para    : Tbl Para := []                       -- [R173]
  shdw    : List Shdw := []                      -- [R174]
  epwl    : Tbl Block := []                      -- [R175]
  ckey    : Tbl Bind := []                       -- [R176] key dir*16384+tnum
  pgs     : Tbl Pg := []                         -- [R177]
  sel     : Tbl Nat := []                        -- [R118] key s*256+i
  tblBad  : List Nat := []                       -- [R144] words of the other tables with an uncorrectable error
  undef   : Option Nat := none                   -- [R142] the content is undefined: the number of the draw (a21)
  written : List Nat := []                       -- [R142] entries written since
  deriving DecidableEq, Repr, Inhabited

/-- An armed commit or rollback (R145, R155, R158). -/
structure Armed where
  target   : Cfn
  effect   : Cfn
  rollback : Bool
  domain   : Bool
  resume   : Bool
  id       : W64
  origin   : Option (Nat × W16)
  acks     : List Nat := []
  noticed  : Bool := false
  ready    : Option Nat := none
  vetoRx   : Bool := false
  vetoTx   : Bool := false
  badTok   : Bool := false
  heard    : List Nat := []
  changed  : Bool := false
  deriving DecidableEq, Repr

/-- A commit, rollback or deferral as SCH_STATUS keeps it (R161, R345). -/
structure Outcome where
  cfn    : Cfn
  id     : W64
  result : Nat
  cause  : Nat
  deriving DecidableEq, Repr

/-- A running load (R178). -/
structure Load where
  mb      : Nat
  seq     : W16
  image   : List Byte
  short   : Bool
  readErr : Bool
  first   : Nat := 0                             -- [R346] first descriptor
  count   : Nat := 0                             -- [R346] descriptor count
  host    : HostMem := []                        -- [R346] the host memory that DMA-S reads
  undef   : Bool := false                        -- [R346] the image is undefined
  again   : Bool := false                        -- [R330] the load restarted from its first descriptor
  deriving DecidableEq, Repr

/-- The tense banks and the SCH group (06, 07). -/
structure Sch where
  bank0      : Bank := {}                        -- [R135]
  bank1      : Bank := {}                        -- [R135]
  bank2      : Bank := {}                        -- [R135]
  present    : Nat := 0                          -- [R162]
  past       : Nat := 1                          -- [R162]
  future     : Nat := 2                          -- [R162]
  present1   : Nat := 0                          -- [R137] bank Present one frame ago
  present2   : Nat := 0                          -- [R137] bank Present two frames ago
  futState   : FutState := .opened               -- [R139]
  armState   : ArmState := .idle                 -- [R162]
  armed      : Option Armed := none              -- [R145]
  pastValid  : Bool := false                     -- [R157]
  dataEnable : Bool := false                     -- [R151]
  dataPrev   : Bool := false                     -- [R151] DATA_ENABLE in the frame before
  deferCause : Nat := 0                          -- [R147]
  sticky     : BitVec 8 := 0                     -- [R162] COMMITTED..DOMAIN_SPLIT
  chkFail    : W32 := 0                          -- [R162]
  chkFailCnt : W32 := 0                          -- [R162]
  xFail      : Nat × Nat × Nat := (0, 0, 0)      -- [R143] code, table and key of the first cross-table failure
  target     : Cfn := 0                          -- [R162]
  last       : Cfn := 0                          -- [R162]
  began      : Bool := false                     -- [R67] a commit has taken effect since the reset
  futWrRej   : W32 := 0                          -- [R162]
  pendCopy   : Option (Nat × W16) := none        -- [R139]
  pendPrep   : Option (Nat × W16) := none        -- [R139]
  pendUnprep : Bool := false                     -- [R139]
  pendReopen : Option W32 := none                -- [R144] the CHK_FAIL value that a return to OPEN records
  passStart  : Cfn := 0                          -- [R139] boundary at which COPYING or CHECKING began
  opOrigin   : Option (Nat × W16) := none        -- [R342] mailbox and sequence of the running copy or pass
  copySnap   : Option Bank := none               -- [R141] the Present bank as it stood when COPYING began
  copyFrom   : Nat := 0                          -- [R141] the physical bank that the copy reads
  load       : Option Load := none               -- [R178]
  checked    : Bool := false                     -- [R147] the last pass failed
  digest     : List Byte := []                   -- [R180]
  outcomes   : List Outcome := []                -- [R161]
  held       : Tbl (Nat × W32) := []             -- [R117] +0 words held, by master
  descs      : Tbl W32 := []                     -- [R346] descriptor words
  committed  : Bool := false                     -- [R226] a commit or rollback fell in this second
  commitNext : Bool := false                     -- [R226] one fell in the frame that starts the second still to be processed
  deriving DecidableEq, Repr

/-- A pond word as it stood before a maintenance write in core cycle `cycle`, with its flipped bits (R109). -/
structure PondOld where
  col   : Nat
  cycle : Nat
  word  : W64
  bad   : BitVec 72
  deriving DecidableEq, Repr

/-- One physical pond (05). -/
structure Pond where
  role       : BitVec 2                          -- [R132]
  logical    : Nat                               -- [R132]
  sticky     : BitVec 4 := 0                     -- [R132] MARCH_FAIL UE CE MAINT_COLL
  retired    : Bool := false                     -- [R132]
  deny       : Bool := false                     -- [R132] MAINT_DENY
  op         : BitVec 2 := 0                     -- [R132]
  lost       : Bool := false                     -- [R132]
  half       : Bool := false                     -- [R132]
  col        : Nat := 0                          -- [R132]
  data       : W64 := 0                          -- [R132] MAINT_DATA (a3)
  ceCnt      : W32 := 0                          -- [R132]
  collCnt    : W32 := 0                          -- [R132]
  h0         : Tbl W64 := []                     -- [R107] (a4)
  h1         : Tbl W64 := []                     -- [R107] (a4)
  base0      : Option Nat := none                -- [R379] H0's content is undefined under this mask (a5)
  base1      : Option Nat := none                -- [R379] H1's content is undefined under this mask (a5)
  bad        : Tbl (BitVec 72) := []             -- [R125] flipped bits, key half*16384+col
  late       : List (Nat × W64) := []            -- [R109] maintenance writes behind the write port in this frame
  olds       : List PondOld := []                -- [R109] words that maintenance writes of this frame replaced in the half being read
  ces        : List (Cfn × Nat) := []            -- [R127] correctable errors within 60 s: frame and address
  forced     : Bool := false                     -- [R131] out of service by DIAG_POND_SPARE
  fault      : Bool := false                     -- [R127] a permanent fault is declared
  events     : Nat := 0                          -- [R432] fault events of the window
  window     : Option Cfn := none                -- [R432] the first fault event of the window
  marchAt    : Option Cfn := none                -- [R382] start of the repair march
  again      : Bool := false                     -- [R382] the march in progress is the second one, after repairs
  repair     : List Mismatch := []               -- [R382] what the first march found, to be repaired at the next boundary
  deriving DecidableEq, Repr

/-- A pond move between boundaries k and k+1 (R128-R131); kind 0 change-over, 1 return. -/
structure PondMove where
  logical : Nat
  src     : Nat
  dst     : Nat
  k       : Cfn
  kind    : Nat
  abandon : Bool := false
  srcBad  : Bool := false
  deriving DecidableEq, Repr

/-- Ponds and crossbar registers (05). -/
structure Pnd where
  ponds    : Tbl Pond := []                      -- [R107] absent: the reset pond of that number
  map      : Tbl Nat := []                       -- [R132] XBAR.MAP; absent: n
  conflict : Tbl W32 := []                       -- [R132]
  dstdup   : Tbl W32 := []                       -- [R132]
  bypass   : Bool := false                       -- [R132]
  moves    : List PondMove := []                 -- [R128]
  unusable : List Nat := []                      -- [R378] streams that cannot be used
  deriving DecidableEq, Repr

/-- The self-synchronising test checker of an egress stream (R42). -/
structure Checker where
  on   : Bool := false
  hist : BitVec 31 := 0
  seen : Nat := 0
  deriving DecidableEq, Repr

/-- Run-time state of an ingress context (04). -/
structure IngRun where
  buf      : List W64 := []                      -- [R98] words waiting
  ann      : List W64 := []                      -- [R94] words announced for the frame in progress
  annC     : Nat := 0                            -- [R94] C announced for the frame in progress
  annMaint : BitVec 2 := 0                       -- [R95] MAINT announced for the frame in progress
  lastC    : Nat := 0                            -- [R103] C of the last justification word written
  cnd      : Nat := 0                            -- [R95]
  discard  : Bool := false                       -- [R98] words were discarded in the last frame
  clean    : Nat := 0                            -- [R98] frames without a discarded word
  fcmovf   : Bool := false                       -- [R98]
  fcCnt    : W32 := 0                            -- [R103]
  msim     : Bool := false                       -- [R89]
  seen     : W32 := 0                            -- [R206] its defects as captured in the frame before
  loflom   : Bool := false                       -- [R220]
  untrust  : Option Nat := none                  -- [R262] dUNTRUST, and the second boundaries still to come before it may clear
  untrustPend : Bool := false                    -- [R262]
  maintCnt : Tbl W32 := []                       -- [R103]
  cMax     : List (Cfn × Nat) := []              -- [R105] C of the last 256 announcements, with their frames by `tick`
  lck      : Bool := false                       -- [R269] fail-closed decrypt binding
  ais      : Bool := false                       -- [R246]
  slots    : Option (BitVec 80) := none          -- [R104] line slots in use while they differ from LINE_TS
  deriving DecidableEq, Repr

/-- Run-time state of an egress context (04). -/
structure EgRun where
  justErr  : W32 := 0                            -- [R96]
  srcIdx   : BitVec 7 := 0                       -- [R96]
  lastC    : Nat := 0                            -- [R103]
  lastCnd  : Nat := 0                            -- [R103]
  bad      : Nat := 0                            -- [R97] consecutive invalid words
  openNow  : Bool := false                       -- [R97]
  maintCnt : Tbl W32 := []                       -- [R103]
  jC       : Nat := 0                            -- [R94] count held for the next data frame
  jMaint   : BitVec 2 := 0                       -- [R99]
  out      : List W64 := []                      -- [R93] words given to the line in the last frame
  outKind  : Nat := 0                            -- [R97] 0 data, 1 AIS, 2 LCK, 3 OCI
  slots    : Option (BitVec 80) := none          -- [R104] line slots in use while they differ from LINE_TS
  deriving DecidableEq, Repr

/-- A running ODUflex resize (R104). -/
structure Resize where
  ing   : Nat
  eg    : Nat
  phase : Nat
  mb    : Nat
  seq   : W16
  deriving DecidableEq, Repr

/-- The data path between the ponds and the line (02, 04, 05). -/
structure Dp where
  prbsAll : BitVec 31 := BitVec.allOnes 31       -- [R42] the ingress generators' common state
  egPrbs  : Tbl (BitVec 31) := []                -- [R116] absent: all ones
  checks  : Tbl Checker := []                    -- [R42]
  eb0     : Tbl W64 := []                        -- [R112] written words of half 0, key s*16384+col; listed = marked
  eb1     : Tbl W64 := []                        -- [R112]
  ebBad   : Tbl (BitVec 72) := []                -- [R125] key half*2097152+s*16384+col
  ebIdle  : List Nat := []                       -- [R39] streams whose half being filled got switch or select traffic
  ebIdle1 : List Nat := []                       -- [R39] the same for the half being read out
  egress  : Tbl W64 := []                        -- [R36] the egress frame that left last, key s*16384+col
  ing     : Tbl IngRun := []                     -- [R94]
  eg      : Tbl EgRun := []                      -- [R96]
  resizes : List Resize := []                    -- [R104]
  leaving : Tbl Nat := []                        -- [R120] selector states, for the frame before, of groups that a commit dropped
  rxMsi   : Tbl (List (Option Nat)) := []        -- [R89] received MSI by stream: the TPN of each line slot
  txMsi   : Tbl (List (Option Nat)) := []        -- [R89] transmitted MSI by stream
  deriving DecidableEq, Repr

/-- Run-time state of an engine (R216). -/
structure EngRun where
  state    : EngState := .inService
  events   : Nat := 0
  window   : Option Cfn := none
  since    : Cfn := 0
  covering : Option Nat := none
  cause    : Nat := 0
  faulted  : Bool := false
  readmit  : Bool := false
  testBad  : Bool := false
  deriving DecidableEq, Repr

/-- An endpoint descriptor (R218). -/
structure Desc where
  ttiTx   : List Byte := []
  ttiExp  : List Byte := []
  timMode : Byte := 0
  degMode : Byte := 0
  degThr  : W32 := 1
  degM    : Byte := 7
  tcmMode : Byte := 0
  bdiBei  : Byte := 1
  deriving DecidableEq, Repr

/-- Endpoint run-time state and second registers (R220-R224): counters C0-C7 of the second in progress and of the latched
one, runs of bad and good seconds, aTSF seen in the second. -/
structure EpRun where
  defects : W32 := 0
  cnt     : Tbl W32 := []
  latched : Tbl W32 := []
  badRun  : Nat := 0
  goodRun : Nat := 0
  deg     : Bool := false
  degNext : Option Bool := none
  tsf     : Bool := false
  tti     : List Byte := []
  bdi     : Bool := false
  deriving DecidableEq, Repr

/-- The harvest ring (R228-R230); `pend` is a configuration that waits for the next second boundary: enable, base, entries
and islands. `recSeq` is the SEQ of the record in progress, and `renewed` tells that a new ring was configured under it. -/
structure Harvest where
  enable  : Bool := false
  base    : W64 := 0
  entries : Nat := 0
  mask    : BitVec 4 := 0
  seq     : W32 := 0
  recSeq  : W32 := 0
  renewed : Bool := false
  pend    : Option (Bool × W64 × Nat × BitVec 4) := none
  running : Bool := false
  startAt : Option Cfn := none
  deriving DecidableEq, Repr

/-- A harvest record written to host memory (R228). -/
structure HarvestRec where
  addr   : Nat
  header : List Byte
  words  : Tbl W32
  done   : Option W32
  deriving DecidableEq, Repr

/-- Engines and endpoints (09). -/
structure Eng where
  engs      : Tbl EngRun := []                   -- [R216]
  descs     : Tbl Desc := []                     -- [R218]
  pendDescs : Tbl Desc := []                     -- [R218]
  eps       : Tbl EpRun := []                    -- [R222]
  orphans   : List Nat := []                     -- [R398] endpoints whose work list a function reset cleared
  suspectAll : Bool := false                     -- [R225] the latched second is SUSPECT for every endpoint
  fill      : Tbl Nat := []                      -- [R379] by island: 0 its endpoint store reads zero, n+1 it is undefined (a5)
  latchSec  : W32 := 0                           -- [R226]
  latchInfo : W32 := 0                           -- [R226]
  firstCfn  : Cfn := 0                           -- [R226]
  schedId   : W64 := 0                           -- [R226]
  aligned0  : Bool := false                      -- [R226] ALIGNED at the start of the second
  holdSec   : Bool := false                      -- [R225]
  holdNext  : Bool := false                      -- [R225] Hold began at the boundary that starts the second still to be processed
  suspectNext : List Nat := []                   -- [R225] endpoints whose descriptor changed at that boundary
  ucodeId   : W32 := 0                           -- [R208] (a3)
  istore    : Tbl W32 := []                      -- [R208] by island: UCODE_ID of the microcode in its instruction store (a3)
  harvest   : Harvest := {}                      -- [R230]
  records   : List HarvestRec := []              -- [R228] records in host memory
  deriving DecidableEq, Repr

/-- Run-time state of a protection group (10): the selector state for the ingress frame in progress and the one before,
requests, hold-off and WTR timers by their starts, APS (`rxNext` is accepted in this frame and `nrDue` timed out, both until the engine's
results are released), and the last switch. -/
structure PgRun where
  state    : Nat := 0                            -- [R233]
  prev     : Nat := 0                            -- [R233]
  top      : Nat := 12                           -- [R238]
  ops      : BitVec 5 := 0                       -- [R241]
  cmds     : List Nat := []                      -- [R241]
  freeze   : Bool := false                       -- [R242]
  wCause   : Nat := 0                            -- [R235]
  pCause   : Nat := 0                            -- [R235]
  wSf      : Bool := false                       -- [R236]
  wSd      : Bool := false                       -- [R236]
  pSf      : Bool := false                       -- [R236]
  pSd      : Bool := false                       -- [R236]
  tWSf     : Option Cfn := none                  -- [R236]
  tWSd     : Option Cfn := none                  -- [R236]
  tPSf     : Option Cfn := none                  -- [R236]
  tPSd     : Option Cfn := none                  -- [R236]
  wtr      : Option Cfn := none                  -- [R240]
  byCond   : Bool := false                       -- [R240]
  txAps    : W32 := 0                            -- [R243]
  rxAps    : W32 := 0                            -- [R243]
  rxNext   : Option W32 := none                  -- [R243]
  apsSince : Option Cfn := none                  -- [R244]
  nrDue    : Bool := false                       -- [R244]
  fop      : BitVec 3 := 0                       -- [R244]
  lastCfn  : Cfn := 0                            -- [R249]
  lastOld  : Nat := 0                            -- [R249]
  lastNew  : Nat := 0                            -- [R249]
  lastReq  : Nat := 0                            -- [R249]
  deriving DecidableEq, Repr

/-- One half of a key slot (R263). -/
structure Half where
  state : HalfState := .empty
  key   : BitVec 256 := 0
  salt  : BitVec 48 := 0
  limit : Nat := 0
  usage : Nat := 0
  deriving DecidableEq, Repr

/-- A key slot and the changes that wait for the next boundary (R263-R267). -/
structure Slot where
  h0       : Half := {}
  h1       : Half := {}
  ki       : Bool := false
  due      : Bool := false
  inv      : BitVec 48 := 0
  loadPend : Option (Bool × Half) := none
  actPend  : Option Cfn := none
  actReady : Bool := false
  ersPend  : Option Bool := none
  deriving DecidableEq, Repr

/-- How a pipeline treats an authentication block: it passes unchanged, is a lead-in, or is ciphered (R258). -/
inductive BlockKind where
  | clear | leadIn | cipher
  deriving DecidableEq, Repr

/-- An authentication block: its half, key and IV, the header it was announced with, and on the encrypt side the header of the
block after it (R255, R256). -/
structure CBlock where
  kind : BlockKind := .clear                     -- [R258]
  ki   : Bool := false                           -- [R256]
  key  : BitVec 256 := 0                         -- [R255]
  salt : BitVec 48 := 0                          -- [R255]
  inv  : BitVec 48 := 0                          -- [R255]
  hdr  : List Byte := []                         -- [R255] additional authenticated data
  next : List Byte := []                         -- [R256] header of the next block
  deriving DecidableEq, Repr

/-- What a pipeline holds of one bound tributary (R253-R256): the last seven bytes and the place of the next one in its block of
eight ODU frames, the blocks still to begin, and the block in progress. -/
structure CStream where
  win   : BitVec 56 := 0                         -- [R253] the last seven bytes
  pos   : Option Nat := none                     -- [R255] place of the next byte in its block; none: not aligned
  miss  : Nat := 0                               -- [R253] consecutive frames without the alignment signal
  mfas  : Nat := 0                               -- [R255] MFAS of the frame in progress
  pt    : Byte := 0                              -- [R254] PSI[0]
  queue : List CBlock := []                      -- [R255] blocks to begin
  cur   : CBlock := {}                           -- [R255] the block in progress
  n     : Nat := 0                               -- [R255] payload bytes of the block so far
  ks    : BitVec 128 := 0                        -- [R255] keystream block in use
  part  : BitVec 128 := 0                        -- [R255] ciphertext not yet hashed
  y     : BitVec 128 := 0                        -- [R255] hash so far
  tag   : BitVec 128 := 0                        -- [R256] tag of the last block; 0 where it was not encrypted
  due   : List (Bool × BitVec 128) := []         -- [R262] halves and computed tags of decrypted blocks whose tag has not arrived
  deriving DecidableEq, Repr

/-- Run-time state of a cipher binding (R258-R262): `ki` and `inv` are the header announced for the next block (encrypt) or the one
last accepted (decrypt). `switch` is 2 while an announced key switch waits for its block and 1 in its first block (encrypt);
`leadIn` tells that a lead-in is still to come; `failed` is the fail-closed cause of R269, 0 for none. -/
structure BindRun where
  slot     : Nat := 0
  state    : BindState := .acquire
  ki       : Bool := false
  inv      : BitVec 48 := 0
  switch   : Nat := 0
  leadIn   : Bool := true
  badHdr   : Nat := 0
  failed   : Nat := 0
  lastHdr  : List Byte := []
  pipe     : CStream := {}
  authFail : W32 := 0
  uncheck  : W32 := 0
  hdrErr   : W32 := 0
  invJump  : W32 := 0
  replay   : W32 := 0
  deriving DecidableEq, Repr

/-- A cipher pipeline; state 0 working, 1 retired, 2 in self-test (R278). -/
structure Pipe where
  state   : Nat := 0
  events  : Nat := 0
  window  : Option Cfn := none
  unvoted : W32 := 0
  since   : Cfn := 0
  deriving DecidableEq, Repr

/-- Key desk, key store, bindings, pipelines, tamper (11, 18). -/
structure Key where
  owner     : Nat := 0                           -- [R275]
  deskOp    : BitVec 3 := 0                      -- [R275]
  deskSlot  : BitVec 14 := 0                     -- [R275]
  busy      : Option (Nat × Nat) := none         -- [R275] running PF0 operation: op, result
  result    : Nat := 0                           -- [R275]
  lastSlot  : Nat := 0                           -- [R275]
  sticky    : BitVec 6 := 0                      -- [R275] LOCK_REFUSED TAMPER_WIPE REKEY_DUE LIMIT_HIT AUTH_FAIL PIPE_FAULT
  data      : Tbl W32 := []                      -- [R275]
  slots     : Tbl Slot := []                     -- [R263]
  binds     : Tbl BindRun := []                  -- [R260] key dir*16384+tnum
  pipes     : Tbl Pipe := []                     -- [R277] key cluster*32+side*16+pipe
  spare     : Tbl Nat := []                      -- [R278] tributary (side*16384+tnum) served by the spare, to its pipeline's key
  faults    : W32 := 0                           -- [R274] unwrap faults
  wiping    : Bool := false                      -- [R371]
  wipeBad   : Bool := false                      -- [R372]
  failAll   : Bool := false                      -- [R279] every binding becomes fail-closed at the next boundary
  tamperSet : List Nat := []                     -- [R425] sources of the alarms that are active
  tamperSrc : Byte := 0                          -- [R425]
  tamperEvt : Bool := false                      -- [R425]
  tamperCfg : BitVec 4 := 0xF#4                  -- [R425]
  deriving DecidableEq, Repr

/-- One reference candidate (R282-R287). -/
structure Cand where
  state    : CandState := .disabled
  enabled  : Bool := false
  ql       : BitVec 4 := 0xF#4
  prio     : BitVec 4 := 0
  freq     : Byte := 0
  lane     : BitVec 3 := 0
  hostQl   : Bool := false
  hostVal  : Option (BitVec 4) := none           -- [R283] QL supplied by the host
  timeout  : Byte := 0
  qlAt     : Option Cfn := none
  activity : Bool := false
  freqOk   : Bool := false
  sticky   : BitVec 3 := 0
  since    : Cfn := 0
  cut      : Bool := false
  loss     : Bool := false
  offset   : Int := 0
  against  : Option Nat := none
  agree    : Option Cfn := none
  deriving DecidableEq, Repr

/-- An event of TIM_HISTORY (R305, R345). -/
structure TimHist where
  cfn   : Cfn
  kind  : Nat
  old   : Nat
  new   : Nat
  cause : Nat
  deriving DecidableEq, Repr

/-- The timing unit as it stood before the selection of a boundary, which a dispute declared at that boundary takes back (R288, R291). -/
structure TimUndo where
  at_      : Cfn
  state    : TimState
  sel      : Option Nat
  fallback : Bool
  since    : Cfn
  sticky   : BitVec 7
  outQl    : BitVec 4
  hist     : List TimHist
  deriving DecidableEq, Repr

/-- The timing unit (12). -/
structure Tim where
  selCtrl   : W32 := 0x69400000#32               -- [R306]
  state     : TimState := .freeRun               -- [R299]
  sel       : Option Nat := none                 -- [R306] SEL_REF
  hoReady   : Bool := false                      -- [R297]
  estimate  : Int := 0                           -- [R297]
  outQl     : BitVec 4 := 0xB#4                  -- [R301]
  sticky    : BitVec 7 := 0                      -- [R306] SWAP DISPUTE QL_CHG FREERUN_ENTRY HOLDOVER_ENTRY REF_SWITCH LOCK_LOSS
  cands     : Tbl Cand := []                     -- [R286]
  since     : Cfn := 0                           -- [R299] entry into the state
  lockedAt  : Cfn := 0                           -- [R297]
  qualPpm   : Nat := 92                          -- [R285] 0.1 ppm
  wtr       : Nat := 300                         -- [R286] s
  dispPpb   : Nat := 50                          -- [R291]
  hoLimit   : Nat := 86400                       -- [R298] s
  ownQl     : BitVec 4 := 0xB#4                  -- [R301]
  swapH     : Nat := 24                          -- [R303] h
  lastSwap  : Cfn := 0                           -- [R303]
  clkout    : Nat := 0                           -- [R300]
  squelch   : BitVec 4 := 0xF#4                  -- [R300]
  fsyncMode : Nat := 0                           -- [R300]
  fsyncK    : Nat := 0                           -- [R300]
  fsyncOut  : Bool := false                      -- [R300] a pulse starts in this frame
  cfgPend   : List MbReq := []                   -- [R305]
  candPend  : Tbl MbReq := []                    -- [R286]
  swapPend  : Bool := false                      -- [R303] TIM_SWAP ordered
  fallback  : Bool := false                      -- [R289] the selected reference is a fallback
  activeTu  : Bool := false                      -- [R306] ACTIVE_TU
  faultA    : Bool := false                      -- [R306]
  faultB    : Bool := false                      -- [R306]
  hist      : List TimHist := []                 -- [R305]
  localOsc  : Bool := false                      -- [R429] the multiplexer passes LOCAL_OSC
  undo      : Option TimUndo := none             -- [R288] the unit before this boundary's selection
  endDue    : Bool := false                      -- [R293] a transition ended at a boundary whose second is still to end
  limitDue  : Bool := false                      -- [R304] the holdover limit came at a boundary whose second is still to end
  pairs     : Tbl Cfn := []                      -- [R291] pairs of equal rank, key 64*i+j: first frame of the comparison
  cmpAt     : Option (Cfn × Nat) := none         -- [R291] boundary and lower index of the last pair taken
  ests      : List (Cfn × Int) := []             -- [R297] estimates of the last 2 s and the one before them, newest first
  stbReady  : Bool := false                      -- [R302] the standby unit's own HO_READY
  stbEst    : Int := 0                           -- [R302] the standby unit's own estimate
  aligned   : Bool := false                      -- [R302] ALIGNED of the standby unit
  phaseRun  : Nat := 0                           -- [R432] consecutive frames with a phase disagreement beyond 500 ps
  deriving DecidableEq, Repr

/-- A role change as TWIN_STATUS keeps it (R326, R345). -/
structure RoleHist where
  cfn   : Cfn
  old   : Nat
  new   : Nat
  cause : Nat
  deriving DecidableEq, Repr

/-- What a domain stitch lane last carried (R326). -/
structure DomLane where
  kind    : Nat := 0
  vote    : Nat := 0
  deriving DecidableEq, Repr

/-- Stitch lanes, domains and the twin (13). -/
structure Twin where
  role      : TwinRole := .solo                  -- [R324]
  since     : Cfn := 0                           -- [R324]
  index     : BitVec 6 := 0                      -- [R313]
  peer      : BitVec 6 := 0                      -- [R326]
  twinLanes : BitVec 128 := 0                    -- [R326]
  domLanes  : BitVec 128 := 0                    -- [R313]
  seniorCfg : Nat := 0                           -- [R326]
  seniorSet : Bool := false                      -- [R327] seniority is configured (a31)
  hbLoss    : Nat := 4                           -- [R323]
  fsyncUse  : Bool := false                      -- [R316]
  compPs    : Int := 0                           -- [R326]
  act       : Bool := false                      -- [R327]
  peerAct   : Bool := false                      -- [R327]
  hbOut     : Bool := false                      -- [R323]
  hbTok     : Bool := false                      -- [R323] a token heartbeat arrived in this frame
  paths     : BitVec 2 := 0                      -- [R326] heartbeat paths of the last frame: bit 0 tokens, bit 1 pin
  hbMiss    : Nat := 0                           -- [R323] frames without a heartbeat
  hbRun     : Nat := 0                           -- [R324] frames with heartbeats
  hbOk      : Bool := false                      -- [R327]
  lossAt    : Option Cfn := none                 -- [R323] D
  actLow    : Bool := false                      -- [R324] TWIN_ACT_IN stayed low since D
  identical : Bool := false                      -- [R322]
  diverged  : Bool := false                      -- [R322] mirroring was lost since the join
  unlinked  : Bool := false                      -- [R322] every twin stitch lane is lost while the pin heartbeat continues
  sweep     : Nat := 8192                        -- [R322] next group of the leader's selector sweep; 8192: sent
  swept     : BitVec 8192 := 0                   -- [R322] groups whose state the follower has received since the join
  peerId    : Option W64 := none                 -- [R322] the partner's Present schedule ID
  sticky    : BitVec 3 := 0                      -- [R327] HB_LOSS DIVERGED ROLE_CHG
  joinAs    : Nat := 0                           -- [R326] the role that a join in progress names; 0 none
  joinFrom  : Option (Nat × W16) := none         -- [R326]
  joined    : Bool := false                      -- [R316] CFN alignment is done
  domAlign  : Bool := false                      -- [R316] a DOM_CFG waits for alignment
  yielding  : Option Cfn := none                 -- [R325] last frame y with YIELD
  peerYield : Option Cfn := none                 -- [R325] last frame in which the partner sent YIELD
  leave     : Bool := false                      -- [R324]
  tx        : Tbl (Tbl (BitVec 168)) := []       -- [R312] tokens sent in the last frame, by lane and slot
  relay     : Tbl (List (BitVec 168)) := []      -- [R312] VETOs to relay, by lane
  vote      : Option (BitVec 168) := none        -- [R312] the VOTE of this frame
  idSeen    : List W64 := []                     -- [R160] schedule IDs received in this frame
  domCommit : Option Cfn := none                 -- [R160] F of the last domain commit or rollback
  mirrorIn  : Tbl Nat := []                      -- [R321] selector states received for the ingress frame in progress
  mirrorOut : List W64 := []                     -- [R321] records sent in the last frame
  keyOut    : List Nat := []                     -- [R319] slots whose activation is to be mirrored
  conjOut   : List (Nat × Nat) := []             -- [R320] index changes to send in this frame
  domLast   : Tbl DomLane := []                  -- [R326]
  secSuspect : Bool := false                     -- [R316]
  hist      : List RoleHist := []                -- [R326]
  deriving DecidableEq, Repr

/-- An MB7 record (R340, R342). -/
structure EvRec where
  command : W16
  seq     : W16
  flags   : W32
  status  : W32
  body    : List Byte
  deriving DecidableEq, Repr

/-- One mailbox (R336). -/
structure Mb where
  state   : MbState := .closed                   -- [R336]
  ignored : Bool := false                        -- [R336]
  reject  : Bool := false                        -- [R336]
  seq     : W16 := 0                             -- [R336]
  intEn   : Bool := true                         -- [R336]
  noInt   : Bool := false                        -- [R340]
  req     : Tbl Byte := []                       -- [R336] (a4)
  resp    : Tbl Byte := []                       -- [R336] (a4)
  deriving DecidableEq, Repr

/-- A command taken from a doorbell and not answered: its code, its request, where PERT.DOORBELL delays the taking the frame
at which it is taken (R329, R451), the host memory that an SCH_LOAD is to read, and whether its mailbox was reset meanwhile, so that its
response is discarded (R339). -/
structure Waiting where
  code : W16
  req  : MbReq
  due  : Option Cfn
  host : HostMem := []
  drop : Bool := false
  deriving DecidableEq, Repr

/-- A journal record (R329): a command taken, with its mailbox, sequence and request; a step of an operation that answered ACCEPTED; a
group's pending notice; a pin binding; a descriptor, configuration or option setting; the desk's ownership; and a record written to
MB7. -/
inductive JRec where
  | command (code : W16) (req : MbReq)
  | step (code : W16) (origin : Nat × W16) (status : Nat)
  | notice (group : Nat) (n : Option Notice)
  | binding (req : MbReq)
  | setting (code : W16) (req : MbReq)
  | desk (owner : Nat)
  | record (r : EvRec)
  deriving DecidableEq, Repr

/-- Mailboxes and the MB7 ring (14). -/
structure Mbx where
  boxes   : Tbl Mb := []                         -- [R335]
  ring    : Tbl EvRec := []                      -- [R343] absent: an empty slot
  prod    : W16 := 0                             -- [R336]
  cons    : W16 := 0                             -- [R336]
  drop    : W32 := 0                             -- [R336]
  queue   : List EvRec := []                     -- [R331] events waiting through a CP pause
  waiting : List Waiting := []             -- [R338] commands taken from a doorbell and not answered
  serving : Bool := false                        -- [R328] the active CP serves mailboxes
  journal : List JRec := []                      -- [R329] records the standby has not applied
  deriving DecidableEq, Repr

/-- One flash slot (R332, R333). -/
structure FwSlot where
  data    : Tbl Byte := []
  valid   : Bool := false
  version : W32 := 0
  ucodeId : W32 := 0
  journal : W32 := 0
  size    : W32 := 0
  cpSize  : W32 := 0
  deriving DecidableEq, Repr

/-- One member of a redundant pair (R427, R432). -/
structure UnitRun where
  state  : UnitState := .ready
  events : Nat := 0
  window : Option Cfn := none
  since  : Cfn := 0
  readmitted : Bool := false
  unseen : Bool := false                         -- [R428] the referee has lost its heartbeats
  fresh  : Bool := false                         -- [R438] a fault event was declared in this frame
  deriving DecidableEq, Repr

/-- Control processors, firmware, redundant units (14, 19). -/
structure Cps where
  active   : Bool := false                       -- [R328] ACTIVE_CP
  cpA      : UnitRun := { state := .active }     -- [R441]
  cpB      : UnitRun := { state := .ready }      -- [R441]
  tuA      : UnitRun := { state := .active }     -- [R441]
  tuB      : UnitRun := { state := .resync }     -- [R441]
  applied  : Nat := 0                            -- [R329] records applied
  bootPtr0 : Nat := 0                            -- [R333] (a2)
  bootPtr1 : Nat := 0                            -- [R333] (a2)
  bootCrc0 : W32 := 0x527D5351#32                -- [R333] CRC-32C of the first copy of the boot pointer (a2)
  bootCrc1 : W32 := 0x527D5351#32                -- [R333] of the second (a2)
  slot0    : FwSlot := { valid := true, size := 0x200#32 } -- [R333] (a2)
  slot1    : FwSlot := {}                        -- [R333] (a2)
  running  : Nat := 0                            -- [R345]
  version  : W32 := 0                            -- [R345] (a3)
  jVersion : W32 := 0                            -- [R334] (a3)
  update   : Option (Nat × Nat × W16) := none    -- [R334] running FW_LIVE_UPDATE: slot, mailbox, sequence
  checkpoint : Bool := false                     -- [R334] the standby applies the journal from the checkpoint
  updated  : Bool := false                       -- [R334] the roles have swapped
  swapH    : Nat := 168                          -- [R434]
  lastSwap : Cfn := 0                            -- [R434]
  swapDue  : Bool := false                       -- [R434] a periodic swap fell due and waits
  records  : List (List Byte) := []              -- [R439] newest first, at most 64
  recTotal : Nat := 0                            -- [R439]
  deriving DecidableEq, Repr

/-- Bus matrix, working SRAM (15, 16). -/
structure Bus where
  qos      : Tbl (BitVec 5) := []                -- [R365] absent: the reset value of that master
  errInfo  : W32 := 0                            -- [R365]
  errAddr  : W64 := 0                            -- [R365]
  conflict : Tbl W32 := []                       -- [R369]
  sram     : Tbl (Tbl Byte) := []                -- [R368] W0-W3 (a4)
  sramBase : Tbl Nat := []                       -- [R379] banks whose content is undefined, with their mask (a5)
  secPad   : Tbl W64 := []                       -- [R371] secure scratchpad
  secBase  : Option Nat := none                  -- [R379] its content is undefined under this mask (a5)
  engPad   : Tbl (Tbl Byte) := []                -- [R370] engine scratchpads (a4)
  engBase  : Tbl Nat := []                       -- [R379] engine islands whose scratchpads are undefined, with their mask (a5)
  latch    : Tbl (Tbl W32) := []                 -- [R6] by master: the latched words, by their address
  readData : Tbl W32 := []                       -- [R7] the data of each master's last read (model's own)
  deriving DecidableEq, Repr

/-- Error counts and repairs of one memory (R373, R384): correctable, uncorrectable, soft repairs, the last mismatch's row and CFN. -/
structure MemRun where
  ce    : W32 := 0
  ue    : W32 := 0
  soft  : W32 := 0
  row   : Nat := 0
  cfn   : Cfn := 0
  unrep : Bool := false
  found : List (Nat × Nat × Nat) := []           -- [R374] mismatches: array, row and bit-column
  rows  : Tbl (List Nat) := []                   -- [R380] by array: the rows that spare rows replace
  cols  : Tbl (List Nat) := []                   -- [R380] by array: the bit-columns that spare columns replace
  ces   : List (Cfn × Nat) := []                 -- [R381] correctable errors within 60 s: frame and address
  deriving DecidableEq, Repr

/-- A march of DIAG_MARCH in progress (R379). -/
structure MarchRun where
  memory : Nat
  destr  : Bool
  mb     : Nat
  seq    : W16
  deriving DecidableEq, Repr

/-- Memories, march and repair (16). -/
structure Mem where
  mems  : Tbl MemRun := []                       -- [R384]
  marches : List MarchRun := []                  -- [R379] in the order of their requests
  wires : List (Nat × Nat) := []                 -- [R20] die-to-die wires that spares replace: link and wire
  worn  : Bool := false                          -- [R383] a last spare was used or an array is unrepairable
  checker : Bool := false                        -- [R374] the pass of the background march in progress uses the checkerboard (a41)
  deriving DecidableEq, Repr

/-- Power manager and pins (18, 21). -/
structure Pwr where
  warn      : Bool := false                      -- [R425]
  trip      : Bool := false                      -- [R425]
  avsOn     : Bool := false                      -- [R425] AVS_ACTIVE
  hot       : BitVec 4 := 0                      -- [R425]
  sticky    : BitVec 6 := 0                      -- [R425] THERM_WARN THERM_TRIP SENSOR_FAULT AVS_FAIL RAIL_FAULT AVS_LIMIT
  avsEnable : Bool := false                      -- [R425]
  avsPec    : Bool := true                       -- [R425]
  avsAddr   : BitVec 7 := 0x40#7                 -- [R425]
  measMv    : W16 := 0                           -- [R425]
  cmdMv     : W16 := 0x2D0#16                    -- [R425]
  temps     : Tbl (Bool × Int) := []             -- [R425] (a3)
  faults    : List Nat := []                     -- [R421] faults of the last sample: invalid sensors, 16 + q a disagreement
  highRun   : Nat := 0                           -- [R419]
  stepDue   : Option Bool := none                -- [R422] an AVS step that waits for PMBus, up or down
  retries   : Nat := 0                           -- [R420]
  avsHeld   : Bool := false                      -- [R420] the loop stopped on PMBus failure
  gateOn    : Bool := false                      -- [R415] P1 asked for
  gated     : BitVec 32 := 0                     -- [R415] gated-island mask
  usedAt    : Tbl Cfn := []                      -- [R415] frame at which an island was last in use
  gpioFn    : Tbl Nat := []                      -- [R464]
  gpioDrive : Tbl Nat := []                      -- [R464]
  gpioPull  : Tbl Nat := []                      -- [R464]
  gpioOut   : BitVec 64 := 0                     -- [R464]
  binds     : Tbl (Nat × Nat × Nat × Bool) := [] -- [R199] pin to group, mode, preset, falling edge
  bindPend  : List (Nat × Nat × Nat × Nat × Bool) := [] -- [R199]
  pinsTaken : List (Nat × Bool) := []            -- [R472] pins that DEV_GPIO_CFG (false) or CONJ_PIN_CFG (true) took in this frame
  deriving DecidableEq, Repr

/-- Event counters and tagging (20). -/
structure Perf where
  cnt     : Tbl (BitVec 48) := []                -- [R442]
  snap    : Tbl (BitVec 48) := []                -- [R444]
  copying : Option (Tbl (BitVec 48)) := none     -- [R444]
  cfg     : Tbl W32 := []                        -- [R446]
  ovf     : Tbl W32 := []                        -- [R446]
  freeze  : Bool := false                        -- [R449]
  frozen  : Bool := false                        -- [R449]
  done    : Bool := false                        -- [R449]
  denied  : Bool := false                        -- [R449]
  access  : BitVec 2 := 0                        -- [R448]
  reqSnap : Bool := false                        -- [R444]
  reqClr  : Bool := false                        -- [R444]
  tagCtrl : W32 := 0x00100000#32                 -- [R449]
  tags    : List (W32 × W32 × W32 × W32) := []   -- [R450] oldest first
  oldest  : BitVec 8 := 0                        -- [R449]
  dropped : Bool := false                        -- [R449]
  lfsr    : W32 := 0                             -- [R447] (a3)
  tagWin  : Tbl Nat := []                        -- [R447] windows of a source that are over, by source
  deriving DecidableEq, Repr

/-- Test perturbation (R451). -/
structure Pert where
  weir    : W32 := 0                             -- [R451]
  bp      : W32 := 0                             -- [R451]
  bell    : W32 := 0                             -- [R451]
  pond    : W32 := 0                             -- [R451]
  pondCfn : Cfn := 0                             -- [R451]
  lane    : W32 := 0                             -- [R451]
  stitch  : W32 := 0                             -- [R451]
  skew    : W32 := 0                             -- [R451]
  hb      : W32 := 0                             -- [R451]
  hbRun   : Nat := 0                             -- [R451] frames for which heartbeats have been suppressed
  denied  : Bool := false                        -- [R451]
  deriving DecidableEq, Repr

/-- The whole device. -/
structure State where
  rst     : Rst := {}
  glb     : Glb := {}
  lanes   : Tbl Lane := []                       -- [R58] absent: an Off lane
  grps    : Tbl Grp := []                        -- [R61] absent: no group
  sch     : Sch := {}
  pnd     : Pnd := {}
  dp      : Dp := {}
  eng     : Eng := {}
  prot    : Tbl PgRun := []                      -- [R233] run-time state by group number; listed: in the schedule
  key     : Key := {}
  tim     : Tim := {}
  twin    : Twin := {}
  mbx     : Mbx := {}
  cps     : Cps := {}
  bus     : Bus := {}
  mem     : Mem := {}
  pwr     : Pwr := {}
  perf    : Perf := {}
  pert    : Pert := {}
  /-- The model's own counter of free values drawn so far (log entry 5). -/
  drawn   : Nat := 0
  /-- Commands waiting, first in first out: the model's own. -/
  pending : List Instr := []
  deriving DecidableEq, Repr

/-- The device held in the cold reset of power-on, every field at its reset value (R11, R385, R393). -/
def State.reset : State := {}

end Sys2Proof.Machine
end

