-- ==== Sys2Proof/Config.lean ====
section
/-!
DEFINITION. What the spec leaves open, or leaves to a published standard outside it: constants with no body, so that
nothing can be proved of their values.
-/

namespace Sys2Proof

/-- The value of draw `n` where the spec calls a value of `w` bits undefined or states none (log entry 5). -/
opaque Config.freeValue (w n : Nat) : BitVec w

/-- What a bank's connection map holds where R142 or R379 leaves it undefined, `n` being the draw: the entry of key `k` (log entry 21). -/
opaque Config.undefBank (n k : Nat) : BitVec 48

/-- The tables other than the connection map that a bank holds where R142 or R379 leaves them undefined; `n` is the draw (log entry 21). -/
opaque Config.undefTables (n : Nat) : Machine.Bank

/-- The mask under which word (or byte) `k` of a memory reads after a march that ended early, which R379 leaves undefined;
`n` is the draw. -/
opaque Config.undefMem (n k : Nat) : W64

/-- The kind and cause bytes of a TIM_HISTORY record, which R305 does not number (log entry 24). -/
opaque Config.histCode : Nat → Byte

/-- Benyan's PCI-SIG vendor identifier, whose value the spec does not give (R350; log entry 12). -/
opaque Config.vendorId : BitVec 16

/-- The trigger byte of MODE_CHG, which R344 does not number (log entry 6). -/
opaque Config.modeTrigger : Nat → Byte

/-- Whether a firmware image carries a valid ECDSA P-384 signature of the Benyan key (R332; log entry 9). -/
opaque Config.fwSignatureValid : List Byte → Bool

/-- Whether 96 bytes are a valid authorisation over the 43 bytes of R411 (log entry 9). -/
opaque Config.authValid : List Byte → List Byte → Bool

/-- The key-encryption key that fuse load derives from the KEK seed (R273; log entry 9). -/
opaque Config.kekOf : List Byte → BitVec 256

/-- Whether G.709 maps a payload type with GMP: the spec names G.709 and does not restate its list (R254; log entry 34). -/
opaque Config.gmpPayload : Byte → Bool

/-- The words of a maintenance signal of G.709 (MAINT code 1 ODU-AIS, 2 ODU-LCK, 3 ODU-OCI) of an ingress context, by the
word's place in the signal: the spec names the signals and does not restate their bits (R99; log entry 33). -/
opaque Config.maintWord (code ctx place : Nat) : W64

/-- G.873.1, which the spec names for the APS bytes and does not restate (R238, R243, R244; log entry 29): the far end's
request as a priority of R238, and whether an SD or MS of it asks for protect; the request in force while failures of protocol are
declared, by the failures, the own request and the far end's, with the selector state it asks for (2 or more: unchanged); the bytes to
send for the own top request, the top request, the selector state, TYPE and REVERTIVE; and whether received bytes mismatch (bit 0 PM,
bit 1 CM) or answer the sent ones. -/
opaque Config.apsRequest : W32 → Nat × Bool
opaque Config.apsFailure (fop : BitVec 3) (own far : Nat × Nat) : Nat × Nat
opaque Config.apsBytes (own top state type : Nat) (revertive : Bool) : W32
opaque Config.apsMismatch (rx tx : W32) : BitVec 2
opaque Config.apsAnswers (rx tx : W32) : Bool

/-- The cause bits of a leg in PG_STATUS, which R345 does not lay out (log entry 29). -/
opaque Config.legCauses : Nat → W16

/-- The fused target of the speed monitors, by the fuse trim (R419), and the fault bits of a PMBus STATUS_WORD (log
entry 36). -/
opaque Config.avsTarget : List Byte → Nat
opaque Config.pmbusFaults : W16

/-- The firmware log at draw `n`, whose text the spec does not give (R345; log entry 37). -/
opaque Config.firmwareLog (n : Nat) : List Byte

/-- The next state of the random source that chooses the tagged instruction of a window: R447 gives it 32 bits and no polynomial. -/
opaque Config.lfsrNext : BitVec 32 → BitVec 32

/-- The fuse trim a device takes where both copies fail or the array is blank (R390, R406). -/
opaque Config.defaultTrim : List Byte

end Sys2Proof
end

