-- ==== Sys2Proof/Machine/Tbl.lean ====
section
/-!
DEFINITION. Sparse tables: lists of (key, value) with strictly rising keys, in which a key that holds the table's default
is not listed, so that equal tables are equal data.
-/

namespace Sys2Proof.Machine

/-- The entry listed under key `k`. -/
def tfind {α : Type} (t : Tbl α) (k : Nat) : Option α := List.lookup k t

/-- The value of key `k` in a table whose unlisted keys hold `d`. -/
def tget {α : Type} (d : α) (t : Tbl α) (k : Nat) : α := (tfind t k).getD d

def tdel {α : Type} (t : Tbl α) (k : Nat) : Tbl α := t.filter fun e => e.1 != k

/-- `t` with `v` listed under `k`. -/
def tins {α : Type} : Tbl α → Nat → α → Tbl α
  | [], k, v => [(k, v)]
  | (a, b) :: r, k, v => if k < a then (k, v) :: (a, b) :: r else if k = a then (k, v) :: r else (a, b) :: tins r k v

/-- `t` with `v` under `k`, where a key that holds `d` is not listed. -/
def tput {α : Type} [DecidableEq α] (d : α) (t : Tbl α) (k : Nat) (v : α) : Tbl α :=
  if v = d then tdel t k else tins t k v

def tmod {α : Type} [DecidableEq α] (d : α) (t : Tbl α) (k : Nat) (f : α → α) : Tbl α := tput d t k (f (tget d t k))

/-- Change the entry under `k` where one is listed. -/
def tupd {α : Type} (t : Tbl α) (k : Nat) (f : α → α) : Tbl α := t.map fun e => if e.1 = k then (e.1, f e.2) else e

/-- Apply `f` to every listed entry. -/
def tmap {α β : Type} (f : Nat → α → β) (t : Tbl α) : Tbl β := t.map fun e => (e.1, f e.1 e.2)

def tkeys {α : Type} (t : Tbl α) : List Nat := t.map Prod.fst

/-- A table from a list of entries in any order; of two with one key the later stands. -/
def tof {α : Type} (l : List (Nat × α)) : Tbl α := l.foldl (fun t e => tins t e.1 e.2) []

/-- `t`, with default `d`, where the keys from `base` on hold the values of `l`. -/
def tover {α : Type} [DecidableEq α] (d : α) (base : Nat) (l : List α) (t : Tbl α) : Tbl α :=
  t.filter (fun e => e.1 < base) ++ ((l.zipIdx base).map fun p => (p.2, p.1)).filter (fun e => e.2 != d) ++
    t.filter (fun e => base + l.length ≤ e.1)

/-- The `n` values from key `base` on. -/
def trange {α : Type} (d : α) (t : Tbl α) (base n : Nat) : List α := (List.range n).map fun i => tget d t (base + i)

/-- The canonical form: keys strictly rising. -/
def trising {α : Type} : Tbl α → Bool
  | [] => true
  | [_] => true
  | (a, _) :: (b, w) :: r => a < b && trising ((b, w) :: r)

/-- The canonical form of a table with default `d`. -/
def twf {α : Type} [DecidableEq α] (d : α) (t : Tbl α) : Bool := trising t && t.all fun e => e.2 != d

end Sys2Proof.Machine
end

