-- ==== Sys2Proof/Machine/Bits.lean ====
section
/-!
DEFINITION. Bit fields, little-endian bytes and set-as-mask helpers.
-/

namespace Sys2Proof.Machine

/-- Bits `lo` to `lo+w-1` of `v`. -/
def fld (v lo w : Nat) : Nat := v / 2 ^ lo % 2 ^ w

def bitOf (v i : Nat) : Bool := v.testBit i

/-- A Bool as a bit. -/
def b2n (b : Bool) : Nat := if b then 1 else 0

/-- `v` with bits `lo` to `lo+w-1` replaced by `x`. -/
def setFld (v lo w x : Nat) : Nat := v - fld v lo w * 2 ^ lo + (x % 2 ^ w) * 2 ^ lo

/-- The `n` bytes of `v`, least significant first. -/
def leBytes : Nat → Nat → List Byte
  | 0, _ => []
  | n + 1, v => BitVec.ofNat 8 v :: leBytes n (v / 256)

/-- The number a list of bytes spells, least significant first. -/
def leNat : List Byte → Nat
  | [] => 0
  | b :: r => b.toNat + 256 * leNat r

/-- The number a list of bytes spells, most significant first. -/
def beNat (l : List Byte) : Nat := leNat l.reverse

def beBytes (n v : Nat) : List Byte := (leBytes n v).reverse

/-- The little-endian field of `n` bytes at byte `off`; bytes beyond the end read 0. -/
def leAt (l : List Byte) (off n : Nat) : Nat := leNat ((l.drop off).take n)

/-- The `n` bytes at `off`. -/
def slice (l : List Byte) (off n : Nat) : List Byte := (l.drop off).take n

/-- `l` padded with zero bytes to `n`. -/
def padTo (n : Nat) (l : List Byte) : List Byte := l ++ List.replicate (n - l.length) 0

/-- The positions of the 1 bits of `v` below `n`, rising. -/
def ones (n v : Nat) : List Nat := (List.range n).filter fun i => v.testBit i

def popc (n v : Nat) : Nat := (ones n v).length

/-- The mask whose 1 bits are `l`. -/
def maskOf (l : List Nat) : Nat := l.foldl (fun a i => a ||| 2 ^ i) 0

/-- `x` as a two's complement number of `w` bits. -/
def toS (w : Nat) (x : Int) : Nat := (BitVec.ofInt w x).toNat

/-- The signed number that `w` bits spell. -/
def ofS (w v : Nat) : Int := (BitVec.ofNat w v).toInt

/-- A counter of `w` bits that saturates at all ones (R8). -/
def satAdd {w : Nat} (c : BitVec w) (n : Nat) : BitVec w :=
  if c.toNat + n < 2 ^ w then BitVec.ofNat w (c.toNat + n) else BitVec.allOnes w

/-- `a - b` modulo 2^48, where the larger half is the past (R47). -/
def cfnDist (a b : Cfn) : Nat := (a - b).toNat

/-- `a` lies at or after `b` (R47). -/
def cfnGe (a b : Cfn) : Bool := (a - b).toNat < 2 ^ 47

/-- `a` lies after `b` (R47). -/
def cfnGt (a b : Cfn) : Bool := a != b && cfnGe a b

def cfnAdd (a : Cfn) (n : Nat) : Cfn := a + BitVec.ofNat 48 n

/-- Frames since `t`. -/
def since (now t : Cfn) : Nat := (now - t).toNat

/-- `b` appended to `l` unless it stands there. -/
def addNew {α : Type} [DecidableEq α] (l : List α) (b : α) : List α := if l.contains b then l else l ++ [b]

def without {α : Type} [DecidableEq α] (l : List α) (b : α) : List α := l.filter fun a => a != b

/-- Set or clear bit `i` of `v`. -/
def setBit {w : Nat} (v : BitVec w) (i : Nat) (b : Bool) : BitVec w :=
  if b then v ||| BitVec.ofNat w (2 ^ i) else v &&& ~~~ BitVec.ofNat w (2 ^ i)

/-- A write of `x` to W1C bits that stand at bit `lo` of the register (R7). -/
def w1c {w : Nat} (v : BitVec w) (x lo : Nat) : BitVec w := v &&& ~~~ BitVec.ofNat w (x / 2 ^ lo)

end Sys2Proof.Machine
end

