-- ==== Sys2Proof/Machine/Crc.lean ====
section
/-!
DEFINITION. The check codes of the formats (CRC-8, CRC-16, CRC-32, CRC-32C), SHA-256 and the test-pattern generator.
-/

namespace Sys2Proof.Machine

/-- One step of a most-significant-first CRC of `w` bits. -/
def crcBit (w poly c : Nat) (b : Bool) : Nat :=
  let top := c.testBit (w - 1) != b
  let c' := c * 2 % 2 ^ w
  if top then c' ^^^ poly else c'

/-- A CRC of `w` bits over bytes, each byte most significant bit first, no reflection. -/
def crcMsb (w poly init : Nat) (l : List Byte) : Nat :=
  l.foldl (fun c b => ([7, 6, 5, 4, 3, 2, 1, 0] : List Nat).foldl (fun c i => crcBit w poly c (b.toNat.testBit i)) c) init

def crc8 (l : List Byte) : Nat := crcMsb 8 0x07 0 l

def crc16 (l : List Byte) : Nat := crcMsb 16 0x1021 0xFFFF l

/-- A reflected CRC of 32 bits with initial value and final complement of all ones. -/
def crc32r (poly : Nat) (l : List Byte) : Nat :=
  l.foldl (fun c b => ([0, 1, 2, 3, 4, 5, 6, 7] : List Nat).foldl
    (fun c _ => if c.testBit 0 then (c / 2) ^^^ poly else c / 2) (c ^^^ b.toNat)) 0xFFFF_FFFF ^^^ 0xFFFF_FFFF

def crc32 (l : List Byte) : Nat := crc32r 0xEDB8_8320 l

def crc32c (l : List Byte) : Nat := crc32r 0x82F6_3B78 l

/-- One bit of the generator 1 + x^28 + x^31: the next state and the bit it gives. The bit given is the feedback bit, so the first after all
ones is 0: the spec says neither that nor that it is the stage shifted out (DESIGN CHOICE, log entry 35). -/
def prbsBit (g : BitVec 31) : BitVec 31 × Bool :=
  let b := g.getLsbD 30 != g.getLsbD 27
  ((g <<< 1) ||| BitVec.ofNat 31 (b2n b), b)

/-- One 64-bit word of the generator, the first bit generated in bit 0 (R42). -/
def prbsWord (g : BitVec 31) : BitVec 31 × W64 :=
  (List.range 64).foldl (fun p i =>
    let q := prbsBit p.1
    (q.1, p.2 ||| BitVec.ofNat 64 (b2n q.2 * 2 ^ i))) (g, 0)

/-! ### SHA-256

The digest is over 32-bit words held as numbers. Its constants are root expansions of the primes, and are computed so. -/

/-- The primes below 312, of which there are 64. -/
def primes64 : List Nat := (List.range 312).filter fun p => 2 ≤ p && (List.range 16).all fun d => p % (d + 2) != 0 || p = d + 2

/-- The largest number of `n` bits whose `e`-th power does not exceed `v`. -/
def rootBits (e v : Nat) : Nat → Nat → Nat
  | 0, r => r
  | n + 1, r => rootBits e v n (if (r + 2 ^ n) ^ e ≤ v then r + 2 ^ n else r)

/-- The first 32 bits of the fraction of the `e`-th root of `p`. -/
def rootFraction (e p : Nat) : Nat := rootBits e (p * 2 ^ (32 * e)) 37 0 % 2 ^ 32

def shaRoundWords : List Nat := primes64.map (rootFraction 3)
def shaStart : List Nat := (primes64.take 8).map (rootFraction 2)

def rotr32 (n x : Nat) : Nat := x / 2 ^ n + x % 2 ^ n * 2 ^ (32 - n)

/-- Three rotations of a word, the last a shift where `shift` says so. -/
def shaMix (shift : Bool) (a b c x : Nat) : Nat := rotr32 a x ^^^ rotr32 b x ^^^ (if shift then x / 2 ^ c else rotr32 c x)

/-- `n` more words of a message schedule that is held latest first. -/
def shaExtend : Nat → List Nat → List Nat
  | 0, w => w
  | n + 1, w =>
    shaExtend n ((shaMix true 17 19 10 (w.getD 1 0) + w.getD 6 0 + shaMix true 7 18 3 (w.getD 14 0) + w.getD 15 0) % 2 ^ 32 :: w)

/-- One round on the eight working words; `kw` is the sum of the round's constant and its schedule word. -/
def shaStep : List Nat → Nat → List Nat
  | [a, b, c, d, e, f, g, h], kw =>
    let choice := (e &&& f) ^^^ ((0xFFFF_FFFF ^^^ e) &&& g)
    let t := h + shaMix false 6 11 25 e + choice + kw
    [(t + shaMix false 2 13 22 a + ((a &&& b) ^^^ (a &&& c) ^^^ (b &&& c))) % 2 ^ 32, a, b, c, (d + t) % 2 ^ 32, e, f, g]
  | v, _ => v

/-- A block of 64 bytes worked into the chaining words. -/
def shaBlock (h : List Nat) (block : List Byte) : List Nat :=
  let first := (List.range 16).map fun i => beNat (slice block (60 - 4 * i) 4)
  let sums := List.zipWith (· + ·) shaRoundWords (shaExtend 48 first).reverse
  List.zipWith (fun x y => (x + y) % 2 ^ 32) h (sums.foldl shaStep h)

/-- The blocks of 64 bytes that start `l`, at most `n`. -/
def blocks64 : Nat → List Byte → List (List Byte)
  | 0, _ => []
  | n + 1, l => l.take 64 :: blocks64 n (l.drop 64)

/-- SHA-256 of a byte string. -/
def sha256 (l : List Byte) : List Byte :=
  let fill := l ++ 0x80#8 :: List.replicate ((119 - l.length % 64) % 64) 0
  let m := fill ++ beBytes 8 (8 * l.length)
  ((blocks64 (m.length / 64) m).foldl shaBlock shaStart).flatMap (beBytes 4)

end Sys2Proof.Machine
end

