-- ==== Sys2Proof/Machine/Ops.lean ====
section
/-!
DEFINITION. The operations every family shares: access to the parts of the state, MB7 records, unit records, modes,
cold and warm resets and failed starts.
-/

namespace Sys2Proof.Machine

abbrev Result := Host.Outcome State Fault Refusal

/-! ### Parts of the state -/

def State.modRst (f : Rst → Rst) (s : State) : State := { s with rst := f s.rst }
def State.modGlb (f : Glb → Glb) (s : State) : State := { s with glb := f s.glb }
def State.modSch (f : Sch → Sch) (s : State) : State := { s with sch := f s.sch }
def State.modPnd (f : Pnd → Pnd) (s : State) : State := { s with pnd := f s.pnd }
def State.modDp (f : Dp → Dp) (s : State) : State := { s with dp := f s.dp }
def State.modEng (f : Eng → Eng) (s : State) : State := { s with eng := f s.eng }
def State.modKey (f : Key → Key) (s : State) : State := { s with key := f s.key }
def State.modTim (f : Tim → Tim) (s : State) : State := { s with tim := f s.tim }
def State.modTwin (f : Twin → Twin) (s : State) : State := { s with twin := f s.twin }
def State.modMbx (f : Mbx → Mbx) (s : State) : State := { s with mbx := f s.mbx }
def State.modCps (f : Cps → Cps) (s : State) : State := { s with cps := f s.cps }
def State.modBus (f : Bus → Bus) (s : State) : State := { s with bus := f s.bus }
def State.modMem (f : Mem → Mem) (s : State) : State := { s with mem := f s.mem }
def State.modPwr (f : Pwr → Pwr) (s : State) : State := { s with pwr := f s.pwr }
def State.modPerf (f : Perf → Perf) (s : State) : State := { s with perf := f s.perf }
def State.modPert (f : Pert → Pert) (s : State) : State := { s with pert := f s.pert }

def State.cfn (s : State) : Cfn := s.glb.cfn

/-- The frame count that timers use: it runs on where a twin takes over its partner's CFN (log entry 23). -/
def State.tick (s : State) : Cfn := s.glb.tick

def State.lane (s : State) (n : Nat) : Lane := tget {} s.lanes n
def State.modLane (n : Nat) (f : Lane → Lane) (s : State) : State := { s with lanes := tmod {} s.lanes n f }

def State.grp (s : State) (g : Nat) : Option Grp := tfind s.grps g
def State.modGrp (g : Nat) (f : Grp → Grp) (s : State) : State := { s with grps := tupd s.grps g f }

/-- The pond's reset record: home ponds start in use, spares idle (R132). -/
def pond0 (n : Nat) : Pond := if n < 128 then { role := 0, logical := n } else { role := 2, logical := 0 }

def State.pond (s : State) (n : Nat) : Pond := tget (pond0 n) s.pnd.ponds n
def Pnd.modPond (n : Nat) (f : Pond → Pond) (p : Pnd) : Pnd := { p with ponds := tmod (pond0 n) p.ponds n f }
def State.modPond (n : Nat) (f : Pond → Pond) (s : State) : State := s.modPnd (Pnd.modPond n f)

def Mbx.box (m : Mbx) (n : Nat) : Mb := tget {} m.boxes n
def Mbx.modBox (n : Nat) (f : Mb → Mb) (m : Mbx) : Mbx := { m with boxes := tmod {} m.boxes n f }
def State.box (s : State) (n : Nat) : Mb := s.mbx.box n
def State.modBox (n : Nat) (f : Mb → Mb) (s : State) : State := s.modMbx (Mbx.modBox n f)

/-- One of the three physical banks (R135). -/
def Sch.bank (c : Sch) (b : Nat) : Bank := if b = 0 then c.bank0 else if b = 1 then c.bank1 else c.bank2
def Sch.modBank (b : Nat) (f : Bank → Bank) (c : Sch) : Sch :=
  if b = 0 then { c with bank0 := f c.bank0 } else if b = 1 then { c with bank1 := f c.bank1 } else { c with bank2 := f c.bank2 }
def State.presentBank (s : State) : Bank := s.sch.bank s.sch.present
def State.futureBank (s : State) : Bank := s.sch.bank s.sch.future
def State.pastBank (s : State) : Bank := s.sch.bank s.sch.past

def State.memRun (s : State) (m : Nat) : MemRun := tget {} s.mem.mems m
def State.modMemRun (m : Nat) (f : MemRun → MemRun) (s : State) : State := s.modMem fun x => { x with mems := tmod {} x.mems m f }

/-- A memory's correctable or uncorrectable error counts (R373). -/
def MemRun.note (one : Bool) (r : MemRun) : MemRun := if one then { r with ce := satAdd r.ce 1 } else { r with ue := satAdd r.ue 1 }

/-- The tables of a bank other than its map become undefined, under draw `u` (R142, R379). -/
def Bank.undefTables (u : Nat) (b : Bank) : Bank :=
  { Config.undefTables u with
    id := b.id, useMask := b.useMask, cmap := b.cmap, mapBad := b.mapBad, dead := b.dead, tblBad := [], undef := b.undef, written := b.written }

/-- The map of a bank becomes undefined. -/
def Bank.undefMap (u : Nat) (b : Bank) : Bank := { b with cmap := [], mapBad := [], dead := [], undef := some u, written := [] }

/-! ### Free values -/

/-- A fresh value of `w` bits that the spec leaves open, and the counter moved on. -/
def State.draw (w : Nat) (s : State) : BitVec w × State := (Config.freeValue w s.drawn, { s with drawn := s.drawn + 1 })

/-! ### Codes (R21, R406, R441) -/

def Mode.code : Mode → Nat
  | .shallows => 1 | .bringUp => 2 | .provisioning => 3 | .service => 4 | .degraded => 5 | .mateFollow => 6
  | .hold => 7 | .decommission => 8

def LcState.code : LcState → Nat
  | .blank => 0 | .provisioned => 1 | .operational => 2 | .fieldReturn => 3 | .decommissioned => 4

def UnitState.code : UnitState → Nat
  | .active => 0 | .ready => 1 | .resync => 2 | .isolated => 3 | .retired => 4

def TwinRole.code : TwinRole → Nat
  | .solo => 0 | .joining => 1 | .leader => 2 | .follower => 3 | .standbyAlone => 4 | .activeAlone => 5

def LaneState.code : LaneState → Nat
  | .off => 0 | .waitSignal => 1 | .adapt => 2 | .hunt => 3 | .locked => 4 | .retired => 5

def LaneRole.code : LaneRole → Nat
  | .off => 0 | .line => 1 | .stitch => 2

/-- The modes with a running core: from `Provisioning` onward (R21, R393). -/
def Mode.running : Mode → Bool
  | .provisioning | .service | .degraded | .mateFollow | .hold => true
  | _ => false

/-- The core runs: released, and its clock not stopped by a JTAG scan (R413). -/
def State.coreRuns (s : State) : Bool := s.glb.released && !s.rst.scanDirty

/-- What happens in an island that a JTAG scan stopped: nothing (R413). -/
def State.ifRuns (f : State → State) (s : State) : State := if s.rst.scanDirty then s else f s

/-- A mode in which the data path runs (R21). -/
def State.traffic (s : State) : Bool := s.coreRuns && s.glb.mode != .hold && s.glb.mode.running

/-! ### Interrupt summary (R359) -/

/-- Set sticky bit `b` of `GLB.INT_SUMMARY`, 27 down to 21. -/
def State.raise (b : Nat) (s : State) : State := s.modGlb fun g => { g with intSticky := setBit g.intSticky b true }

/-! ### MB7 records (R331, R340, R342, R343) -/

def cfnBytes (c : Cfn) : List Byte := leBytes 8 c.toNat

/-- The 48-byte body: CFN, the byte at +6, and the content from +8. -/
def recBody (c : Cfn) (b6 : Nat) (content : List Byte) : List Byte :=
  leBytes 6 c.toNat ++ [BitVec.ofNat 8 b6, 0] ++ padTo 40 (content.take 40)

/-- Add records to the journal. -/
def Mbx.note (l : List JRec) (m : Mbx) : Mbx := { m with journal := m.journal ++ l }

/-- Write a record into the ring, or drop it where the ring is full (R343); a record written goes into the journal (R329). -/
def Mbx.put (journals : Bool) (r : EvRec) (m : Mbx) : Mbx :=
  if (m.prod - m.cons).toNat = 64 then { m with drop := satAdd m.drop 1 }
  else
    let r' := if r.flags.getLsbD 31 then r else { r with seq := m.prod }
    { m with
      ring := tins m.ring (m.prod.toNat % 64) r', prod := m.prod + 1, journal := if journals then m.journal ++ [.record r'] else m.journal }

/-- A record from hardware: into the ring while the active CP serves and no older one waits, else into the queue of 256 entries (R331). -/
def Mbx.post (pausing journals : Bool) (r : EvRec) (m : Mbx) : Mbx :=
  if !pausing && m.queue.isEmpty then m.put journals r
  else if m.queue.length < 256 then { m with queue := m.queue ++ [r] } else { m with drop := satAdd m.drop 1 }

/-- The active CP writes mailbox responses and MB7 records: it serves and is not halted through JTAG (R328, R413). -/
def State.cpServes (s : State) : Bool :=
  s.mbx.serving && !s.rst.cpHalted.getLsbD (b2n s.cps.active) && !s.rst.scanDirty

/-- The active CP keeps a journal: a standby is there to apply it. With the standby retired none is kept (DESIGN CHOICE, log entry 41). -/
def State.journals (s : State) : Bool := (if s.cps.active then s.cps.cpA else s.cps.cpB).state != .retired

/-- Add records to the journal (R329). -/
def State.note (l : List JRec) (s : State) : State := s.modMbx fun m => if s.journals then m.note l else m

/-- Post a record; in `Shallows` nothing is posted, and in `Decommission` nothing after its MODE_CHG (R26, R348, R349). -/
def State.post (r : EvRec) (s : State) : State :=
  s.modMbx fun m =>
    if s.glb.mode = .shallows || s.rst.phase = .decommission then m else m.post (s.rst.phase = .started && !s.cpServes) s.journals r

/-- The CFN a record carries: 0 where the CFN does not run (R26, R342). -/
def State.recCfn (s : State) : Cfn := if s.glb.released then s.glb.cfn else 0

/-- Post event `code` (R342, R344). -/
def State.event (code b6 : Nat) (content : List Byte) (s : State) : State :=
  s.post ⟨BitVec.ofNat 16 code, 0, 0, 0, recBody s.recCfn b6 content⟩

/-- Post the completion of an ACCEPTED command, the last of its steps: its origin, code, status, the body's CFN, byte +6 and content. -/
def State.completeAt (cfn : Cfn) (o : Nat × W16) (code status b6 : Nat) (content : List Byte) (s : State) : State :=
  (s.note [.step (BitVec.ofNat 16 code) o status]).post ⟨BitVec.ofNat 16 code, o.2, BitVec.ofNat 32 (0x8000_0000 + o.1), BitVec.ofNat 32 status, recBody cfn b6 content⟩

def State.complete (o : Nat × W16) (code status b6 : Nat) (content : List Byte) (s : State) : State :=
  s.completeAt s.recCfn o code status b6 content

/-! ### Unit records (R439, R440) -/

/-- Write a unit record of 16 bytes into the ring of 64 and post UNIT_RECORD. -/
def State.unitRecord (cls kind unit cause events cover : Nat) (s : State) : State :=
  let r : List Byte := [BitVec.ofNat 8 cls, BitVec.ofNat 8 kind] ++ leBytes 2 unit ++
    [BitVec.ofNat 8 cause, BitVec.ofNat 8 events] ++ leBytes 2 cover ++ cfnBytes s.recCfn
  (s.modCps fun c => { c with records := (r :: c.records).take 64, recTotal := c.recTotal + 1 }).event 0x4105 kind r

/-! ### Modes (R23, R26, R414) -/

/-- The power state a mode runs in (R21, R414): `p` is the state of the traffic modes, P0 or P1. -/
def Mode.power (m : Mode) (p : BitVec 2) : BitVec 2 :=
  match m with
  | .hold => 2
  | .shallows | .decommission => 3
  | .bringUp => 0
  | _ => if p = 1 then 1 else 0

/-- Change the mode: MODE_CHG in the interrupt summary and the event of R26. At most one change takes effect in a frame (R24). -/
def State.setMode (m : Mode) (trigger : Nat) (s : State) : State :=
  let old := s.glb.mode
  ((s.modGlb fun g => { g with mode := m, power := m.power g.power, modeAt := some g.tick }).raise 23).event 0x4101 m.code
    [BitVec.ofNat 8 old.code, Config.modeTrigger trigger]

/-- Keep a trigger for the next boundary (R24). -/
def State.trigger (t : ModeTrigger) (s : State) : State :=
  s.modGlb fun g => { g with triggers := addNew g.triggers t }

/-! ### Life cycle (R407) -/

/-- A state bit of three fuses read by majority, in either copy. -/
def fuseBit (f : FuseCopy → BitVec 3) (a b : FuseCopy) : Bool := popc 3 (f a).toNat ≥ 2 || popc 3 (f b).toNat ≥ 2

/-- The life-cycle state the fuses hold: the highest state bit set in either copy. -/
def lcOf (a b : FuseCopy) : LcState :=
  if fuseBit FuseCopy.bitD a b then .decommissioned
  else if fuseBit FuseCopy.bitF a b then .fieldReturn
  else if fuseBit FuseCopy.bitO a b then .operational
  else if fuseBit FuseCopy.bitP a b then .provisioned
  else .blank

/-! ### Resets (R385-R387, R404) -/

/-- Keep `b` through a warm reset; `a` is the reset value. -/
def keep {α : Type} (cold : Bool) (a b : α) : α := if cold then a else b

def Rst.reset (cold : Bool) (src : Nat) (old : Mode) (r : Rst) : Rst :=
  { r with
    phase := .inReset, coldKind := cold, lastSrc := src, bootOkSeen := false, marchOk := false
    fromMode := if r.phase = .inReset && r.fromMode.isSome then r.fromMode else some old
    inReset := 0, pend := 0, sticky := keep cold 0 (r.sticky &&& 0x1C), funcSel := 0, critInfo := keep cold 0 r.critInfo
    ioHold := true, ioRelease := false, weirLog := keep cold [] r.weirLog, weirCount := keep cold 0 r.weirCount
    shadowOk := keep cold false r.shadowOk, kek := keep cold none r.kek
    lc := if r.lcPend.isNone then r.lc else lcOf r.fuse0 r.fuse1
    lcPend := none, dbgLevel := 0, nonce := none, devReset := none, funcAnswer := [], recoverSlot := none
    scanDirty := keep cold false r.scanDirty, cpHalted := 0, stale := [] }

def Glb.reset (cold : Bool) (g : Glb) : Glb :=
  { ppsCtrl := keep cold 0x400 g.ppsCtrl, msixMask := keep cold true g.msixMask, bme := keep cold false g.bme, mse := keep cold false g.mse
    bars := keep cold [] g.bars
    pf1Mask := keep cold true g.pf1Mask, msixTab := keep cold [] g.msixTab
    msixSent := g.msixSent, pf1Sent := g.pf1Sent, ppsErr := g.ppsErr }

/-- A retired member stays retired through a warm reset (R433); timing units keep running through it (R385). -/
def Cps.reset (cold : Bool) (c : Cps) : Cps :=
  let retA := !cold && c.cpA.state = .retired
  let retB := !cold && c.cpB.state = .retired
  { active := retA
    cpA := if retA then { c.cpA with fresh := false } else { state := .active }
    cpB := if retB then { c.cpB with fresh := false } else { state := if retA then .active else .ready }
    tuA := keep cold { state := .active } { c.tuA with since := 0, fresh := false, window := c.tuA.window.map fun _ => 0 }
    tuB := keep cold { state := .resync } { c.tuB with since := 0, fresh := false, window := c.tuB.window.map fun _ => 0 }
    bootPtr0 := c.bootPtr0, bootPtr1 := c.bootPtr1, bootCrc0 := c.bootCrc0, bootCrc1 := c.bootCrc1, slot0 := c.slot0, slot1 := c.slot1, running := c.running
    version := c.version, jVersion := c.jVersion
    records := keep cold [] c.records, recTotal := keep cold 0 c.recTotal }

/-- The timing units run on through a warm reset; elapsed times are not kept, because the CFN starts again (R297). CLKOUT and FSYNC_OUT
go low until TIM_CFG enables them (R300, R404). -/
def Tim.rebase (t : Tim) : Tim :=
  { t with since := 0, lockedAt := 0, lastSwap := 0, cfgPend := [], candPend := [], swapPend := false
           clkout := 0, fsyncMode := 0, fsyncOut := false
           undo := none, endDue := false, limitDue := false, pairs := [], cmpAt := none, ests := [], phaseRun := 0
           cands := tmap (fun _ (c : Cand) => { c with since := 0, qlAt := c.qlAt.map fun _ => 0, agree := c.agree.map fun _ => 0 }) t.cands }

def Key.reset (cold : Bool) (k : Key) : Key :=
  { tamperSet := keep cold [] k.tamperSet, tamperSrc := keep cold 0 k.tamperSrc, tamperEvt := keep cold false k.tamperEvt
    tamperCfg := keep cold 0xF k.tamperCfg, wipeBad := keep cold false k.wipeBad }

def Pwr.reset (cold : Bool) (p : Pwr) : Pwr :=
  { avsPec := keep cold true p.avsPec, avsAddr := keep cold 0x40 p.avsAddr, cmdMv := keep cold 0x2D0 p.cmdMv
    temps := tmap (fun _ t => (false, t.2)) p.temps }

/-- A decommissioned device passes through no other mode (R23). -/
def Glb.stayDecommissioned (old g : Glb) : Glb := if old.mode = .decommission then { g with mode := .decommission, power := 3 } else g

/-- What R385 clears and keeps in a cold or warm reset of source `src`. What the host's memory holds stays. -/
def State.clearAll (cold : Bool) (src : Nat) (s : State) : State :=
  let cold' := cold || (s.rst.phase = .inReset && s.rst.coldKind)
  { rst := s.rst.reset cold' src s.glb.mode
    glb := s.glb.stayDecommissioned (s.glb.reset cold')
    eng := { records := s.eng.records, ucodeId := s.eng.ucodeId, istore := s.eng.istore }
    key := s.key.reset cold'
    tim := keep cold' {} s.tim.rebase
    cps := s.cps.reset cold'
    pwr := s.pwr.reset cold'
    drawn := s.drawn
    pending := s.pending }

/-- A transition that was burned and waited for its boundary holds from the reset on (R407): the detectors and LC_CHANGE follow it; the
rest of R409 the reset itself does. The record goes into the ring that the reset empties (DEDUCED, log entry 40). -/
def State.lcAtReset (due : Bool) (old : LcState) (s : State) : State :=
  { s with
    mbx := if due then (s.event 0x4103 s.rst.lc.code [BitVec.ofNat 8 old.code]).mbx else s.mbx
    key := if due && (s.rst.lc = .operational || s.rst.lc = .decommissioned) then { s.key with tamperCfg := 0xF } else s.key }

/-- Assert a cold or warm reset of source `src` (R385-R387). -/
def State.assertReset (cold : Bool) (src : Nat) (s : State) : State :=
  (s.clearAll cold src).lcAtReset s.rst.lcPend.isSome s.rst.lc

/-! ### Failed starts (R392-R394) -/

/-- The functions held in reset in `Shallows` and `Decommission`: all but the PFs, MB0, CP-A, the debug port, and the
QSPI, PMBus and GPIO blocks of the AO island (R394, R414). -/
def p3Reset : BitVec 64 := BitVec.ofNat 64 (maskOf ([1, 4, 5, 15, 16, 17, 18, 19, 20, 21, 22, 23, 43] ++ (List.range 16).map (· + 24)))

/-- A mailbox that reads CLOSED opens. -/
def Mb.unclose (b : Mb) : Mb := if b.state = .closed then { b with state := .idle } else b

/-- Close every mailbox that the P3 modes do not serve; MB0 serves, with the command it may hold (R337, R348, R349). -/
def Mbx.p3 (m : Mbx) : Mbx :=
  { m with boxes := [(0, (m.box 0).unclose)], serving := true, waiting := m.waiting.filter (·.req.mb = 0), queue := [], journal := [] }

/-- CP-A alone runs in P3, with CP-B in reset; the timing units are held in reset too (R328, R394, R414). A retired member stays retired
(R433). -/
def Cps.p3 (c : Cps) : Cps :=
  let hold (st : UnitState) (u : UnitRun) : UnitRun := if u.state = .retired then u else { u with state := st }
  { c with
    active := false, cpA := hold .active c.cpA, cpB := hold .resync c.cpB, tuA := hold .active c.tuA, tuB := hold .resync c.tuB
    update := none, updated := false, checkpoint := false }

/-- What P3 holds in reset or powers down loses what it held, and operations that run there end without completion (R348, R394, R414): the
AO, PCIe and CP islands go on. The AVS loop stops (R419). -/
def State.p3Islands (s : State) : State :=
  { s with
    lanes := tmap (fun _ (l : Lane) => ({ phyCfg := l.phyCfg, phyTx := l.phyTx } : Lane)) s.lanes
    grps := [], sch := {}, pnd := {}, dp := {}, eng := { records := s.eng.records, ucodeId := s.eng.ucodeId }, prot := []
    key := s.key.reset false, tim := {}, twin := {}, perf := {}, pert := {}, mem := { s.mem with marches := [] }, cps := s.cps.p3, pwr := { s.pwr with avsOn := false } }

/-- Enter `Shallows` (R394). -/
def State.enterShallows (s : State) : State :=
  let s := s.p3Islands.setMode .shallows 9
  (s.modRst fun r => { r with phase := .shallows, inReset := p3Reset, fromMode := none }).modMbx Mbx.p3

/-- Enter `Decommission`: terminal (R23, R410). -/
def State.enterDecommission (s : State) : State :=
  let s := s.p3Islands.setMode .decommission 6
  ((s.modRst fun r => { r with phase := .decommission, inReset := p3Reset, fromMode := none, funcAnswer := [] }).modMbx Mbx.p3).modGlb
    fun g => { g with released := false }

/-- Count a failed start: the count rises to at most 3 (R392). -/
def Rst.fail (cause : Nat) (r : Rst) : Rst := { r with count := min 3 (r.count + 1), failCause := cause }

/-- A start fails: a warm reset of source 5, or `Shallows` at the third (R393). -/
def State.startFail (cause : Nat) (s : State) : State :=
  let s := s.modRst (Rst.fail cause)
  if s.rst.count = 3 then s.enterShallows else s.assertReset false 5

/-- BRING_UP of R393: the fuses are loaded and BOOT_OK is not written. -/
def State.starting (s : State) : Bool :=
  match s.rst.phase with
  | .march | .romBoot | .nganas => true
  | _ => false

/-- A reset that the device takes for a fault of its own. Before BOOT_OK it fails the start with FAIL_CAUSE 7, and the start begins
again through a warm reset of source 0x5 (R23, R392, R393). During the fuse load, from which R393 has no transition to a warm reset of
source 0x5 or to `Shallows`, the failure is counted and the reset keeps its own source (DEDUCED, log entry 8). -/
def State.faultReset (cold : Bool) (src : Nat) (s : State) : State :=
  if s.starting then s.startFail 7
  else if s.rst.phase = .fuseLoad then (s.modRst (Rst.fail 7)).assertReset cold src
  else s.assertReset cold src

/-! ### Redundancy (R23, R437) -/

def Cps.unit (c : Cps) (pair unit : Nat) : UnitRun :=
  if pair = 0 then (if unit = 0 then c.tuA else c.tuB) else (if unit = 0 then c.cpA else c.cpB)

def Cps.modUnit (pair unit : Nat) (f : UnitRun → UnitRun) (c : Cps) : Cps :=
  if pair = 0 then (if unit = 0 then { c with tuA := f c.tuA } else { c with tuB := f c.tuB })
  else (if unit = 0 then { c with cpA := f c.cpA } else { c with cpB := f c.cpB })

/-- A member that stands as cover, or serves. -/
def UnitRun.fine (u : UnitRun) : Bool := u.state = .active || u.state = .ready

/-- Some redundancy is lost (R23). -/
def State.redundancyLost (s : State) : Bool :=
  !s.cps.tuA.fine || !s.cps.tuB.fine || !s.cps.cpA.fine || !s.cps.cpB.fine || s.rst.cpHalted.getLsbD (b2n (!s.cps.active)) ||
  s.eng.engs.any (fun e => e.2.state != .inService) || s.key.pipes.any (fun p => p.2.state != 0) ||
  s.glb.quadFail != 0 || s.mem.worn || s.pnd.map.any (fun e => e.2 ≥ 128) || s.pnd.ponds.any (fun p => p.2.retired) ||
  !s.pnd.unusable.isEmpty

/-! ### Functions and islands (R356, R396) -/

/-- A function is in reset or its reset is pending. -/
def State.inReset (s : State) (f : Nat) : Bool := s.rst.inReset.getLsbD f || s.rst.pend.getLsbD f

/-- The islands released at step 7 of R389 are not yet released, or run no more. -/
def State.coreDown (s : State) : Bool := s.rst.phase != .started

/-- The CP island is released at the end of the Bring-up march, step 6 of R389. -/
def State.cpDown (s : State) : Bool := s.rst.phase = .inReset || s.rst.phase = .fuseLoad || s.rst.phase = .march

/-- After a cold reset the TU islands are released once the fuses are loaded, step 3 of R389; a warm reset keeps them running (R385). -/
def State.tuDown (s : State) : Bool := (s.rst.phase = .inReset || s.rst.phase = .fuseLoad) && s.rst.coldKind

/-- No access is served while a cold reset is held: it resets the PCIe link, which a warm reset keeps (R385). -/
def State.held (s : State) : Bool := s.rst.phase = .inReset && s.rst.coldKind

end Sys2Proof.Machine
end

