-- ==== Sys2Proof/Machine/Flags.lean ====
section
/-!
DEFINITION. The interrupt summary and its outputs, and the event counters: every flag that is computed from others.
-/

namespace Sys2Proof.Machine

/-- MB7 holds an unread record, or a mailbox is DONE, with its interrupt enabled (R359, R340). -/
def Mbx.interrupt (m : Mbx) : Bool :=
  (m.prod != m.cons && (m.box 7).intEn) ||
  (List.range 7).any fun n => (m.box n).state = .done && (m.box n).intEn && !(m.box n).noInt

/-- `PERF`: an OVF bit whose IRQ_EN is 1 (R446). -/
def Perf.interrupt (p : Perf) : Bool :=
  p.ovf.any fun e => (ones 32 e.2.toNat).any fun b => (tget 0 p.cfg (32 * e.1 + b)).getLsbD 31

def State.timInterrupt (s : State) : Bool :=
  s.tim.sticky != 0 || s.glb.ppsSticky != 0 || s.tim.cands.any (fun c => c.2.sticky != 0) || s.tim.faultA || s.tim.faultB

def State.groupInterrupt (s : State) : Bool :=
  s.grps.any (fun g => g.2.sticky != 0 || g.2.conjSticky != 0) || s.lanes.any fun l => l.2.sticky != 0 || l.2.stSticky != 0

/-- `GLB.INT_SUMMARY` as read (R359). On the SLG9128-N a tamper wipe sets the key store's sticky bit all the same, so CIPHER reads 1 while
the key desk reads 0: the spec does not say (R1, R2; DESIGN CHOICE, log entry 42). -/
def State.intSummary (s : State) : W32 :=
  (BitVec.setWidth 32 s.glb.quadFail <<< 28) ||| s.glb.intSticky |||
  BitVec.ofNat 32 (b2n (s.rst.sticky != 0) * 2 ^ 12 + b2n (s.pwr.sticky != 0 || s.key.tamperEvt) * 2 ^ 11 +
    b2n s.perf.interrupt * 2 ^ 10 + b2n (s.key.sticky != 0) * 2 ^ 9 + b2n s.timInterrupt * 2 ^ 8 +
    b2n s.groupInterrupt * 2 ^ 7 + b2n (s.sch.sticky >>> 1 != 0) * 2 ^ 6 + b2n s.mbx.interrupt * 2 ^ 5)

/-- `A` of R360 is non-zero. -/
def State.intA (s : State) : Bool := ((s.intSummary &&& s.glb.intEnable) >>> 5) != 0

/-- INT_N is driven low (R360). -/
def State.intN (s : State) : Bool := s.intA && s.glb.intEnable.getLsbD 0

/-- Send PF0's MSI-X message, or hold it where the vector is masked (R360). -/
def Glb.sendMsix (g : Glb) : Glb := if g.msixMask then { g with msixHeld := true } else { g with msixSent := g.msixSent + 1 }

/-- Send PF1's MSI-X message, or hold it where the vector is masked (R360). -/
def Glb.sendPf1 (g : Glb) : Glb := if g.pf1Mask then { g with pf1Held := true } else { g with pf1Sent := g.pf1Sent + 1 }

/-- Let the interrupt outputs follow the state: a message goes out when `A` changes from 0 to non-zero (R360). -/
def State.settle (s : State) : State :=
  let a := s.intA
  s.modGlb fun g => { (if a && !g.aPrev then g.sendMsix else g) with aPrev := a }

/-- How every meaning ends: the next state, with the interrupt outputs following it. -/
def done (s : State) : Result := .next s.settle

/-- Count `n` increments of event counter `i` (R442, R446): the counter wraps, and a crossing of a multiple of the
interval or of the wrap sets the counter's OVF bit. -/
def Perf.count (i n : Nat) (p : Perf) : Perf :=
  if p.frozen || n = 0 then p else
  let old := (tget 0 p.cnt i).toNat
  let c := (tget 0 p.cfg i).toNat
  let iv := fld c 0 24 * 2 ^ min 47 (fld c 24 6)
  let cross := old + n ≥ 2 ^ 48 || (fld c 0 24 != 0 && (old + n) / iv != old / iv)
  { p with
    cnt := tput 0 p.cnt i (BitVec.ofNat 48 (old + n))
    ovf := if cross then tmod 0 p.ovf (i / 32) (fun w => setBit w (i % 32) true) else p.ovf }

def State.count (i n : Nat) (s : State) : State := s.modPerf (Perf.count i n)

/-- Set a weir event, log full, parity, refusal or pending bit of `RST.STAT`: 4 WEIR_EVT down to 0 PEND_EVT (R402). -/
def State.rstSticky (b : Nat) (s : State) : State := s.modRst fun r => { r with sticky := setBit r.sticky b true }

/-- Set a sticky bit of `SCH.STAT`: 7 COMMITTED, 6 DEFERRED, 5 ROLLED_BACK, 4 CHK_DONE, 3 CHK_FAIL, 2 FUT_WR_REJECT,
1 LOAD_REJECT, 0 DOMAIN_SPLIT (R162). -/
def Sch.flag (b : Nat) (c : Sch) : Sch := { c with sticky := setBit c.sticky b true }

/-- Set a sticky bit of `KEY.DESK_STAT`: 5 LOCK_REFUSED, 4 TAMPER_WIPE, 3 REKEY_DUE, 2 LIMIT_HIT, 1 AUTH_FAIL,
0 PIPE_FAULT (R275). -/
def Key.flag (b : Nat) (k : Key) : Key := { k with sticky := setBit k.sticky b true }

/-- Set a sticky bit of `LANE.STAT`: 5 LOS, 4 LOF, 3 LOM, 2 BURST, 1 AMBIG, 0 ADAPT_FAIL (R66). -/
def Lane.flag (b : Nat) (l : Lane) : Lane := { l with sticky := setBit l.sticky b true }

/-- Set a sticky bit of `LANE.STITCH_STAT`: 3 LATE, 2 CFN_MISMATCH, 1 UCW, 0 TOKEN_ERR (R327). -/
def Lane.stFlag (b : Nat) (l : Lane) : Lane := { l with stSticky := setBit l.stSticky b true }

/-- Set a sticky bit of `GRP.STAT`: 4 LOL, 3 GIDM, 2 PMM, 1 RETIRE_EVT, 0 SLICE_LOSS (R67). -/
def Grp.flag (b : Nat) (g : Grp) : Grp := { g with sticky := setBit g.sticky b true }

/-- Set a sticky bit of `GRP.CONJ`: 5 NOTICE_LIMITED, 4 NOTICE_ABSENT, 3 SLICE_SHORT, 2 RANK0_HIT, 1 OVERFILL,
0 PIN_IGNORED (R204). -/
def Grp.conjFlag (b : Nat) (g : Grp) : Grp := { g with conjSticky := setBit g.conjSticky b true }

/-- Set a sticky bit of `TIM.STAT`: 6 SWAP, 5 DISPUTE, 4 QL_CHG, 3 FREERUN_ENTRY, 2 HOLDOVER_ENTRY, 1 REF_SWITCH,
0 LOCK_LOSS (R306). -/
def Tim.flag (b : Nat) (t : Tim) : Tim := { t with sticky := setBit t.sticky b true }

/-- Set a sticky bit of `PWR.STAT`: 5 THERM_WARN, 4 THERM_TRIP, 3 SENSOR_FAULT, 2 AVS_FAIL, 1 RAIL_FAULT, 0 AVS_LIMIT
(R425). -/
def Pwr.flag (b : Nat) (p : Pwr) : Pwr := { p with sticky := setBit p.sticky b true }

/-- Set a sticky bit of `POND.STAT`: 3 MARCH_FAIL, 2 UE, 1 CE, 0 MAINT_COLL; `GLB.INT_SUMMARY.SWITCH` follows when the
bit becomes 1 (R132, R359). -/
def State.pondFlag (n b : Nat) (s : State) : State :=
  if (s.pond n).sticky.getLsbD b then s
  else (s.modPond n fun p => { p with sticky := setBit p.sticky b true }).raise 22

/-! ### Access errors (R355, R356) -/

/-- Record an access under R356: cause 0 island gated, 1 function in reset, 2 weir error, 3 no alias member reachable. The
first error stays until ACC_ERR is cleared. -/
def State.accErr (addr : Nat) (write : Bool) (cause : Nat) (s : State) : State :=
  if s.glb.intSticky.getLsbD 27 then s
  else (s.modGlb fun g => { g with
    accErrAddr := BitVec.ofNat 28 addr, accErrInfo := BitVec.ofNat 32 (b2n write * 2 ^ 31 + cause % 4 * 2 ^ 29) }).raise 27

/-! ### Bus errors (R362, R364) -/

/-- Master index (R362). -/
def busIndex : BusMaster → Nat
  | .cpA => 0 | .cpB => 1 | .dmaS => 2 | .dmaP => 3 | .pcie => 4 | .debug => 5 | .eg0 => 6 | .eg1 => 7 | .eg2 => 8 | .eg3 => 9

/-- Record a decode error; the first stays until VALID is cleared (R364). -/
def State.decodeError (m : BusMaster) (write : Bool) (target : Nat) (addr : W64) (s : State) : State :=
  if s.bus.errInfo.getLsbD 31 then s
  else s.modBus fun b => { b with
    errInfo := BitVec.ofNat 32 (2 ^ 31 + b2n write * 2 ^ 30 + target % 16 * 16 + busIndex m), errAddr := addr }

end Sys2Proof.Machine
end

