-- ==== Sys2Proof/Machine/Operands.lean ====
section
/-!
DEFINITION. Operand forms: the fields of a mailbox request, the checks of R341, and answers.
-/

namespace Sys2Proof

open Sys2Proof.Machine

/-- The request's payload as the device sees it: LENGTH bytes, missing ones 0. -/
def MbReq.data (r : MbReq) : List Byte := padTo r.length.toNat (r.payload.take r.length.toNat)

/-- The payload field of `n` bytes at `+o`; beyond LENGTH it reads 0 (R341). -/
def MbReq.fld (r : MbReq) (o n : Nat) : Nat := leAt ((r.payload.take r.length.toNat)) o n
def MbReq.u8 (r : MbReq) (o : Nat) : Nat := r.fld o 1
def MbReq.u16 (r : MbReq) (o : Nat) : Nat := r.fld o 2
def MbReq.u32 (r : MbReq) (o : Nat) : Nat := r.fld o 4
def MbReq.u64 (r : MbReq) (o : Nat) : Nat := r.fld o 8
def MbReq.s32 (r : MbReq) (o : Nat) : Int := ofS 32 (r.u32 o)
def MbReq.bytes (r : MbReq) (o n : Nat) : List Byte := padTo n (slice (r.payload.take r.length.toNat) o n)

/-- A CFN field: bits [63:48] must be 0 (R345). -/
def MbReq.cfn (r : MbReq) (o : Nat) : Cfn := BitVec.ofNat 48 (r.u64 o)
def MbReq.cfnOk (r : MbReq) (o : Nat) : Bool := r.u64 o < 2 ^ 48

/-- Every reserved gap (offset, bytes) holds zeros. -/
def MbReq.zero (r : MbReq) (gaps : List (Nat × Nat)) : Bool := gaps.all fun g => r.fld g.1 g.2 = 0

def MbReq.origin (r : MbReq) : Nat × W16 := (r.mb, r.seq)

end Sys2Proof

namespace Sys2Proof.Machine

/-- An answer: status and payload (R341). -/
structure Ans where
  status  : Nat
  payload : List Byte := []
  deriving DecidableEq, Repr

def Ans.ok : Ans := ⟨0, []⟩
def Ans.badCmd : Ans := ⟨0x8001, []⟩
def Ans.badLen : Ans := ⟨0x8002, []⟩
def Ans.badState : Ans := ⟨0x8003, []⟩
def Ans.noResource : Ans := ⟨0x8004, []⟩
def Ans.denied : Ans := ⟨0x8005, []⟩
def Ans.busy : Ans := ⟨0x8006, []⟩
def Ans.invalid : Ans := ⟨0x8007, []⟩
def Ans.timeout : Ans := ⟨0x8008, []⟩
def Ans.locked : Ans := ⟨0x800A, []⟩

/-- ACCEPTED carries the CFN of the frame in which the command was taken (R341). -/
def State.accepted (s : State) : Ans := ⟨1, cfnBytes s.recCfn⟩

/-- What R341 checks of a request before the command's own rules: a count's range, the length the command defines with
its counts taken as given, and the reserved fields and value ranges. -/
structure Form where
  count  : MbReq → Bool := fun _ => true
  len    : MbReq → Nat
  fields : MbReq → Bool := fun _ => true
  /-- A BAD_CMD of the command's own that depends on the object named. -/
  object : MbReq → State → Bool := fun _ _ => true

/-- A request of `n` bytes. -/
def Form.fixed (n : Nat) (fields : MbReq → Bool := fun _ => true) : Form := { len := fun _ => n, fields := fields }

/-- The BAD_CMD and BAD_LEN rows of R341, in their order. -/
def Form.check (f : Form) (r : MbReq) : Option Ans :=
  if r.length.toNat > 4080 then some .badLen
  else if !f.count r then some .badCmd
  else if r.length.toNat != f.len r then some .badLen
  else if !f.fields r || (r.flags >>> 1) != 0 || r.status != 0 then some .badCmd
  else none

/-- The family of a command code. -/
def codeFamily (code : Nat) : Nat := code / 256 % 16

/-- Which mailbox accepts which command (R335). -/
def mailboxTakes (mb code : Nat) : Bool :=
  if mb = 0 then codeFamily code != 8
  else if mb = 6 then codeFamily code = 8 || code = 0x0101
  else mb ≤ 5

/-- The codes the recovery ROM takes (R349). -/
def recoveryCodes : List Nat := [0x0101, 0x0C01, 0x0C02, 0x0C03, 0x0C05]

/-- The general row DENIED of R341: the mailbox, and the KEY family on the SLG9128-N (R1, R335). -/
def State.denies (s : State) (r : MbReq) (code : Nat) : Bool :=
  !mailboxTakes r.mb code || (codeFamily code = 8 && s.rst.variant = 2)

/-- Check a request and run the command on it (R341, R349). -/
def runForm (code : Nat) (f : Form) (body : MbReq → State → Ans × State) (r : MbReq) (s : State) : Ans × State :=
  if s.rst.phase = .shallows && !recoveryCodes.contains code then (.badState, s)
  else if s.rst.phase = .decommission && code != 0x0101 then (.badState, s)
  else match f.check r with
    | some a => (a, s)
    | none => if !f.object r s then (.badCmd, s) else if s.denies r code then (.denied, s) else body r s

/-- The 16 header bytes of a message (R340). -/
def msgHeader (code : Nat) (seq : W16) (len flags status : Nat) : List Byte :=
  leBytes 2 code ++ leBytes 2 seq.toNat ++ leBytes 4 len ++ leBytes 4 flags ++ leBytes 4 status

/-- The request buffer's bytes of a request. -/
def reqImage (code : Nat) (r : MbReq) : List Byte :=
  msgHeader code r.seq r.length.toNat r.flags.toNat r.status.toNat ++ r.payload.take 4080

/-- Write the response, set SEQ and set DONE (R337). -/
def State.answer (code : Nat) (r : MbReq) (a : Ans) (s : State) : State :=
  s.modBox r.mb fun b => { b with
    state := .done, seq := r.seq, noInt := r.flags.getLsbD 0
    resp := tover 0 0 (msgHeader code r.seq a.payload.length 0 a.status ++ a.payload) b.resp }

/-- The commands that set a descriptor, a configuration or an option: DEV_RED_CFG, DEV_GPIO_CFG, GRP_SET_OPTIONS, EP_CONFIG,
EP_HARVEST_CFG, TIM_CFG, TIM_CAND_CFG, TIM_SET_QL, PWR_GATE_UNUSED, DIAG_PERF_ACCESS, TWIN_CFG and DOM_CFG. -/
def settingCodes : List Nat := [0x0108, 0x010B, 0x0206, 0x0602, 0x0604, 0x0901, 0x0902, 0x0903, 0x0A04, 0x0B30, 0x0D04, 0x0D10]

/-- What the active CP journals of a command's effect (R329), in the state that the command leaves. -/
def State.journalOf (s : State) (code : Nat) (r : MbReq) (a : Ans) : List JRec :=
  let step := if a.status = 1 then [JRec.step (BitVec.ofNat 16 code) r.origin 1] else []
  step ++
    if 1 < a.status then []
    else if code = 0x0501 || code = 0x0502 then [.notice (r.u8 0) ((s.grp (r.u8 0)).bind (·.notice))]
    else if code = 0x0503 then [.binding r]
    else if code = 0x0801 then [.desk s.key.owner]
    else if settingCodes.contains code then [.setting (BitVec.ofNat 16 code) r]
    else []

/-- Run a command and journal its effect. -/
def State.runJournalled (code : Nat) (run : MbReq → State → Ans × State) (r : MbReq) (s : State) : Ans × State :=
  let p := run r s
  (p.1, p.2.note (p.2.journalOf code r p.1))

/-- Take a request from a doorbell and answer it in the same step (R337, R338). A DEV_RESET of kind 1 is answered after the
release (R403). -/
def State.exchange (code : Nat) (run : MbReq → State → Ans × State) (r : MbReq) (s : State) : State :=
  let p := s.runJournalled code run r
  if code = 0x0104 && p.2.rst.funcAnswer.any (fun a => (a.mb, a.seq) = r.origin) then p.2 else p.2.answer code r p.1

/-- A command that waited is taken: one whose mailbox was reset meanwhile runs without a response (R339). -/
def State.take (run : MbReq → State → Ans × State) (w : Waiting) (s : State) : State :=
  if w.drop then (s.runJournalled w.code.toNat run w.req).2 else s.exchange w.code.toNat run w.req

/-- The host writes a request into a mailbox's buffer (R336, R337): discarded with BUF_WR_REJECT while the mailbox is BUSY. -/
def Mb.fill (code : Nat) (r : MbReq) (b : Mb) : Mb :=
  if b.state = .busy then { b with reject := true } else { b with req := tover 0 0 (reqImage code r) b.req }

/-- The request is taken from the buffer: BUSY, counted, and in the journal (R329, R337, R443). -/
def State.rung (code : Nat) (r : MbReq) (s : State) : State :=
  ((s.modBox r.mb fun b => { b with state := .busy }).count (580 + r.mb) 1).note [.command (BitVec.ofNat 16 code) r]

/-- Units of 100 ns by which PERT.DOORBELL delays the taking of a mailbox's requests (R451). -/
def Pert.bellDelay (p : Pert) (mb : Nat) : Nat := if p.bell.getLsbD 31 && fld p.bell.toNat 24 3 = mb then fld p.bell.toNat 0 16 else 0

/-- A waiting command that is to be taken before any rung later (R338): all but those that PERT.DOORBELL still delays. -/
def Waiting.ripe (tick : Cfn) (w : Waiting) : Bool := w.due.all fun d => cfnGe tick d

/-- RING on a mailbox with request `r` in its buffer (R336, R337): ignored while BUSY or CLOSED and on MB7; taken into the queue of
waiting commands while no CP serves (R330), while PERT.DOORBELL delays it (R451), or behind a command rung earlier (R338); else
answered. -/
def State.ring (code : Nat) (run : MbReq → State → Ans × State) (r : MbReq) (s : State) : State :=
  if r.mb = 7 || (s.box r.mb).state = .busy || (s.box r.mb).state = .closed then s.modBox r.mb fun b => { b with ignored := true }
  else
    let delay := s.pert.bellDelay r.mb
    let s := s.rung code r
    if delay > 0 && s.glb.released then
      (s.modMbx fun m => { m with waiting := m.waiting ++ [⟨BitVec.ofNat 16 code, r,
        some (cfnAdd s.tick ((delay * 100 + 1023) / 1024)), [], false⟩] }).count 742 1
    else if s.cpServes && !(s.mbx.waiting.any (Waiting.ripe s.tick)) then s.exchange code run r
    else s.modMbx fun m => { m with waiting := m.waiting ++ [⟨BitVec.ofNat 16 code, r, none, [], false⟩] }

/-- A mailbox row: the host writes the request buffer and rings (R337). Both are discarded while the mailbox is in reset (R356), and while
the device is held in a cold reset. -/
def State.request (code : Nat) (run : MbReq → State → Ans × State) (r : MbReq) (s : State) : State :=
  if r.mb > 7 || s.held then s
  else if s.inReset (7 + r.mb) then s.accErr (0x10000 + 0x4000 * r.mb) true 1
  else (if r.mb = 7 then s else s.modBox r.mb (Mb.fill code r)).ring code run r

/-- The meaning of a mailbox row. -/
def mailboxRow (code : Nat) (f : Form) (body : MbReq → State → Ans × State) (r : MbReq) (s : State) : Result :=
  done (s.request code (runForm code f body) r)

end Sys2Proof.Machine
end

