-- ==== Sys2Proof/Machine/Start.lean ====
section
/-!
DEFINITION. Resets and the start sequence: power, reset sources, fuse load, boot, BOOT_OK and core release (chapter 17).
-/

namespace Sys2Proof.Machine

/-! ### Power and reset sources -/

/-- VDD_AO rises: a cold reset of source 0x0, and the start count and fail cause are 0 (R386, R402). -/
def execPowerOn (s : State) : Result :=
  done ((s.clearAll true 0).modRst fun r => { r with powered := true, coldKind := true, fromMode := none, count := 0, failCause := 0 })

/-- RESET_N low: a cold reset of source 0x1 (R386). -/
def execResetNAssert (s : State) : Result :=
  done (if s.rst.powered then s.assertReset true 1 else s)

/-- The rails go: what the chip holds is lost; fuses, flash and the VDDIO hold latch stay (R467, R405). -/
def execPowerDown (s : State) : Result :=
  let z : State := {}
  done { z with
    rst := { z.rst with
      powered := false, fuse0 := s.rst.fuse0, fuse1 := s.rst.fuse1, ioHold := true
      variant := s.rst.variant, uniqueId := s.rst.uniqueId, lc := lcOf s.rst.fuse0 s.rst.fuse1 }
    eng := { z.eng with records := s.eng.records }
    cps := { z.cps with
      bootPtr0 := s.cps.bootPtr0, bootPtr1 := s.cps.bootPtr1, bootCrc0 := s.cps.bootCrc0, bootCrc1 := s.cps.bootCrc1
      slot0 := s.cps.slot0, slot1 := s.cps.slot1 }
    drawn := s.drawn
    pending := s.pending }

/-- A write of `RST.CTRL`: it acts only with CONFIRM 0x6E6E, and COLD takes precedence (R402). -/
def State.rstCtrl (v : W32) (s : State) : State :=
  if fld v.toNat 16 16 != 0x6E6E || !s.rst.powered then s
  else if v.getLsbD 1 then s.assertReset true 2
  else if v.getLsbD 0 then s.assertReset false 4
  else s

/-- `RST.CTRL` with COLD, and with WARM. The reset block is reachable in every mode (R356). -/
def execHostColdReset (v : W32) (s : State) : Result := done (s.rstCtrl v)

def execHostWarmReset (v : W32) (s : State) : Result := done (s.rstCtrl v)

/-- The reset that a DEV_RESET of kind 2 or 3 or an FW_RECOVER_START (9) asked for starts, 1 ms after the response (R403,
R349). The slot to boot is kept. -/
def execDevResetStart (s : State) : Result :=
  done (match s.rst.devReset with
    | some 9 => (s.assertReset false 9).modRst fun r => { r with recoverSlot := s.rst.recoverSlot }
    | some 3 => s.assertReset true 2
    | some 2 => s.assertReset false 4
    | _ => s)

/-- A parity error in critical state: recorded, and the action of its unit (R395). -/
def execCritParityError (unit : Nat) (word : BitVec 28) (s : State) : Result :=
  let s := (s.modRst fun r => { r with critInfo := BitVec.ofNat 32 (unit % 16 * 2 ^ 28 + word.toNat) }).rstSticky 2
  done (if unit = 0 then (s.modRst fun r => { r with shadowOk := false }).faultReset true 3
    else if unit = 1 then s.modRst fun r => { r with count := 2 }
    else if unit ≤ 7 then s.faultReset false 6
    else s)

/-- A write of 1 to `RST.IO_CTRL.RELEASE` (R405). -/
def execIoHoldRelease (s : State) : Result :=
  done (s.modRst fun r => { r with ioHold := false, ioRelease := true })

/-! ### Release and fuse load -/

/-- Enter Bring-up: MODE_CHG where another mode was in force before the reset (R23, R26; log entry 7). -/
def State.enterBringUp (s : State) : State :=
  match s.rst.fromMode with
  | none | some .bringUp => s.modRst fun r => { r with fromMode := none }
  | some m => ((s.modGlb fun g => { g with mode := m }).setMode .bringUp 8).modRst fun r => { r with fromMode := none }

/-- Put back the mode that was in force before the reset, from which another is entered (R26). -/
def State.restoreFrom (s : State) : State :=
  match s.rst.fromMode with
  | none => s
  | some m => s.modGlb fun g => { g with mode := m }

/-- Go on from a valid fuse shadow (R393, R410). -/
def State.afterFuses (s : State) : State :=
  if s.rst.lc = .decommissioned then s.restoreFrom.enterDecommission
  else if s.rst.count = 3 then s.restoreFrom.enterShallows
  else s.enterBringUp.modRst fun r => { r with phase := .march }

/-- The last reset source ends (R389, R393). -/
def execResetRelease (s : State) : Result :=
  done (if s.rst.phase != .inReset || !s.rst.powered then s
    else if s.rst.coldKind || !s.rst.shadowOk then
      let s := if lcOf s.rst.fuse0 s.rst.fuse1 = .decommissioned then s else s.enterBringUp
      s.modRst fun r => { r with phase := .fuseLoad }
    else s.afterFuses)

/-- The bytes of a fuse copy under its CRC-32, state bits outside it (R390, R407; log entry 2). -/
def FuseCopy.bytes (f : FuseCopy) : List Byte :=
  f.trim ++ f.repairs ++ [BitVec.setWidth 8 f.variant] ++ leBytes 8 f.uniqueId.toNat ++ f.kekSeed

def FuseCopy.crcOk (f : FuseCopy) : Bool := crc32 f.bytes = f.crc.toNat

/-- Every fuse reads 0 (R407). -/
def FuseCopy.blank (f : FuseCopy) : Bool :=
  f.bytes.all (· = 0) && f.crc = 0 && f.bitP = 0 && f.bitO = 0 && f.bitF = 0 && f.bitD = 0

/-- The fuse shadow takes a copy. The KEK is derived in Provisioned and Operational (R406, R273). -/
def Rst.takeFuses (second : Bool) (r : Rst) : Rst :=
  let f := if second then r.fuse1 else r.fuse0
  let lc := lcOf r.fuse0 r.fuse1
  { r with
    fuseCopy := second, shadowOk := true, trim := f.trim, repairs := f.repairs, variant := f.variant, uniqueId := f.uniqueId
    lc := lc, kek := if lc = .provisioned || lc = .operational then some (Config.kekOf f.kekSeed) else none }

/-- A blank array: default trim, no fused repairs (R406). The variant that GLB.DEV_ID reports stays as it was before, here and where both
copies fail: the spec states none (DESIGN CHOICE, log entry 2). -/
def Rst.takeBlank (r : Rst) : Rst :=
  { r with fuseCopy := false, shadowOk := true, trim := Config.defaultTrim, repairs := [], lc := .blank, kek := none }

/-- Both copies fail: default trim, no valid shadow (R390). The state bits lie outside the CRC (R407). -/
def Rst.trimFail (r : Rst) : Rst :=
  { r with lc := lcOf r.fuse0 r.fuse1, shadowOk := false, trim := Config.defaultTrim, repairs := [], kek := none, failCause := 4 }

/-- The fuse load ends (R390). The terminal state persists where both copies fail too (R410). -/
def execFuseLoadDone (s : State) : Result :=
  done (if s.rst.phase != .fuseLoad then s
    else if s.rst.fuse0.blank && s.rst.fuse1.blank then (s.modRst Rst.takeBlank).afterFuses
    else if s.rst.fuse0.crcOk then (s.modRst (Rst.takeFuses false)).afterFuses
    else if s.rst.fuse1.crcOk then (s.modRst (Rst.takeFuses true)).afterFuses
    else if lcOf s.rst.fuse0 s.rst.fuse1 = .decommissioned then (s.modRst Rst.trimFail).restoreFrom.enterDecommission
    else (s.modRst Rst.trimFail).restoreFrom.enterShallows)

/-! ### Boot -/

/-- An island PLL misses its lock by 10 ms (R388). -/
def execPllLockTimeout (island : Nat) (s : State) : Result :=
  done (if s.starting && island < 44 then s.startFail 6 else s)

/-- The 20 s limit expires before BOOT_OK (R392). -/
def execBootTimeout (s : State) : Result := done (if s.starting then s.startFail 1 else s)

def Cps.slot (c : Cps) (k : Nat) : FwSlot := if k = 0 then c.slot0 else c.slot1

def Cps.modSlot (k : Nat) (f : FwSlot → FwSlot) (c : Cps) : Cps :=
  if k = 0 then { c with slot0 := f c.slot0 } else { c with slot1 := f c.slot1 }

/-- A byte of a slot as the flash gives it: erased flash reads all ones. -/
def FwSlot.byte (f : FwSlot) (i : Nat) : Byte := tget 0xFF f.data i

def FwSlot.word (f : FwSlot) (o : Nat) : W32 := BitVec.ofNat 32 (leNat ((List.range 4).map fun i => f.byte (o + i)))

/-- The image in a slot: its header is taken, and MAGIC, the sizes and the signature over IMAGE_SIZE bytes are checked (R332). -/
def FwSlot.verify (f : FwSlot) : FwSlot :=
  let n := (f.word 0x10).toNat
  { f with
    version := f.word 4, ucodeId := f.word 8, journal := f.word 0x0C, size := f.word 0x10, cpSize := f.word 0x14
    valid := f.word 0 = 0x4E41474E && 512 ≤ n && n ≤ 4194304 && (f.word 0x14).toNat ≤ 1572864 &&
      Config.fwSignatureValid ((List.range n).map f.byte) }

/-- A slot as the boot ROM finds it: an image known to verify, or what verifying its bytes gives (R332, R333). -/
def Cps.image (c : Cps) (k : Nat) : FwSlot := if (c.slot k).valid then c.slot k else (c.slot k).verify

/-- The slot the ROM boots: the named one where its image verifies, else the other (R333). -/
def Cps.bootSlot (c : Cps) (k : Nat) : Option Nat :=
  if (c.image k).valid then some k else if (c.image (1 - k)).valid then some (1 - k) else none

/-- The CRC-32C of a copy of the boot pointer, over the one byte of the slot number (DESIGN CHOICE, log entry 9). -/
def pointerCrc (k : Nat) : Nat := crc32c [BitVec.ofNat 8 k]

/-- The selected slot: the first copy of the boot pointer whose CRC-32C matches (R333). Where neither does, slot 0 (DESIGN CHOICE, log
entry 9). -/
def Cps.bootPointer (c : Cps) : Nat :=
  if c.bootCrc0.toNat = pointerCrc c.bootPtr0 then c.bootPtr0 else if c.bootCrc1.toNat = pointerCrc c.bootPtr1 then c.bootPtr1 else 0

/-- The ROM copies the CP part of an image to the bottom of both CPs' banks (R333, R368). That the part follows the header in the image
is the model's choice (DESIGN CHOICE, log entry 9). -/
def Bus.copyCp (f : FwSlot) (b : Bus) : Bus :=
  let l := (List.range f.cpSize.toNat).map fun i => f.byte (512 + i)
  if l.isEmpty then b else { b with sram := [0, 1].foldl (fun t w => tins t w (tover 0 0 l (tget [] t w))) b.sram }

/-- The boot ROM loads the flash (R333) and passes the microcode to the engine islands (R208): `ucodeOk` is the verification of the engine microcode (R208). -/
def execFlashBoot (ucodeOk : Bool) (s : State) : Result :=
  done (if s.rst.phase != .romBoot then s
    else match s.cps.bootSlot (s.rst.recoverSlot.getD s.cps.bootPointer) with
      | none => s.startFail 2
      | some k =>
        if !ucodeOk then s.startFail 5
        else
          let f := s.cps.image k
          (((((s.modCps fun c => { c with running := k, version := f.version, jVersion := f.journal }).modEng fun e => { e with
            ucodeId := f.ucodeId, istore := (List.range 4).map fun q => (q, f.ucodeId) }).modGlb fun g => { g with remap := 3 }).modBus
            (Bus.copyCp f)).modRst fun r => { r with phase := .nganas, recoverSlot := none }))

/-- Open the mailboxes: each reads IDLE from BOOT_OK on (R335). -/
def Mbx.openAll (m : Mbx) : Mbx :=
  { m with
    boxes := (List.range 8).foldl (fun t n => tput {} t n { (tget {} t n) with state := .idle }) m.boxes
    serving := true }

/-- `TIM.PPS_CTRL.TRACK` and `ALIGN_AT_START` (R51). -/
def Glb.track (g : Glb) : Bool := g.ppsCtrl.getLsbD 0
def Glb.alignAtStart (g : Glb) : Bool := g.track && g.ppsCtrl.getLsbD 1

/-- Nganas on a CP writes BOOT_OK: the count becomes 0 and core release is asked for (R389, R392, R402). A write by any
other master is discarded. TRACK and ALIGN_AT_START are taken once, with this write: the spec does not say when (DESIGN CHOICE, log
entry 42). -/
def State.bootOk (m : BusMaster) (s : State) : State :=
  if (m = .cpA || m = .cpB) && s.rst.phase = .nganas && s.rst.marchOk && !s.rst.scanDirty then
    (s.modRst fun r => { r with
      bootOkSeen := true, count := 0, phase := if s.glb.alignAtStart then .ppsWait else .releaseWait }).modMbx Mbx.openAll
  else s

def execBootOk (m : BusMaster) (s : State) : Result := done (s.bootOk m)

/-- The core is released: frame 0 begins and the mode becomes Provisioning (R23, R46, R389). The edge that releases it is not taken as an
accepted edge for PPS_ERR, which keeps its value: R52 does not say (DESIGN CHOICE, log entry 42). -/
def State.releaseCore (aligned los : Bool) (s : State) : State :=
  let s := (s.modRst fun r => { r with phase := .started }).modGlb fun g => { g with
    released := true, cfn := 0, tick := 0, sec := 0, secFrames := 0, secStart := 0, bNext := 1600000000, ppsCorr := 0, stopped := [], secDue := false
    ppsAligned := aligned, ppsWasAligned := aligned, ppsBad := 0, ppsSeen := aligned, ppsJudge := 2, ppsNow := 0, ppsAny := los, ppsSlewing := false
    ppsSticky := if los then g.ppsSticky ||| 2 else g.ppsSticky, triggers := [] }
  let s := s.modEng fun e => { e with aligned0 := aligned }
  let s := (s.setMode .provisioning 7).modGlb fun g => { g with power := g.mode.power (BitVec.ofNat 2 (b2n s.pwr.gateOn)) }
  if s.pwr.trip then s.trigger .hold else s

/-- Core release, at once or at a sampled PPS edge (R52). -/
def execCoreRelease (ppsEdge : Bool) (s : State) : Result :=
  done (match s.rst.phase with
    | .releaseWait => s.releaseCore false false
    | .ppsWait => if ppsEdge then s.releaseCore true false else s
    | _ => s)

/-- No edge within 1.25 s: release without alignment, PPS_LOS set (R52). -/
def execPpsAlignTimeout (s : State) : Result :=
  done (if s.rst.phase = .ppsWait then s.releaseCore false true else s)

end Sys2Proof.Machine
end

