-- ==== Sys2Proof/Machine/Commit.lean ====
section
/-!
DEFINITION. The tense banks: Future-bank states, copies and passes, arming, deferring and cancelling commits and
rollbacks (chapter 06). What takes effect at F stands in TakeEffect.lean.
-/

namespace Sys2Proof.Machine

/-! ### Registers (R162) -/

def FutState.code : FutState → Nat
  | .opened => 0 | .loading => 1 | .copying => 2 | .checking => 3 | .valid => 4

def ArmState.code : ArmState → Nat
  | .idle => 0 | .commitArmed => 1 | .commitGo => 2 | .rollbackArmed => 3 | .rollbackGo => 4

/-- `SCH.STAT` as read. DOMAIN and RESUME describe the armed operation. -/
def Sch.stat (c : Sch) : Nat :=
  c.present * 2 ^ 30 + c.past * 2 ^ 28 + c.future * 2 ^ 26 + c.futState.code * 2 ^ 23 + c.armState.code * 2 ^ 20 +
  b2n (c.armed.any (·.domain)) * 2 ^ 19 + b2n (c.armed.any (·.resume)) * 2 ^ 18 + b2n c.pastValid * 2 ^ 17 +
  b2n c.dataEnable * 2 ^ 16 + c.deferCause % 16 * 2 ^ 12 + c.sticky.toNat * 2 ^ 4

/-- The 14 registers of R162 in address order. -/
def Sch.regs (c : Sch) : List Nat :=
  let lo (v : Nat) := v % 2 ^ 32
  let hi (v : Nat) := v / 2 ^ 32
  let pr := (c.bank c.present).id.toNat
  let pa := (c.bank c.past).id.toNat
  let fu := (c.bank c.future).id.toNat
  [c.stat, c.chkFail.toNat, c.chkFailCnt.toNat, lo c.target.toNat, hi c.target.toNat, lo pr, hi pr, lo pa, hi pa,
   lo fu, hi fu, lo c.last.toNat, hi c.last.toNat, c.futWrRej.toNat]

/-! ### Bank words (R126, R141, R144) -/

/-- A stored word is uncorrectable when its error mask has two or more bits (R125). -/
def uncorrectable (mask : BitVec 72) : Bool := popc 72 mask.toNat ≥ 2

/-- The key of a shadow-copy record (R174). -/
def shdwKey (r : Shdw) : Nat := r.srcT * 65536 + r.parkT

/-- A word of a bank's other tables: table 1 ingress, 2 egress, 3 alternatives, 4 paradigms, 5 work lists, 6 bindings,
7 protection groups, 8 select lists, 9 shadow copies; and the key in it (log entry 16). -/
def tableWord (t key : Nat) : Nat := t * 2 ^ 40 + key

def dropKeys {α : Type} (bad : List Nat) (t : Nat) (tbl : Tbl α) : Tbl α :=
  tbl.filter fun e => !bad.contains (tableWord t e.1)

/-- A record of table `t` is written: its word holds no error any more (R168). -/
def Bank.cleaned (t key : Nat) (b : Bank) : Bank := { b with tblBad := without b.tblBad (tableWord t key) }

/-- The bank with every uncorrectable word in its empty form, and how many words of the connection map and of the other tables those
are (R141). -/
def Bank.emptied (b : Bank) : Bank × Nat × Nat :=
  let ue := (b.mapBad.filter fun e => uncorrectable e.2).map Prod.fst
  let gone := ue ++ b.dead.filter fun k => !ue.contains k
  ({ b with
     cmap := b.cmap.filter fun e => !gone.contains e.1
     mapBad := [], dead := [], tblBad := []
     ing := dropKeys b.tblBad 1 b.ing, eg := dropKeys b.tblBad 2 b.eg, alt := dropKeys b.tblBad 3 b.alt
     para := dropKeys b.tblBad 4 b.para, epwl := dropKeys b.tblBad 5 b.epwl, ckey := dropKeys b.tblBad 6 b.ckey
     pgs := dropKeys b.tblBad 7 b.pgs, sel := dropKeys b.tblBad 8 b.sel
     shdw := b.shdw.filter fun r => !b.tblBad.contains (tableWord 9 (shdwKey r)) },
   gone.length, b.tblBad.length)

/-! ### Outcomes (R148, R149, R161) -/

def Sch.outcome (o : Outcome) (c : Sch) : Sch :=
  { c with outcomes := (c.outcomes ++ [o]).drop (c.outcomes.length + 1 - 16) }

/-- The bank an armed operation brings in. -/
def Sch.incoming (a : Armed) (c : Sch) : Nat := if a.rollback then c.past else if a.resume then c.present else c.future

/-- The command code an armed operation completes (R345). -/
def Armed.code (a : Armed) : Nat := if a.rollback then 0x0407 else 0x0405

/-- Nothing is armed any more. DESIGN CHOICE (log entry 39): SCH.TARGET keeps the target last armed, since R162 gives it a content for an
armed operation only. -/
def Sch.disarm (c : Sch) : Sch := { c with armState := .idle, armed := none }

/-- The armed operation becomes `Deferred` (R148): nothing changes but its records. A word found bad while the bank stayed
locked then returns the bank to OPEN at the next boundary (R144). A member of a domain compares schedule IDs in frame F+1 all the same
(R160). -/
def State.deferArmed (cause : Nat) (s : State) : State :=
  match s.sch.armed with
  | none => s
  | some a =>
    let s' := ((s.modTwin fun t => { t with domCommit := if a.domain then some a.target else t.domCommit }).modSch fun c =>
      ((c.disarm.flag 6).outcome ⟨s.cfn, a.id, 1, cause⟩) |> fun c => { c with deferCause := cause, last := s.cfn }).count 597 1
    match a.origin with
    | some o => s'.complete o a.code 0x8009 cause (cfnBytes a.target)
    | none => s'.event 0x4402 cause (cfnBytes a.target)

/-- An operation is armed and not yet decided. -/
def State.undecided (s : State) : Bool := s.sch.armState = .commitArmed || s.sch.armState = .rollbackArmed

/-! ### Commands -/

/-- A destructive march runs on the Future bank's memories (R379). -/
def State.futureMarched (s : State) : Bool :=
  s.mem.marches.any fun m => m.destr && (m.memory = 0x12 + s.sch.future || m.memory = 0x15 + s.sch.future)

/-- The Future bank is not free for a load, copy or pass (R139, R140, R379). -/
def State.futureBusy (s : State) : Bool :=
  s.sch.futState != .opened || s.sch.pendCopy.isSome || s.sch.pendPrep.isSome || s.futureMarched

def schCopyBody (r : MbReq) (s : State) : Ans × State :=
  if s.futureBusy || s.sch.armState != .idle then (.busy, s)
  else (s.accepted, s.modSch fun c => { c with pendCopy := some r.origin, digest := [] })

def schCopyForm : Form := .fixed 0

/-- COPY-PRESENT-TO-FUTURE (R141, R161); SCH_STATUS loses the digest of the last load (R180). -/
def execSchCopy (r : MbReq) (s : State) : Result := mailboxRow 0x0402 schCopyForm schCopyBody r s

def schPrepareBody (r : MbReq) (s : State) : Ans × State :=
  let named : W64 := BitVec.ofNat 64 (r.u64 0)
  let own := s.futureBank.id
  let id := if named = 0 then own else named
  if s.futureBusy then (.busy, s)
  else if own = 0 || id = s.presentBank.id then (.badState, s)
  else (s.accepted, s.modSch fun c =>
    { (c.modBank c.future fun b => { b with id := id }) with pendPrep := some r.origin })

def schPrepareForm : Form := .fixed 8

/-- Start the checker pass (R143). -/
def execSchPrepare (r : MbReq) (s : State) : Result := mailboxRow 0x0403 schPrepareForm schPrepareBody r s

def schUnprepareBody (_ : MbReq) (s : State) : Ans × State :=
  if s.sch.armState = .commitArmed || s.sch.armState = .commitGo || s.sch.pendCopy.isSome || s.sch.pendPrep.isSome then (.busy, s)
  else if s.sch.futState != .checking && s.sch.futState != .valid then (.badState, s)
  else (.ok, s.modSch fun c => { c with pendUnprep := true })

def schUnprepareForm : Form := .fixed 0

/-- Return the Future bank to OPEN at the next boundary (R139, R143). -/
def execSchUnprepare (r : MbReq) (s : State) : Result := mailboxRow 0x0404 schUnprepareForm schUnprepareBody r s

/-- The modes that may arm (R145). -/
def Mode.arms : Mode → Bool
  | .provisioning | .service | .degraded => true
  | _ => false

/-- `f` lies at least 8 frames ahead, 16 for a domain operation, and in the future half (R47, R145). -/
def State.leadOk (s : State) (f : Cfn) (domain : Bool) : Bool :=
  (if domain then 16 else 8) ≤ (f - s.cfn).toNat && (f - s.cfn).toNat < 2 ^ 47

/-- A twin leader's operations must carry DOMAIN (R319). -/
def State.domainMissing (s : State) (domain : Bool) : Bool := s.twin.role = .leader && !domain

def State.arm (a : Armed) (s : State) : State :=
  s.modSch fun c => { c with
    armState := if a.rollback then .rollbackArmed else .commitArmed, armed := some a, target := a.target }

def schArmBody (r : MbReq) (s : State) : Ans × State :=
  let f := r.cfn 0
  let domain := r.u8 8 % 2 = 1
  let resume := r.u8 8 / 2 = 1
  let id : W64 := BitVec.ofNat 64 (r.u64 16)
  if s.glb.mode = .mateFollow then (.denied, s)
  else if s.sch.armState != .idle || s.sch.futState = .copying then (.busy, s)
  else if !s.leadOk f domain || !s.glb.mode.arms || s.domainMissing domain then (.badState, s)
  else if resume && (s.sch.dataEnable || id != s.presentBank.id) then (.badState, s)
  else if !resume && s.sch.futState != .checking && s.sch.futState != .valid then (.badState, s)
  else
    let inc := if resume then s.presentBank.id else s.futureBank.id
    (s.accepted, s.arm { target := f, effect := f, rollback := false, domain := domain, resume := resume, id := inc, origin := some r.origin })

def schArmForm : Form := .fixed 24 fun r => r.cfnOk 0 && r.u8 8 < 4 && r.zero [(9, 7)] && (r.u8 8 / 2 = 1 || r.u64 16 = 0)

/-- Arm a commit at frame F (R145, R151). -/
def execSchArm (r : MbReq) (s : State) : Result := mailboxRow 0x0405 schArmForm schArmBody r s

def schDisarmBody (_ : MbReq) (s : State) : Ans × State :=
  match s.sch.armState, s.sch.armed with
  | .commitGo, _ | .rollbackGo, _ => (.busy, s)
  | _, none => (.badState, s)
  | _, some a =>
    let s' := s.modSch fun c => c.disarm.outcome ⟨s.cfn, a.id, 3, 0⟩
    (.ok, match a.origin with
      | some o => s'.complete o a.code 0x8009 0 (cfnBytes a.target)
      | none => s'.event 0x4402 0 (cfnBytes a.target))

def schDisarmForm : Form := .fixed 0

/-- Cancel an armed commit or rollback before its decision (R149). -/
def execSchDisarm (r : MbReq) (s : State) : Result := mailboxRow 0x0406 schDisarmForm schDisarmBody r s

/-- DESIGN CHOICE (log entry 39): a copy accepted and still pending is not yet "armed or running" (R155), and R139 lists the commands
that it refuses, this one not among them; so the rollback is accepted, as a RESUME commit is (`schArmBody`). -/
def schRollbackBody (r : MbReq) (s : State) : Ans × State :=
  let f := r.cfn 0
  let domain := r.u8 8 = 1
  if s.glb.mode = .mateFollow then (.denied, s)
  else if s.sch.armState != .idle || s.sch.futState = .copying then (.busy, s)
  else if !s.sch.pastValid || !s.leadOk f domain || !s.glb.mode.arms || s.domainMissing domain then (.badState, s)
  else (s.accepted, s.arm { target := f, effect := f, rollback := true, domain := domain, resume := false, id := s.pastBank.id, origin := some r.origin })

def schRollbackForm : Form := .fixed 9 fun r => r.cfnOk 0 && r.u8 8 < 2

/-- Arm a rollback (R155). -/
def execSchRollback (r : MbReq) (s : State) : Result := mailboxRow 0x0407 schRollbackForm schRollbackBody r s

def Outcome.bytes (o : Outcome) : List Byte :=
  padTo 24 (cfnBytes o.cfn ++ leBytes 8 o.id.toNat ++ [BitVec.ofNat 8 o.result, BitVec.ofNat 8 o.cause])

def schStatusBody (_ : MbReq) (s : State) : Ans × State :=
  (⟨0, s.sch.regs.flatMap (leBytes 4) ++ padTo 32 s.sch.digest ++ padTo 384 (s.sch.outcomes.flatMap Outcome.bytes)⟩, s)

def schStatusForm : Form := .fixed 0

/-- The SCH registers, the last digest and the last 16 outcomes (R161, R345). -/
def execSchStatus (r : MbReq) (s : State) : Result := mailboxRow 0x0408 schStatusForm schStatusBody r s

/-! ### Events -/

/-- Boundary F−5: the commit notice goes out (R146). -/
def execCommitNotice (s : State) : Result :=
  done (match s.sch.armed with
    | some a => if a.target - s.cfn = 5 && s.glb.released then s.modSch fun c => { c with armed := some { a with noticed := true } } else s
    | none => s)

/-- The copy ends, 8 frames after COPYING began (R139, R141). -/
def execSchCopyDone (s : State) : Result :=
  done (match s.sch.futState, s.sch.copySnap with
    | .copying, some snap =>
      if since s.tick s.sch.passStart < 8 then s
      else
        let e := snap.emptied
        let s' := (s.modSch fun c => { (c.modBank c.future fun _ => e.1) with
          futState := .opened, copySnap := none, opOrigin := none, checked := false }).modMem fun m => { m with
            mems := tmod {} (tmod {} m.mems (0x12 + s.sch.copyFrom) fun r => { r with ue := satAdd r.ue e.2.1 })
              (0x15 + s.sch.copyFrom) fun r => { r with ue := satAdd r.ue e.2.2 } }
        match s.sch.opOrigin with
        | some o => s'.complete o 0x0402 0 0 (leBytes 4 (e.2.1 + e.2.2))
        | none => s'
    | _, _ => s)

/-! ### What bank states do at a boundary (R139, R144) -/

/-- The Future bank returns to OPEN; a running pass is abandoned with BAD_STATE (R143). -/
def State.reopenFuture (s : State) : State :=
  let s' := s.modSch fun c => { c with futState := .opened, pendUnprep := false, pendReopen := none, opOrigin := none }
  match s.sch.futState, s.sch.opOrigin with
  | .checking, some o => s'.complete o 0x0403 0x8003 0 []
  | _, _ => s'

/-- The readiness of an armed commit that brings in the Future bank is fixed (R144). -/
def State.readyFixed (s : State) : Bool :=
  s.sch.armed.any fun a => !a.resume && !a.rollback && (a.ready.isSome || s.sch.armState = .commitGo)

/-- Boundary-timed Future-bank changes: SCH_UNPREPARE, a bad word in a VALID bank, and the start of a pending copy or
pass. A bad word does not reopen the bank once the readiness of an armed commit is fixed. -/
def State.futureBoundary (fixed : Bool) (s : State) : State :=
  let s := if s.sch.pendUnprep then s.reopenFuture else s
  let s := if s.sch.pendReopen.isSome && s.sch.futState = .valid && !fixed
    then s.reopenFuture.modSch fun c => { (c.flag 3) with chkFail := s.sch.pendReopen.getD 0, checked := true } else s
  match s.sch.pendCopy, s.sch.pendPrep with
  | some o, _ => s.modSch fun c => { c with
      futState := .copying, pendCopy := none, passStart := s.tick, opOrigin := some o, copySnap := some (c.bank c.present), copyFrom := c.present }
  | none, some o => s.modSch fun c => { c with
      futState := .checking, pendPrep := none, passStart := s.tick, opOrigin := some o }
  | none, none => s

/-- Streams change their use: a Past bank that names one can no longer be rolled back to (R157). -/
def Sch.streamsChanged (streams : List Nat) (c : Sch) : Sch :=
  if streams.any fun st => (c.bank c.past).useMask.getLsbD st then { c with pastValid := false } else c

end Sys2Proof.Machine
end

