-- ==== Sys2Proof/Machine/Streams.lean ====
section
/-!
DEFINITION. Streams of line groups, tributary contexts, allotments and connection-map entries: what the tables of a bank
name (chapters 03-06).
-/

namespace Sys2Proof.Machine

/-! ### Streams (R61-R63) -/

/-- The number of slices. -/
def Grp.n (g : Grp) : Nat := if g.otl then 1 else if g.rate = 1 then g.lanes / 2 else g.lanes

/-- The streams of a group in slice order (R61). -/
def groupStreams (g : Nat) (r : Grp) : List Nat :=
  (List.range r.n).map fun i => if r.rate = 1 then g + 2 * i else g + i

/-- The group and slice that a stream serves (R62). -/
def State.streamSlice (s : State) (st : Nat) : Option (Nat × Nat) :=
  s.grps.findSome? fun e => ((groupStreams e.1 e.2).findIdx? (· = st)).map fun i => (e.1, i)

def State.serves (s : State) (st : Nat) : Bool := (s.streamSlice st).isSome

/-- The stream belongs to a Stitch lane (R307). -/
def State.stitch (s : State) (st : Nat) : Bool := (s.lane st).role = .stitch

def State.usable (s : State) (st : Nat) : Bool := s.serves st || s.stitch st

/-- The carrying signal of a stream is an ODU4 of an OTU4 group. -/
def State.otlStream (s : State) (st : Nat) : Bool :=
  match s.streamSlice st with
  | some (g, _) => (s.grp g).any (·.otl)
  | none => false

/-! ### Connection-map entries (R114) -/

abbrev Entry := BitVec 48

def Entry.v (e : Entry) : Bool := e.getLsbD 47
def Entry.kind (e : Entry) : Nat := fld e.toNat 45 2
def Entry.rp (e : Entry) : Nat := fld e.toNat 44 1
def Entry.pond (e : Entry) : Nat := fld e.toNat 37 7
def Entry.srcCol (e : Entry) : Nat := fld e.toNat 23 14
def Entry.dstCol (e : Entry) : Nat := fld e.toNat 9 14
def Entry.sel (e : Entry) : Nat := fld e.toNat 37 8
/-- Bits [7:0] are 0, and bits [44:23] for idle fill and test fill (R121). -/
def Entry.formatOk (e : Entry) : Bool :=
  fld e.toNat 0 8 = 0 && (e.kind = 0 || e.kind = 3 || fld e.toNat 23 22 = 0)

def entryKey (st cycle : Nat) : Nat := st * 16384 + cycle
def keyStream (k : Nat) : Nat := k / 16384
def keyCycle (k : Nat) : Nat := k % 16384

/-- The protection group that a select entry of stream `st` names (R118). -/
def Bank.selPg (b : Bank) (st : Nat) (e : Entry) : Option Nat := tfind b.sel (st * 256 + e.sel)

/-- The (pond, read port) pairs an entry uses; a select entry uses both of its legs, once each (R121). -/
def Bank.reads (b : Bank) (st : Nat) (e : Entry) : List (Nat × Nat) :=
  if e.kind = 0 then [(e.pond, e.rp)]
  else if e.kind = 3 then
    match (b.selPg st e).bind (tfind b.pgs) with
    | some p => addNew [(p.wPond, b2n p.wRp)] (p.pPond, b2n p.pRp)
    | none => []
  else []

/-- The streams an entry names as source and target. -/
def entryStreams (st : Nat) (e : Entry) : List Nat := if e.kind = 0 then [st, e.pond] else [st]

/-! ### Tributary contexts (R86, R87) -/

/-- The fixed allotment of a type, in columns (R43). -/
def typeColumns (t : Nat) : Option Nat := [200, 400, 1600, 1600, 6400, 16000][t]?

/-- Rule 4 of R87: N ÷ 200 quarter-slots for the fixed types, rounded up for ODUflex. -/
def CtxCfg.quartersOk (c : CtxCfg) : Bool :=
  let q := popc 80 c.qsMask.toNat
  if c.type.toNat < 6 then 200 * q = c.n else q = (c.n + 199) / 200

/-- The line slots a type takes in the carrying signal (R87 rule 6): 5G slots of an ODUCn slice under R43, 1.25G slots of an
ODU4 under G.709 (log entry 18). An ODU4 carried whole takes none. -/
def CtxCfg.lineSlots (c : CtxCfg) (otl : Bool) : Nat :=
  let t := c.type.toNat
  if otl then ([1, 2, 8, 8, 31, 0][t]?).getD ((c.n + 199) / 200)
  else ([1, 1, 2, 2, 8, 20][t]?).getD ((c.n + 799) / 800)

/-- Rules 4 and 6 of R87, on one context. -/
def CtxCfg.slotsOk (c : CtxCfg) (otl : Bool) : Bool :=
  let want := c.lineSlots otl
  let have_ := popc 80 c.lineTs.toNat
  c.quartersOk && (otl || c.lineTs.toNat < 2 ^ 20) && (have_ = want || (c.resize != 0 && have_ > want))

/-- The rules of R87 that concern one context by itself: 4, 6, 7 and 8. -/
def CtxCfg.selfOk (c : CtxCfg) (otl : Bool) : Bool :=
  c.slotsOk otl && (typeColumns c.type.toNat).all (· = c.n) && (c.resize = 0 || c.type = 7)

/-- Two masks share no bit. -/
def disjoint (a b : BitVec 80) : Bool := a &&& b = 0

/-- Rules 2, 3 and 5 of R87 between two active contexts of one stream and direction. -/
def CtxCfg.apart (a b : CtxCfg) : Bool := a.idx != b.idx && disjoint a.qsMask b.qsMask && disjoint a.lineTs b.lineTs

def pairwise {α : Type} (p : α → α → Bool) : List α → Bool
  | [] => true
  | a :: r => r.all (p a) && pairwise p r

/-- The active contexts of one direction on a stream. -/
def onStream (t : Tbl CtxCfg) (st : Nat) : List CtxCfg :=
  (t.filter fun e => e.2.active && e.2.stream.toNat = st).map Prod.snd

/-- R87 rules 2-8 on the contexts of one stream. -/
def streamCtxOk (otl : Bool) (l : List CtxCfg) : Bool := l.all (·.selfOk otl) && pairwise CtxCfg.apart l

/-- R87 rules 2-6 on the contexts of one stream. -/
def streamSetOk (otl : Bool) (l : List CtxCfg) : Bool := l.all (·.slotsOk otl) && pairwise CtxCfg.apart l

/-- The key of an alternative record: direction 0 ingress, 1 egress (R171). -/
def altKey (dir t set : Nat) : Nat := (dir * 16384 + t) * 4096 + set

/-- The alternative sets that conjugation `idx g` of each paradigm selects (R173). -/
def Bank.sets (b : Bank) (idx : Nat → Option Nat) : List Nat :=
  b.para.flatMap fun e => match (idx e.1).bind (e.2.conjs[·]?) with
    | some c => c.sets
    | none => []

/-- A context as the selected sets leave it (R172). -/
def Bank.ctx (b : Bank) (sets : List Nat) (dir t : Nat) : CtxCfg :=
  (sets.findSome? fun a => tfind b.alt (altKey dir t a)).getD (tget {} (if dir = 0 then b.ing else b.eg) t)

/-- Every context of a direction as the selected sets leave it. -/
def Bank.ctxs (b : Bank) (sets : List Nat) (dir : Nat) : Tbl CtxCfg :=
  tmap (fun t _ => b.ctx sets dir t) (if dir = 0 then b.ing else b.eg)

/-- The allotment of a context: its columns in order (R91). -/
def CtxCfg.allotment (c : CtxCfg) : List Nat :=
  let cols := (List.range 16000).filter fun k => c.qsMask.getLsbD (k % 80)
  let l := cols.length
  if c.type.toNat < 6 then cols
  else (cols.foldl (fun (p : Nat × List Nat) k =>
    let a := p.1 + c.n
    if a ≥ l then (a - l, k :: p.2) else (a, p.2)) (0, [])).2.reverse

/-- Which of `n` positions carry data when `c` words are sent (R93). -/
def dataPositions (n c : Nat) : List Bool :=
  ((List.range n).foldl (fun (p : Nat × List Bool) _ =>
    let a := p.1 + c
    if a ≥ n then (a - n, true :: p.2) else (a, false :: p.2)) (0, [])).2.reverse

/-! ### What a bank names -/


/-- Streams named by active contexts, base or alternative. -/
def Bank.ctxNames (b : Bank) : List Nat :=
  (b.ing ++ b.eg ++ b.alt).filterMap fun e => if e.2.active then some e.2.stream.toNat else none

/-- Streams named by legs of active protection groups. -/
def Bank.legNames (b : Bank) : List Nat := (b.pgs.filter fun e => e.2.active).flatMap fun e => [e.2.wPond, e.2.pPond]

/-- The entry of key `k` as read through the window: free where the bank's content is undefined (R142). -/
def Bank.entry (b : Bank) (k : Nat) : Entry :=
  match b.undef with
  | some n => if b.written.contains k then tget 0 b.cmap k else Config.undefBank n k
  | none => tget 0 b.cmap k

/-- The entries of a bank: the listed ones, or every one where the map is undefined (R142). -/
def Bank.entries (b : Bank) : List (Nat × Entry) := if b.undef.isNone then b.cmap else (List.range 2097152).map fun k => (k, b.entry k)

/-- The valid entries. -/
def Bank.valids (b : Bank) : List (Nat × Entry) := b.entries.filter fun e => Entry.v e.2

/-- Streams named by valid connection-map entries. -/
def Bank.entryNames (b : Bank) : List Nat := b.valids.flatMap fun e => entryStreams (keyStream e.1) e.2

/-- The schedule names a stream. -/
def Bank.names (b : Bank) (st : Nat) : Bool := b.entryNames.contains st || b.ctxNames.contains st || b.legNames.contains st

/-- The stream-use mask (R143). -/
def Bank.streamUse (b : Bank) : BitVec 128 := BitVec.ofNat 128 (maskOf (b.entryNames ++ b.ctxNames))

end Sys2Proof.Machine
end

