-- ==== Sys2Proof/Machine/Checker.lean ====
section
/-!
DEFINITION. The Future-bank checker and the cross-table validations (R121, R143, R181), and the end of their pass.
-/

namespace Sys2Proof.Machine

/-! ### The checker of R121 -/

/-- What the checker remembers: uses of (cycle, pond, port) and (stream, column), the first failing entry, and the number
of failing entries. -/
structure Pass where
  reads : List (Nat × Nat × Nat) := []
  dests : List (Nat × Nat) := []
  first : Option (Nat × Nat × Nat) := none
  count : Nat := 0

def Pass.fail (rule st cycle : Nat) (p : Pass) : Pass :=
  { p with first := if p.first.isSome then p.first else some (rule, st, cycle), count := p.count + 1 }

/-- The lowest-numbered rule that an entry breaks. -/
def entryRule (s : State) (b : Bank) (bypass : Bool) (p : Pass) (st cycle : Nat) (e : Entry) : Option Nat :=
  if !bypass && (b.reads st e).any (fun r => p.reads.contains (cycle, r.1, r.2)) then some 1
  else if !bypass && p.dests.contains (st, e.dstCol) then some 2
  else if !bypass && !(entryStreams st e).all s.usable then some 3
  else if e.kind = 3 && (b.selPg st e).isNone then some 4
  else if !e.formatOk then some 5
  else none

def checkEntry (s : State) (b : Bank) (bypass : Bool) (p : Pass) (k : Nat) : Pass :=
  let st := keyStream k
  let cycle := keyCycle k
  if uncorrectable (tget 0 b.mapBad k) || b.dead.contains k then p.fail 6 st cycle
  else
    let e : Entry := b.entry k
    if !e.v then p
    else
      let p' := match entryRule s b bypass p st cycle e with
        | some r => p.fail r st cycle
        | none => p
      { p' with
        reads := (b.reads st e).map (fun r => (cycle, r.1, r.2)) ++ p'.reads
        dests := (st, e.dstCol) :: p'.dests }

/-- The keys of a bank's listed entries by read cycle, and within a cycle by stream (R143); of an undefined map every key. -/
def Bank.checkOrder (b : Bank) : List Nat :=
  if b.undef.isSome then (List.range 2097152).map fun i => i % 128 * 16384 + i / 128
  else (tof ((tkeys b.cmap ++ tkeys b.mapBad ++ b.dead).map fun k => (keyCycle k * 128 + keyStream k, k))).map Prod.snd

def runChecker (s : State) (b : Bank) (bypass : Bool) : Pass :=
  b.checkOrder.foldl (checkEntry s b bypass) {}

/-! ### Cross-table validations (R181) -/

def tyCMAP : Nat := 0x50414D43
def tyMUXC : Nat := 0x4358554D
def tyPARA : Nat := 0x41524150
def tySHDW : Nat := 0x57444853
def tyEPWL : Nat := 0x4C575045
def tyCKEY : Nat := 0x59454B43
def tyPGRP : Nat := 0x50524750

/-- One validation failure: code, section TYPE and key (the keys are named in log entry 19). -/
abbrev XFail := Nat × Nat × Nat

/-- The key of a context's record as the completion gives it: RTYPE, TNUM and ALT (R171), in a packing of the model's own
(DESIGN CHOICE, log entry 19). -/
def muxcKey (k : Nat) : Nat := k + 16384 * 4096

def xfails (code ty : Nat) (l : List (Nat × Bool)) : List XFail :=
  (l.filter fun e => !e.2).map fun e => (code, ty, e.1)

def v71 (s : State) (b : Bank) : List XFail :=
  xfails 0x71 tyPGRP (b.sel.map fun e => (e.1, match tfind b.pgs e.2 with
    | some p => p.active && s.serves p.wPond && s.serves p.pPond
    | none => false))

def rising : List Nat → Bool
  | a :: b :: r => a < b && rising (b :: r)
  | _ => true

def Bank.setRecords (b : Bank) (set : Nat) : List Nat := (tkeys b.alt).filter fun k => k % 4096 = set

def v72 (s : State) (b : Bank) : List XFail :=
  xfails 0x72 tyPARA (b.para.map fun e => (e.1, match s.grp e.1 with
    | some g => !g.otl && e.2.conjs.length ≥ 1 && rising (e.2.conjs.map (·.m)) &&
        e.2.conjs.all fun c => 1 ≤ c.m && c.m ≤ 20 * g.n && c.sliceMask.toNat < 2 ^ g.n && c.sets.all fun a => !(b.setRecords a).isEmpty
    | none => false))

/-- The contexts (direction and number) with records in a set. -/
def Bank.setCtxs (b : Bank) (set : Nat) : List Nat := (b.setRecords set).map (· / 4096)

def Para.sets (p : Para) : List Nat := p.conjs.flatMap (·.sets)

def share (a b : List Nat) : Bool := a.any b.contains

/-- No context has records in sets of two paradigms. -/
def oneParadigm (b : Bank) (ctx : Nat) : Bool :=
  (b.para.filter fun e => e.2.sets.any fun x => (b.setCtxs x).contains ctx).length ≤ 1

def v73 (b : Bank) : List XFail :=
  xfails 0x73 tyPARA (b.para.map fun e =>
    (e.1, (b.para.all fun f => f.1 = e.1 || !share e.2.sets f.2.sets) &&
      e.2.conjs.all fun c => pairwise (fun x y => x = y || !share (b.setCtxs x) (b.setCtxs y)) c.sets)) ++
  xfails 0x73 tyMUXC ((((tkeys b.alt).map (· / 4096)).eraseDups).map fun c => (muxcKey (c * 4096), oneParadigm b c))

def v74 (s : State) (b : Bank) : List XFail :=
  xfails 0x74 tyPARA (b.para.map fun e => (e.1, e.2.conjs.all fun c =>
    [0, 1].all fun dir =>
      let all := b.ctxs c.sets dir
      let touched := (c.sets.flatMap b.setRecords).filterMap fun k =>
        if k / 4096 / 16384 = dir then (tfind b.alt k).map (·.stream.toNat) else none
      touched.eraseDups.all fun st => streamSetOk (s.otlStream st) (onStream all st)))

/-- The valid switch entries that read stream `src` and write stream `dst` at one of `cols`. -/
def Bank.shadowEntries (b : Bank) (src dst : Nat) (cols : List Nat) : Nat :=
  (b.valids.filter fun e =>
    Entry.kind e.2 = 0 && keyStream e.1 = dst && Entry.pond e.2 = src && cols.contains (Entry.dstCol e.2)).length

def shadowOk (b : Bank) (r : Shdw) : Bool :=
  let park := tget {} b.eg r.parkT
  let src := tget {} b.ing r.srcT
  match tfind b.para r.homeG with
  | none => false
  | some p =>
    (tfind b.eg r.parkT).isSome && !park.active &&
    (p.conjs.zipIdx.all fun c =>
      let on (t : Nat) := (b.ctx c.1.sets 1 t).active
      if c.2 ≤ r.upto then on r.parkT && !on r.homeT else on r.homeT && !on r.parkT) &&
    r.entries = park.n + 1 &&
    b.shadowEntries src.stream.toNat park.stream.toNat ((16000 + park.idx.toNat) :: park.allotment) = r.entries

def v75 (b : Bank) : List XFail :=
  xfails 0x75 tySHDW (b.shdw.map fun r => (r.srcT * 65536 + r.parkT, shadowOk b r))

/-- The context of a binding is active in the base configuration or in some alternative set. -/
def Bank.everActive (b : Bank) (dir t : Nat) : Bool :=
  (tget {} (if dir = 0 then b.ing else b.eg) t).active || b.alt.any fun e => e.1 / 4096 = dir * 16384 + t && e.2.active

/-- The slot state rules of R270 for one binding, `dir` 0 decrypt, 1 encrypt. -/
def slotRules (b : Bank) (dir t : Nat) (bd : Bind) : Bool :=
  let sameSlot := b.ckey.filter fun e => e.2.slot = bd.slot
  let enc := (sameSlot.filter fun e => e.1 / 16384 = 1 && e.2.active).map fun e => e.1 % 16384
  !(sameSlot.any fun e => e.1 / 16384 != dir) &&
  (dir = 0 || enc.length ≤ 1 || (enc.length = 2 && b.shdw.any fun r => enc.contains r.homeT && enc.contains r.parkT && r.homeT != r.parkT)) &&
  (tget {} (if dir = 0 then b.ing else b.eg) t).type != 7

def v76 (b : Bank) : List XFail :=
  xfails 0x76 tyCKEY ((b.ckey.filter fun e => e.2.active).map fun e =>
    let dir := e.1 / 16384
    let t := e.1 % 16384
    (dir * 65536 + t, b.everActive dir t && slotRules b dir t e.2))

def blockCost (b : Block) : Nat := b.items.foldl (fun a i => a + i.cost) 0

/-- The engines of the work lists and their understudies. -/
def Bank.engines (b : Bank) : List Nat := (b.epwl.flatMap fun e => [e.1, e.2.understudy]).eraseDups.mergeSort fun x y => x ≤ y

def v77 (b : Bank) : List XFail :=
  xfails 0x77 tyEPWL (b.engines.map fun u =>
    let covered := b.epwl.foldl (fun m f => if f.2.understudy = u then max m f.2.load else m) 0
    let own := tfind b.epwl u
    (u, ((own.map (·.load)).getD 0) + covered ≤ 9728 && own.all fun x =>
      x.understudy != u && x.understudy / 256 = u / 256 && x.load = blockCost x && x.load ≤ 9728))

def v78 (s : State) (b : Bank) : List XFail :=
  let base (dir : Nat) (t : Tbl CtxCfg) := t.map fun e => ((dir * 16384 + e.1) * 4096, e.2)
  let ctxs := (base 0 b.ing ++ base 1 b.eg ++ b.alt).mergeSort fun x y => x.1 ≤ y.1
  xfails 0x78 tyCMAP (b.valids.map fun e => (e.1, (entryStreams (keyStream e.1) e.2).all s.usable)) ++
  xfails 0x78 tyMUXC ((ctxs.filter fun e => e.2.active).map fun e => (muxcKey e.1, s.serves e.2.stream.toNat)) ++
  xfails 0x78 tyPGRP ((b.pgs.filter fun e => e.2.active).map fun e => (e.1, s.serves e.2.wPond && s.serves e.2.pPond))

/-- Every cross-table failure, one for each code and key, in ascending order of code and, table by table, of key (R143). -/
def validations (s : State) (b : Bank) : List XFail :=
  v71 s b ++ v72 s b ++ v73 b ++ v74 s b ++ v75 b ++ v76 b ++ v77 b ++ v78 s b

/-! ### The end of a pass (R139, R143) -/

/-- `XBAR.CTRL.CHECK_BYPASS` in effect: only at D2 and D3, and not in Operational (R122, R417). -/
def State.checkBypass (s : State) : Bool := s.pnd.bypass && 2 ≤ s.rst.dbgLevel.toNat && s.rst.lc != .operational

/-- The bank with the correctable errors of its map corrected in place. -/
def Bank.corrected (b : Bank) : Bank := { b with mapBad := b.mapBad.filter fun e => uncorrectable e.2 }

/-- The pass ends: VALID, or OPEN with the failures reported. A correctable error in the map is corrected in place (R144, R373). A word of
another table with an uncorrectable error fails the pass with RULE 6 (R144); that it gives STREAM and CYCLE 0, comes after every failing
entry and before RULE 7, and adds one to CHK_FAIL_CNT, is not stated (DESIGN CHOICE, log entry 16). -/
def State.endPass (s0 : State) : State :=
  let fixed := (s0.futureBank.mapBad.filter fun e => !uncorrectable e.2).length
  let s := (s0.modSch fun c => c.modBank c.future Bank.corrected).modMemRun (0x12 + s0.sch.future) fun r => { r with ce := satAdd r.ce fixed }
  let b := s0.futureBank.corrected
  let p := runChecker s0 b s0.checkBypass
  let x := validations s0 b
  let bad := b.tblBad.length
  let first : Nat × Nat × Nat := match p.first with
    | some f => f
    | none => if bad > 0 then (6, 0, 0) else if x.isEmpty then (0, 0, 0) else (7, 0, 0)
  let total := p.count + bad + x.length
  let x0 : XFail := x.head?.getD (0, 0, 0)
  let fail := BitVec.ofNat 32 (first.1 * 2 ^ 29 + first.2.1 * 2 ^ 21 + first.2.2 * 2 ^ 7)
  let cnt : W32 := satAdd 0 total
  let s' := s.modSch fun c =>
    let c := { (c.flag 4) with chkFail := fail, chkFailCnt := cnt, xFail := x0, opOrigin := none }
    if total = 0 then { (c.modBank c.future fun b => { b with useMask := b.streamUse }) with futState := .valid, checked := false }
    else { (c.flag 3) with futState := .opened, checked := true }
  match s.sch.opOrigin with
  | none => s'
  | some o =>
    if total = 0 then s'.complete o 0x0403 0 0 []
    else s'.complete o 0x0403 0x8007 0 (leBytes 4 fail.toNat ++ leBytes 4 cnt.toNat ++
      [BitVec.ofNat 8 x0.1, 0, 0, 0] ++ leBytes 4 x0.2.1 ++ leBytes 4 x0.2.2)

/-- The boundary after the 8th frame of the pass (R139). -/
def execSchCheckDone (s : State) : Result :=
  done (if s.sch.futState = .checking && 8 ≤ since s.tick s.sch.passStart then s.endPass else s)

end Sys2Proof.Machine
end

