-- ==== Sys2Proof/Machine/Aes.lean ====
section
/-!
DEFINITION. AES-256, the GCM arithmetic of SP 800-38D and the key unwrapping of RFC 3394, the standards that R4 names for the
cipher.
-/

namespace Sys2Proof.Machine

/-! ### AES-256 -/

/-- The S-box and its inverse: the entry of byte `a` stands in bits 8a to 8a + 7. -/
def sBox : Nat :=
  0x16BB54B00F2D99416842E6BF0D89A18CDF2855CEE9871E9B948ED9691198F8E19E1DC186B95735610EF6034866B53E708A8BBD4B1F74DDE8C6B4A61C2E2578BA08AE7A65EAF4566CA94ED58D6D37C8E779E4959162ACD3C25C2406490A3A32E0DB0B5EDE14B8EE4688902A22DC4F816073195D643D7EA7C41744975FEC130CCDD2F3FF1021DAB6BCF5389D928F40A351A89F3C507F02F94585334D43FBAAEFD0CF584C4A39BECB6A5BB1FC20ED00D153842FE329B3D63B52A05A6E1B1A2C830975B227EBE28012079A059618C323C7041531D871F1E5A534CCF73F362693FDB7C072A49CAFA2D4ADF04759FA7DC982CA76ABD7FE2B670130C56F6BF27B777C63

def sBoxBack : Nat :=
  0x7D0C2155631469E126D677BA7E042B17619953833CBBEBC8B0F52AAE4D3BE0A0EF9CC9939F7AE52D0D4AB519A97F51605FEC8027591012B131C7078833A8DD1FF45ACD78FEC0DB9A2079D2C64B3E56FC1BBE18AA0E62B76F89C5291D711AF1476EDF751CE837F9E28535ADE72274AC9673E6B4F0CECFF297EADC674F4111913A6B8A130103BDAFC1020F3FCA8F1E2CD00645B3B80558E4F70AD3BC8C00ABD890849D8DA75746155EDAB9EDFD5048706C92B6655DCC5CA4D41698688664F6F87225D18B6D49A25B76B224D92866A12E084EC3FA420B954CEE3D23C2A632947B54CBE9DEC444438E3487FF2F9B8239E37CFBD7F3819EA340BF38A53630D56A0952

def byteAt (v i : Nat) : Nat := (v >>> (8 * i)) &&& 0xFF

/-- Bytes looked up in a box and put in another order; the first byte of a block is its most significant one. -/
def aesMove (box : Nat) (order : List Nat) (v : Nat) : Nat :=
  order.foldl (fun x i => x * 256 + byteAt box (byteAt v (15 - i))) 0

/-- SubBytes with ShiftRows, which moves row `r` of the four columns `r` columns to the left, and their inverses. -/
def aesSub (v : Nat) : Nat := aesMove sBox [0, 5, 10, 15, 4, 9, 14, 3, 8, 13, 2, 7, 12, 1, 6, 11] v
def aesSubBack (v : Nat) : Nat := aesMove sBoxBack [0, 13, 10, 7, 4, 1, 14, 11, 8, 5, 2, 15, 12, 9, 6, 3] v

/-- Every byte of a block times x, modulo x^8 + x^4 + x^3 + x + 1. -/
def aesDouble (v : Nat) : Nat :=
  ((v &&& 0x7F7F7F7F7F7F7F7F7F7F7F7F7F7F7F7F) <<< 1) ^^^ (((v >>> 7) &&& 0x01010101010101010101010101010101) * 0x1B)

/-- Every column of a block turned up by `n` bytes. -/
def aesTurn (n v : Nat) : Nat :=
  let each := 0x00000001000000010000000100000001
  ((v &&& each * (2 ^ (32 - 8 * n) - 1)) <<< (8 * n)) ||| ((v >>> (32 - 8 * n)) &&& each * (2 ^ (8 * n) - 1))

/-- MixColumns: 2, 3, 1 and 1 times the bytes of a column from each byte on. Four of them are the identity. -/
def aesMix (v : Nat) : Nat :=
  let d := aesDouble v
  d ^^^ aesTurn 1 (d ^^^ v) ^^^ aesTurn 2 v ^^^ aesTurn 3 v

def aesMixBack (v : Nat) : Nat := aesMix (aesMix (aesMix v))

/-- The words of the key schedule, latest first, with `n` still to come. -/
def aesExpand : Nat → List Nat → List Nat
  | 0, w => w
  | n + 1, w =>
    let i := w.length
    let last := w.headD 0
    let sub (x : Nat) : Nat := [3, 2, 1, 0].foldl (fun y k => y * 256 + byteAt sBox (byteAt x k)) 0
    let t := if i % 8 = 0 then sub (last % 2 ^ 24 * 256 + last / 2 ^ 24) ^^^ 2 ^ (23 + i / 8) else if i % 8 = 4 then sub last else last
    aesExpand n ((t ^^^ w.getD 7 0) :: w)

/-- Words in groups of four, as blocks. -/
def aesGroup : List Nat → List Nat
  | a :: b :: c :: d :: r => (((a * 2 ^ 32 + b) * 2 ^ 32 + c) * 2 ^ 32 + d) :: aesGroup r
  | _ => []

/-- The 15 round keys of a 256-bit key. -/
def aesKeys (key : BitVec 256) : List Nat :=
  aesGroup (aesExpand 52 ((List.range 8).map fun i => (key.toNat >>> (32 * i)) % 2 ^ 32)).reverse

/-- The rounds after the first key addition, and those back from the last key on. -/
def aesRounds : List Nat → Nat → Nat
  | [], v => v
  | k :: r, v => aesRounds r (k ^^^ (if r.isEmpty then aesSub v else aesMix (aesSub v)))

def aesRoundsBack : List Nat → Nat → Nat
  | [], v => v
  | k :: r, v => aesRoundsBack r (if r.isEmpty then k ^^^ aesSubBack v else aesMixBack (k ^^^ aesSubBack v))

def aesEncrypt (keys : List Nat) (v : Nat) : Nat := aesRounds (keys.drop 1) (keys.headD 0 ^^^ v)

def aesDecrypt (keys : List Nat) (v : Nat) : Nat := aesRoundsBack (keys.reverse.drop 1) (keys.reverse.headD 0 ^^^ v)

/-- One block under a key, most significant byte first. -/
def aesBlock (key : BitVec 256) (x : BitVec 128) : BitVec 128 := BitVec.ofNat 128 (aesEncrypt (aesKeys key) x.toNat)

/-! ### GCM -/

/-- `y` times the hash key `h` in the field of GCM, whose first bit is the most significant; `n` bits of `y` remain. -/
def ghashTimes : Nat → BitVec 128 → BitVec 128 → BitVec 128
  | 0, _, _ => 0
  | n + 1, h, y =>
    let down := if h.getLsbD 0 then (h >>> 1) ^^^ BitVec.ofNat 128 (0xE1 * 2 ^ 120) else h >>> 1
    (if y.getLsbD n then h else 0) ^^^ ghashTimes n down y

/-- One step of the hash over a block of 16 bytes. -/
def ghashStep (h y x : BitVec 128) : BitVec 128 := ghashTimes 128 h (y ^^^ x)

/-- Counter block `n` of an invocation: the 96-bit IV and a 32-bit count. -/
def gcmCounter (iv : BitVec 96) (n : Nat) : BitVec 128 := BitVec.ofNat 128 (iv.toNat * 2 ^ 32 + n % 2 ^ 32)

/-! ### Key unwrapping -/

/-- One step of the unwrapping of RFC 3394: step number `t`, the integrity register `a` and the register at the end of `r`, which
moves to the front. -/
def kwStep (keys : List Nat) (a : Nat) (r : List Nat) (t : Nat) : Nat × List Nat :=
  let b := aesDecrypt keys ((a ^^^ t) * 2 ^ 64 + r.getLastD 0)
  (b / 2 ^ 64, b % 2 ^ 64 :: r.dropLast)

/-- The steps `t`, `t - 1`, down to 1. -/
def kwSteps (keys : List Nat) : Nat → Nat → List Nat → Nat × List Nat
  | 0, a, r => (a, r)
  | t + 1, a, r =>
    let p := kwStep keys a r (t + 1)
    kwSteps keys t p.1 p.2

/-- Unwrap 48 bytes under a key-encryption key: the integrity value, and the 40 bytes of plaintext (R273). -/
def kwUnwrap (kek : BitVec 256) (wrapped : List Byte) : Nat × List Byte :=
  let p := kwSteps (aesKeys kek) 30 (beNat (wrapped.take 8)) ((List.range 5).map fun i => beNat (slice wrapped (8 * i + 8) 8))
  (p.1, p.2.flatMap (beBytes 8))

end Sys2Proof.Machine
end

