-- ==== Sys2Proof/Machine/Pipeline.lean ====
section
/-!
DEFINITION. A cipher pipeline at work on the ODU frames of one bound tributary: areas of a frame, encryption overhead, the GCM
invocation of each authentication block (R253-R257, R261; log entry 34).
-/

namespace Sys2Proof.Machine

/-- Bytes of an ODU frame, of an authentication block, and payload bytes of a block (R253, R255). -/
def frameBytes : Nat := 15296
def blockBytes : Nat := 8 * frameBytes
def payloadBytes : Nat := 121856

/-- The area of a byte of a frame (R253): overhead that stays clear, encryption overhead byte 0 to 2, PSI, or payload. -/
inductive Area where
  | clear | eoh (i : Nat) | psi | payload
  deriving DecidableEq, Repr

/-- The area of byte `q` of a frame of 4 rows of 3,824 columns. -/
def areaOf (q : Nat) : Area :=
  let row := q / 3824
  let col := q % 3824 + 1
  if 17 ≤ col then .payload
  else if col = 15 then (if row < 3 then .eoh row else .psi)
  else .clear

def CBlock.iv (b : CBlock) : BitVec 96 := BitVec.ofNat 96 (b.salt.toNat * 2 ^ 48 + b.inv.toNat)

/-- The hash key of a block. -/
def CBlock.hashKey (b : CBlock) : BitVec 128 := aesBlock b.key 0

/-- The tag of a block whose additional data and ciphertext have been hashed to `y` (R255). -/
def CBlock.tagOf (b : CBlock) (y : BitVec 128) : BitVec 128 :=
  ghashStep b.hashKey y (BitVec.ofNat 128 (64 * 2 ^ 64 + 8 * payloadBytes)) ^^^ aesBlock b.key (gcmCounter b.iv 1)

/-- A block begins: the one announced, or one that passes unchanged where none was. The tag of the block before is kept where that
block was ciphered to its end. -/
def CStream.start (p : CStream) : CStream :=
  let b := p.queue.headD {}
  { p with
    tag := if p.cur.kind = .cipher && p.n = payloadBytes then p.tag else 0
    queue := p.queue.drop 1, cur := b, n := 0, part := 0
    y := if b.kind = .cipher then ghashStep b.hashKey 0 (BitVec.ofNat 128 (beNat b.hdr * 2 ^ 64)) else 0 }

/-- A pipeline that is not fed, or whose binding has closed, loses its alignment and its blocks; tags that are due stay so. -/
def CStream.idle (p : CStream) : CStream := { due := p.due, pt := p.pt }

/-- The payload byte `b` of a ciphered block, and what it becomes. The hash runs over the ciphertext. -/
def CStream.cipher (enc : Bool) (p : CStream) (b : Byte) : CStream × Byte :=
  let ks := if p.n % 16 = 0 then aesBlock p.cur.key (gcmCounter p.cur.iv (2 + p.n / 16)) else p.ks
  let o := b ^^^ BitVec.setWidth 8 (ks >>> (8 * (15 - p.n % 16)))
  let part := (p.part <<< 8) ||| BitVec.setWidth 128 (if enc then o else b)
  let full := p.n % 16 = 15
  let y := if full then ghashStep p.cur.hashKey p.y part else p.y
  let q := { p with ks := ks, part := if full then 0 else part, y := y, n := p.n + 1 }
  (if p.n + 1 != payloadBytes then q
   else if enc then { q with tag := p.cur.tagOf y }
   else { q with due := q.due ++ [(p.cur.ki, p.cur.tagOf y)] }, o)

/-- JC4 to JC6 with a sum CnD of 0: the ten bits are 0, and so is their CRC-5 (x^5 + x + 1, R254). -/
def restoredJc (i : Nat) : Byte := if i = 2 then BitVec.ofNat 8 (crcMsb 5 0x03 0 [0, 0]) else 0

/-- The byte that takes the place of encryption overhead byte `e` of a block (R254, R256). -/
def CStream.overhead (enc : Bool) (p : CStream) (e : Nat) (b : Byte) : Byte :=
  if !enc then (if Config.gmpPayload p.pt then restoredJc (e % 3) else 0)
  else if p.cur.kind = .clear then b
  else if e < 8 then p.cur.next.getD e 0
  else (beBytes 16 p.tag.toNat).getD (e - 8) 0

/-- The treatment of byte `q` of a block (R253). -/
def CStream.treat (enc : Bool) (p : CStream) (q : Nat) (b : Byte) : CStream × Byte :=
  match areaOf (q % frameBytes) with
  | .clear => (p, b)
  | .eoh i => (p, p.overhead enc (q / frameBytes * 3 + i) b)
  | .psi => (if p.mfas = 0 then { p with pt := b } else p, b)
  | .payload =>
    match p.cur.kind with
    | .clear => (p, b)
    | .leadIn => (p, 0)
    | .cipher => p.cipher enc b

/-- The frame alignment signal, and the number of frames without it after which alignment is lost. -/
def alignmentSignal : BitVec 48 := 0xF6F6F6282828#48
def alignmentLoss : Nat := 5

/-- The MFAS byte of a frame at byte 6, with whether the alignment signal stood before it: a block begins with a frame whose MFAS
is a multiple of 8 (R255), and a stream that is not aligned aligns to the first signal. -/
def CStream.align (p : CStream) (seen : Bool) (b : Byte) : CStream :=
  if seen then
    let f := b.toNat % 8
    let p := { p with pos := some (f * frameBytes + 7), miss := 0, mfas := b.toNat }
    if f = 0 then p.start else p
  else if p.miss + 1 = alignmentLoss then { p.idle with win := p.win }
  else
    let f := p.pos.getD 0 / frameBytes
    let p := { p with pos := some (f * frameBytes + 7), miss := p.miss + 1, mfas := (p.mfas + 1) % 256 }
    if f = 0 then p.start else p

/-- One byte through the pipeline. -/
def CStream.byte (enc : Bool) (p : CStream) (b : Byte) : CStream × Byte :=
  let win := (p.win <<< 8) ||| BitVec.setWidth 56 b
  let seen := BitVec.setWidth 48 (win >>> 8) = alignmentSignal
  let p := { p with win := win }
  match p.pos with
  | none => if seen then (p.align true b, b) else (p, b)
  | some q =>
    if q % frameBytes = 6 then (p.align seen b, b)
    else
      let r := p.treat enc q b
      ({ r.1 with pos := some ((q + 1) % blockBytes) }, r.2)

def CStream.bytes (enc : Bool) : CStream → List Byte → CStream × List Byte
  | p, [] => (p, [])
  | p, b :: l =>
    let r := p.byte enc b
    let z := CStream.bytes enc r.1 l
    (z.1, r.2 :: z.2)

/-- Words of a tributary through the pipeline; a word's most significant byte is the first (log entry 34). -/
def CStream.words (enc : Bool) : CStream → List W64 → CStream × List W64
  | p, [] => (p, [])
  | p, w :: l =>
    let r := p.bytes enc (beBytes 8 w.toNat)
    let z := CStream.words enc r.1 l
    (z.1, BitVec.ofNat 64 (beNat r.2) :: z.2)

end Sys2Proof.Machine
end

