-- ==== Sys2Proof/Machine/Images.lean ====
section
/-!
DEFINITION. Schedule images: delivery through the descriptors, the checks of header and section table, the records of
each section, and the end of a load (chapter 07, R178-R180).
-/

namespace Sys2Proof.Machine

/-- The first failure found in an image: reason, section TYPE and record index (R179). -/
structure ImgErr where
  reason : Nat
  ty     : Nat := 0
  idx    : Nat := 0xFFFF_FFFF
  deriving DecidableEq, Repr

def ImgErr.status (e : ImgErr) : Nat := if e.reason = 0x0A then 0x8004 else if e.reason = 0x0B then 0x8005 else 0x8007

/-- The fields from +8 on: reason at +8, TYPE at +12, record index at +16 (R345). -/
def ImgErr.bytes (e : ImgErr) : List Byte := [BitVec.ofNat 8 e.reason, 0, 0, 0] ++ leBytes 4 e.ty ++ leBytes 4 e.idx

/-! ### Delivery (R346) -/

/-- Read `n` bytes of host memory at `a`: none where an address does not answer. -/
def hostRead (h : HostMem) (a n : Nat) : Option (List Byte) :=
  if n = 0 then some []
  else h.findSome? fun e => if e.1 ≤ a && a + n ≤ e.1 + e.2.length then some (slice e.2 (a - e.1) n) else none

structure Delivery where
  data  : List Byte := []
  total : Nat := 0
  fail  : Bool := false
  stop  : Bool := false

/-- Read the descriptors in index order up to LAST; a failed read ends the delivery (R346, R178). -/
def deliver (descs : Tbl W32) (h : HostMem) (first count : Nat) : Delivery :=
  (List.range count).foldl (fun d i =>
    if d.stop then d
    else
      let w (k : Nat) := (tget 0 descs (4 * (first + i) + k)).toNat
      let d' := { d with total := d.total + w 2, stop := w 3 % 2 = 1 }
      if d.fail then d'
      else match hostRead h (w 0 + w 1 * 2 ^ 32) (w 2) with
        | some l => { d' with data := d.data ++ l }
        | none => { d' with fail := true }) {}

/-! ### Header and section table (R164-R168) -/

/-- One entry of the section table (R166). -/
structure SecEntry where
  ty     : Nat
  ver    : Nat
  flags  : Nat
  offset : Nat
  length : Nat
  count  : Nat
  crc    : Nat

def secEntry (d : List Byte) (i : Nat) : SecEntry :=
  let o := 0x100 + 32 * i
  ⟨leAt d o 4, leAt d (o + 4) 2, leAt d (o + 6) 2, leAt d (o + 8) 8, leAt d (o + 16) 8, leAt d (o + 24) 4, leAt d (o + 28) 4⟩

def imgSections (d : List Byte) : List SecEntry := (List.range (leAt d 0x1A 1)).map (secEntry d)
def imgSize (d : List Byte) : Nat := leAt d 0x20 8
def imgDelta (d : List Byte) : Bool := leAt d 0x19 1 = 1
def imgId (d : List Byte) : Nat := leAt d 8 8
def imgDigest (d : List Byte) : List Byte := slice d 0x40 32

def allZero (l : List Byte) : Bool := l.all (· = 0)

def headerOk (d : List Byte) : Bool :=
  leAt d 0 4 = 0x53474C53 && leAt d 4 1 = 1 && leAt d 6 2 = 0x100 && leAt d 0x19 1 ≤ 1 && leAt d 0x1B 5 = 0 &&
  allZero (slice d 0x30 16) && allZero (slice d 0x60 156) && crc32c (slice d 0 0xFC) = leAt d 0xFC 4

def knownTypes : List Nat := [tyCMAP, tyMUXC, tyPARA, tySHDW, tyEPWL, tyCKEY, tyPGRP]

def pad64 (n : Nat) : Nat := (n + 63) / 64 * 64

/-- LENGTH against the section's layout for RECORD_COUNT (R167). A work-list section's items are counted as it is read. -/
def SecEntry.lengthOk (e : SecEntry) : Bool :=
  if e.ty = tyCMAP then
    (if e.flags % 2 = 1 then e.length = 12 * e.count else e.count = 2097152 && e.length = 16777216)
  else if e.ty = tyMUXC then e.length = 64 * e.count
  else if e.ty = tyPARA then e.length = 528 * e.count
  else if e.ty = tySHDW then e.length = 16 * e.count
  else if e.ty = tyEPWL then 16 + 16 * e.count ≤ e.length && e.length % 16 = 0
  else if e.ty = tyCKEY then e.length = 8 * e.count
  else e.length = pad64 (32 * e.count) + 65536

/-- The section table's rules; `pos` is the first byte the next section may take (R163, R166, R167). -/
def tableErr (size : Nat) : Nat → List Nat → List SecEntry → Option ImgErr
  | _, _, [] => none
  | pos, seen, e :: r =>
    if knownTypes.contains e.ty && !seen.contains e.ty && e.ver = 1 && e.flags ≤ 1 && e.offset % 64 = 0 && pos ≤ e.offset &&
      e.offset + e.length ≤ size && e.lengthOk
    then tableErr size (e.offset + e.length) (e.ty :: seen) r
    else some { reason := 5, ty := e.ty }

/-- Step 1 of R178: the checks before the response. -/
def step1 (s : State) (d : Delivery) : Option ImgErr :=
  let l := d.data
  if l.length < 256 then some { reason := 2 }
  else if !headerOk l then some { reason := 1 }
  else if 67108864 < imgSize l || d.total < imgSize l || l.length < 0x100 + 32 * leAt l 0x1A 1 then some { reason := 2 }
  else if leAt l 0x18 1 != s.twin.index.toNat then some { reason := 3 }
  else if imgId l = 0 || (if imgDelta l then leAt l 0x10 8 != s.futureBank.id.toNat else leAt l 0x10 8 != 0) then some { reason := 4 }
  else if leAt l 0x1A 1 = 0 || 7 < leAt l 0x1A 1 then some { reason := 5 }
  else match tableErr (imgSize l) (0x100 + 32 * leAt l 0x1A 1) [] (imgSections l) with
    | some e => some e
    | none =>
      if s.rst.variant = 2 && (imgSections l).any (fun e => e.ty = tyCKEY && e.count > 0) then some { reason := 0x0B, ty := tyCKEY }
      else none

/-! ### Records -/

/-- Cut a list into pieces of `n`; a shorter rest is dropped. -/
def chunks (n : Nat) (l : List Byte) : List (List Byte) := (List.range (l.length / n)).map fun i => slice l (n * i) n

/-- Read records one after another. `f` gives a record's key and its change of the bank, or none where the record breaks a
rule; keys must rise strictly. `base` is the index of the first. -/
def readRecords (f : List Byte → Option (Nat × (Bank → Bank))) : Nat → Option Nat → List (List Byte) → Bank → Nat ⊕ Bank
  | _, _, [], b => .inr b
  | i, prev, r :: rest, b =>
    match f r with
    | none => .inl i
    | some (k, g) => if prev.any (k ≤ ·) then .inl i else readRecords f (i + 1) (some k) rest (g b)

def delFlag (delta : Bool) (flags : Nat) : Option Bool :=
  if bitOf flags 1 then (if delta then some true else none) else some false

/-- A sparse CMAP record (R170). -/
def recCmap (r : List Byte) : Option (Nat × (Bank → Bank)) :=
  let k := leAt r 0 4
  let e : Entry := BitVec.ofNat 48 (leAt r 4 6)
  if k < 2097152 && leAt r 10 2 = 0 then
    some (k, fun b => { b with
      cmap := tput 0 b.cmap k e, mapBad := tdel b.mapBad k, dead := without b.dead k, written := if b.undef.isSome then addNew b.written k else b.written })
  else none

/-- The records of a full CMAP (R169): entry `i` at 8 × i. -/
def readFullMap (l : List Byte) (b : Bank) : Nat ⊕ Bank :=
  let es := (chunks 8 l).zipIdx
  match es.find? fun p => leAt p.1 6 2 != 0 with
  | some p => .inl p.2
  | none => .inr { b with
      cmap := (es.map fun p => (p.2, (BitVec.ofNat 48 (leAt p.1 0 6) : Entry))).filter (fun e => e.2 != 0), mapBad := [], dead := [], undef := none, written := [] }

/-- A MUXC record (R171). Of a record with DELETE only the key and the reserved bytes are checked (log entry 20). -/
def recMuxc (delta : Bool) (r : List Byte) : Option (Nat × (Bank → Bank)) :=
  let rt := leAt r 0 1
  let fl := leAt r 1 1
  let t := leAt r 2 2
  let a := leAt r 4 2
  let dir := rt - 1
  let c : CtxCfg := {
    active := bitOf fl 0, type := BitVec.ofNat 3 (leAt r 7 1), stream := BitVec.ofNat 7 (leAt r 8 1), idx := BitVec.ofNat 7 (leAt r 9 1)
    n := leAt r 12 2, qsMask := BitVec.ofNat 80 (leAt r 16 10), lineTs := BitVec.ofNat 80 (leAt r 32 10), tpn := BitVec.ofNat 8 (leAt r 10 1)
    resize := BitVec.ofNat 2 (leAt r 11 1), evictRank := BitVec.ofNat 8 (leAt r 14 1), group := leAt r 6 1 }
  if (rt = 1 || rt = 2) && fl < 4 && t < 16384 && a < 4096 && leAt r 15 1 = 0 && leAt r 26 6 = 0 && allZero (slice r 42 22) then
    match delFlag delta fl with
    | none => none
    | some true => some ((dir * 16384 + t) * 4096 + a, fun b =>
        if a != 0 then { b.cleaned 3 (altKey dir t a) with alt := tdel b.alt (altKey dir t a) }
        else if dir = 0 then { b.cleaned 1 t with ing := tdel b.ing t } else { b.cleaned 2 t with eg := tdel b.eg t })
    | some false =>
      if leAt r 6 1 < 128 && leAt r 7 1 < 8 && leAt r 8 1 < 128 && leAt r 9 1 < 128 && leAt r 10 1 < 128 && leAt r 11 1 < 3 &&
        1 ≤ c.n && c.n ≤ 16000 then
        some ((dir * 16384 + t) * 4096 + a, fun b =>
          if a != 0 then { b.cleaned 3 (altKey dir t a) with alt := tins b.alt (altKey dir t a) c }
          else if dir = 0 then { b.cleaned 1 t with ing := tins b.ing t c } else { b.cleaned 2 t with eg := tins b.eg t c })
      else none
  else none

/-- A conjugation entry, or none where it breaks R173. -/
def recConj (r : List Byte) : Option Conj :=
  let n := leAt r 4 1
  let sets := (List.range 12).map fun i => leAt r (8 + 2 * i) 2
  if n ≤ 12 && leAt r 5 3 = 0 && (sets.take n).all (fun a => 1 ≤ a && a ≤ 4095) && (sets.drop n).all (· = 0) then
    some { m := leAt r 0 2, sliceMask := BitVec.ofNat 16 (leAt r 2 2), sets := sets.take n }
  else none

/-- A PARA record (R173). -/
def recPara (delta : Bool) (r : List Byte) : Option (Nat × (Bank → Bank)) :=
  let g := leAt r 0 1
  let n := leAt r 1 1
  let fl := leAt r 3 1
  if g < 128 && (fl = 0 || fl = 2) && allZero (slice r 4 12) then
    match delFlag delta fl with
    | none => none
    | some true => some (g, fun b => { b.cleaned 4 g with para := tdel b.para g })
    | some false =>
      let cs := (List.range 16).map fun i => slice r (16 + 32 * i) 32
      match (cs.take n).mapM recConj with
      | some l =>
        if 1 ≤ n && n ≤ 16 && leAt r 2 1 < n && (cs.drop n).all allZero then
          some (g, fun b => { b.cleaned 4 g with para := tins b.para g { init := leAt r 2 1, conjs := l } })
        else none
      | none => none
  else none

/-- An SHDW record (R174). -/
def recShdw (delta : Bool) (r : List Byte) : Option (Nat × (Bank → Bank)) :=
  let x : Shdw := ⟨leAt r 0 2, leAt r 2 2, leAt r 4 2, leAt r 6 1, leAt r 7 1, leAt r 8 1, leAt r 12 4⟩
  let fl := leAt r 9 1
  if x.srcT < 16384 && x.parkT < 16384 && (fl = 0 || fl = 2) && leAt r 10 2 = 0 then
    match delFlag delta fl with
    | none => none
    | some true => some (shdwKey x, fun b => { b.cleaned 9 (shdwKey x) with shdw := b.shdw.filter fun y => shdwKey y != shdwKey x })
    | some false =>
      if x.homeT < 16384 && x.homeG < 128 && x.fallG < 128 && x.upto < 16 then
        some (shdwKey x, fun b => { b.cleaned 9 (shdwKey x) with
          shdw := (b.shdw.filter fun y => shdwKey y < shdwKey x) ++ [x] ++ b.shdw.filter fun y => shdwKey x < shdwKey y })
      else none
  else none

/-- A CKEY record (R176). -/
def recCkey (delta : Bool) (r : List Byte) : Option (Nat × (Bank → Bank)) :=
  let t := leAt r 0 2
  let slot := leAt r 2 2
  let dir := leAt r 4 1
  let fl := leAt r 5 1
  let k := dir * 16384 + t
  if t < 16384 && dir < 2 && fl < 12 && leAt r 6 2 = 0 then
    match delFlag delta fl with
    | none => none
    | some true => some (k, fun b => { b.cleaned 6 k with ckey := tdel b.ckey k })
    | some false =>
      if slot < 16384 then some (k, fun b => { b.cleaned 6 k with ckey := tins b.ckey k ⟨slot, bitOf fl 0, BitVec.ofNat 2 (fl / 4)⟩ }) else none
  else none

/-- A PGRP record (R177); a 1:1 group must have APS 1 (R232). -/
def recPgrp (delta : Bool) (r : List Byte) : Option (Nat × (Bank → Bank)) :=
  let k := leAt r 0 2
  let ty := leAt r 2 1
  let fl := leAt r 3 1
  let ep (o : Nat) := leAt r o 4
  if k < 8192 && fl < 32 && leAt r 28 4 = 0 then
    match delFlag delta fl with
    | none => none
    | some true => some (k, fun b => { b.cleaned 7 k with pgs := tdel b.pgs k })
    | some false =>
      if 1 ≤ ty && ty ≤ 6 && (ty % 2 = 1 || bitOf fl 3) && leAt r 4 1 < 128 && leAt r 5 1 < 2 && leAt r 6 1 < 128 && leAt r 7 1 < 2 &&
        leAt r 8 2 < 16384 && leAt r 10 2 < 16384 && ep 12 < 262144 && ep 16 < 262144 && (ep 20 < 262144 || ep 20 = 0xFFFF_FFFF) &&
        leAt r 24 1 ≤ 100 && leAt r 25 1 ≤ 2 && leAt r 26 2 ≤ 720 then
        some (k, fun b => { b.cleaned 7 k with pgs := tins b.pgs k {
          type := ty, active := bitOf fl 0, revertive := bitOf fl 2, aps := bitOf fl 3, sd := bitOf fl 4, wPond := leAt r 4 1, wRp := leAt r 5 1 = 1
          pPond := leAt r 6 1, pRp := leAt r 7 1 = 1, wT := leAt r 8 2, pT := leAt r 10 2, wEp := ep 12, pEp := ep 16, apsEp := ep 20
          holdOff := leAt r 24 1, init := leAt r 25 1, wtr := leAt r 26 2 } })
      else none
  else none

/-- The select-list block: element `i` of stream `s` at 2 × (256 s + i) (R177). -/
def readSelect (base : Nat) (l : List Byte) (b : Bank) : Nat ⊕ Bank :=
  let es := (chunks 2 l).zipIdx
  match es.find? fun p => 8192 ≤ leNat p.1 && leNat p.1 != 0xFFFF with
  | some p => .inl (base + p.2)
  | none => .inr { b with tblBad := b.tblBad.filter (fun w => w / 2 ^ 40 != 8), sel := (es.map fun p => (p.2, leNat p.1)).filter fun e => e.2 != 0xFFFF }

/-- FUNC, OBJ_KIND, OBJ, OBJ2, LEVEL and MODE of a work-list item within the ranges of R209 and R210. -/
def itemOk (func : Nat) (a : List Byte) : Bool :=
  let kind := leAt a 0 1
  let obj := leAt a 1 2
  let obj2 := leAt a 3 2
  let level := leAt a 5 1
  let ranges := kind ≤ 4 && (if kind ≤ 1 then obj < 32 else obj < 16384) && (if kind = 4 then obj2 < 16384 else obj2 = 0) &&
    leAt a 6 1 ≤ 1 && leAt a 7 1 = 0
  ranges && match func with
    | 0x0000 => level = 0
    | 0x0001 => kind = 0 && level = 0
    | 0x0010 | 0x0011 => kind = 1 && level = 0
    | 0x0012 => kind = 1 && level ≤ 6
    | 0x0020 => 2 ≤ kind && level = 0
    | 0x0021 => 2 ≤ kind && 1 ≤ level && level ≤ 6
    | 0x0030 => kind = 4 && level ≤ 6
    | _ => false

def recItem (engine : Nat) (r : List Byte) : Option Item :=
  let ep := leAt r 0 4
  if ep / 256 = engine && itemOk (leAt r 4 2) (slice r 8 8) then some ⟨ep, leAt r 4 2, leAt r 6 2, slice r 8 8⟩ else none

/-- The 16-byte header of an engine block keeps the ranges of R175, and ENGINE rises. -/
def blockHeadOk (prev : Option Nat) (l : List Byte) : Bool :=
  leAt l 0 2 < 1024 && leAt l 2 2 < 1024 && leAt l 4 2 ≤ 1024 && leAt l 6 2 = 0 && leAt l 12 4 = 0 && !prev.any (leAt l 0 2 ≤ ·)

/-- The engine blocks one after another (R175). Blocks that do not fill LENGTH exactly break R167; `cut` tells that the delivery
ends in the section. -/
def readBlocks (cut : Bool) : Nat → Nat → Option Nat → List Byte → Bank → ImgErr ⊕ Bank
  | 0, _, _, l, b => if l.isEmpty then .inr b else .inl { reason := 5, ty := tyEPWL }
  | n + 1, i, prev, l, b =>
    let items := leAt l 4 2
    let short := l.length < 16 || l.length < 16 + 16 * items
    if cut && short then .inl { reason := 2 }
    else if l.length < 16 then .inl { reason := 5, ty := tyEPWL }
    else if !blockHeadOk prev l then .inl { reason := 7, ty := tyEPWL, idx := i }
    else if short then .inl { reason := 5, ty := tyEPWL }
    else match (chunks 16 (slice l 16 (16 * items))).mapM (recItem (leAt l 0 2)) with
      | some is => readBlocks cut n (i + 1) (some (leAt l 0 2)) (l.drop (16 + 16 * items))
          { b.cleaned 5 (leAt l 0 2) with epwl := tins b.epwl (leAt l 0 2) ⟨leAt l 2 2, leAt l 8 4, is⟩ }
      | none => .inl { reason := 7, ty := tyEPWL, idx := i }

/-- Where a section's records fail, with the reason. Of a section that is delivered in part only whole records are checked. -/
def readSection (s : State) (delta : Bool) (e : SecEntry) (l : List Byte) (b : Bank) : ImgErr ⊕ Bank :=
  let fail (i : Nat) : ImgErr := { reason := 7, ty := e.ty, idx := i }
  let lift (x : Nat ⊕ Bank) : ImgErr ⊕ Bank := match x with
    | .inl i => .inl (fail i)
    | .inr b => .inr b
  if e.ty = tyCMAP then
    (if e.flags % 2 = 1 then lift (readRecords recCmap 0 none (chunks 12 l) b) else lift (readFullMap l b))
  else if e.ty = tyMUXC then lift (readRecords (recMuxc delta) 0 none (chunks 64 l) b)
  else if e.ty = tyPARA then lift (readRecords (recPara delta) 0 none (chunks 528 l) b)
  else if e.ty = tySHDW then lift (readRecords (recShdw delta) 0 none (chunks 16 l) b)
  else if e.ty = tyCKEY then lift (readRecords (recCkey delta) 0 none (chunks 8 l) b)
  else if e.ty = tyEPWL then
    if l.length < 16 then .inl { reason := 2 }
    else if leAt l 0 4 != s.eng.ucodeId.toNat then .inl { reason := 0x0C, ty := e.ty }
    else if !allZero (slice l 4 12) then .inl (fail 0xFFFF_FFFF)
    else readBlocks (l.length < e.length) e.count 0 none (l.drop 16) b
  else
    match readRecords (recPgrp delta) 0 none (chunks 32 (l.take (32 * e.count))) b with
    | .inl i => .inl (fail i)
    | .inr b =>
      if !allZero (slice l (32 * e.count) (pad64 (32 * e.count) - 32 * e.count)) then .inl (fail 0xFFFF_FFFF)
      else lift (readSelect e.count (l.drop (pad64 (32 * e.count))) b)

/-- Step 2 of R178: the sections and the padding in byte order; `pos` is the byte reached. -/
def readSections (s : State) (d : List Byte) (delta : Bool) (size : Nat) : Nat → List SecEntry → Bank → ImgErr ⊕ Bank
  | pos, [], b =>
    if !allZero (slice d pos (size - pos)) then .inl { reason := 5 }
    else if d.length < size then .inl { reason := 2 }
    else .inr b
  | pos, e :: r, b =>
    if !allZero (slice d pos (e.offset - pos)) then .inl { reason := 5, ty := e.ty }
    else if d.length < e.offset then .inl { reason := 2 }
    else
      let l := slice d e.offset e.length
      match readSection s delta e l b with
      | .inl x => .inl x
      | .inr b =>
        if l.length < e.length then .inl { reason := 2 }
        else if crc32c l != e.crc then .inl { reason := 6, ty := e.ty } else readSections s d delta size (e.offset + e.length) r b

/-! ### Step 3 and step 4 -/

/-- The digest of an image, its own field and HEADER_CRC taken as zero (R165). -/
def imageDigest (d : List Byte) : List Byte :=
  sha256 (slice d 0 0x40 ++ List.replicate 32 0 ++ slice d 0x60 0x9C ++ List.replicate 4 0 ++ d.drop 0x100)

/-- R172: every alternative has a base record that it matches in all but ACTIVE, TPN and LINE_TS. -/
def altsOk (b : Bank) : Bool :=
  b.alt.all fun e =>
    let k := e.1 / 4096
    match tfind (if k / 16384 = 0 then b.ing else b.eg) (k % 16384) with
    | some c => { e.2 with active := c.active, tpn := c.tpn, lineTs := c.lineTs } = c
    | none => false

/-- R87 over the base configuration: every stream with active contexts, in both directions, serves a line group (rule 1) and keeps rules
2-8 (R172). -/
def baseOk (s : State) (b : Bank) : Bool :=
  [b.ing, b.eg].all fun t =>
    ((t.filterMap fun e => if e.2.active then some e.2.stream.toNat else none).eraseDups).all
      fun st => s.serves st && streamCtxOk (s.otlStream st) (onStream t st)

/-- Step 4 of R178: R87 and R172 over the base configuration, then the streams that entries and contexts name. A base context on a
stream that serves no group is found first, by rule 1 of R87. -/
def mergedErr (s : State) (b : Bank) : Option ImgErr :=
  if !baseOk s b || !altsOk b then some { reason := 9, ty := tyMUXC }
  else if !b.entryNames.all s.usable then some { reason := 0x0A, ty := tyCMAP }
  else if !b.ctxNames.all s.serves then some { reason := 0x0A, ty := tyMUXC }
  else none

/-- What the Future bank becomes, or the first failure (steps 2-4 of R178). -/
def loadImage (s : State) (readErr : Bool) (d : List Byte) : ImgErr ⊕ Bank :=
  let delta := imgDelta d
  let base : Bank := if delta then s.futureBank else {}
  let size := imgSize d
  match readSections s d delta size (0x100 + 32 * leAt d 0x1A 1) (imgSections d) base with
  | .inl e => .inl e
  | .inr b =>
    if readErr then .inl { reason := 2 }
    else if imageDigest (d.take size) != imgDigest d then .inl { reason := 8 }
    else match mergedErr s b with
      | some e => .inl e
      | none => .inr { b with id := BitVec.ofNat 64 (imgId d) }

/-! ### The load -/

/-- A rejected load (R142): the bank is OPEN with schedule ID 0, and the content of all its tables is undefined (log entry 21). -/
def State.rejectLoad (e : ImgErr) (s : State) : State :=
  match s.sch.load with
  | none => s
  | some l =>
    (({ s with drawn := s.drawn + 1 }.modSch fun c => { ((c.modBank c.future fun b => { (b.undefMap s.drawn).undefTables s.drawn with id := 0, useMask := 0 }).flag 1) with
      futState := .opened, load := none }).count 557 1).complete (l.mb, l.seq) 0x0401 e.status 0 e.bytes

/-- The image of a load: read anew from the first descriptor where the load restarted at a takeover (R330), else as it was delivered when
the command was taken. The checks of step 1 apply to what is read anew. -/
def State.loadData (l : Load) (s : State) : ImgErr ⊕ (Bool × List Byte) :=
  if l.again then
    let d := deliver s.sch.descs l.host l.first l.count
    match step1 s d with
    | some e => .inl e
    | none => .inr (d.fail, d.data.take (imgSize d.data))
  else .inr (l.readErr, l.image)

/-- What a load brings: its bank and image, or the first failure. -/
def State.loadOutcome (l : Load) (s : State) : ImgErr ⊕ (Bank × List Byte) :=
  match s.loadData l with
  | .inl e => .inl e
  | .inr (failed, image) => match loadImage s failed image with
    | .inl e => .inl e
    | .inr b => .inr (b, image)

/-- An undefined image is rejected by the checks (R346); which failure comes first is free. -/
def State.rejectUndefined (s : State) : State :=
  let d := s.draw 72
  d.2.rejectLoad { reason := 1 + fld d.1.toNat 0 8 % 12, ty := fld d.1.toNat 8 32, idx := fld d.1.toNat 40 32 }

/-- The load ends with its whole image read: loaded, or rejected with the first failure (R178-R180). -/
def State.endLoad (s : State) : State :=
  match s.sch.load with
  | none => s
  | some l =>
    if l.undef then s.rejectUndefined
    else match s.loadOutcome l with
    | .inl e => s.rejectLoad e
    | .inr (b, image) =>
      ((s.modSch fun c => { (c.modBank c.future fun _ => b) with
        futState := .opened, load := none, checked := false, digest := imgDigest image }).count 557 1).complete (l.mb, l.seq) 0x0401 0
        (b2n (imgDelta image)) (leBytes 8 (imgId image) ++ imgDigest image)

/-- A destructive march runs on W2, through which DMA-S stages a load: its accesses end in decode errors, of which the first is recorded
(R368, R379); what it stages is undefined (DESIGN CHOICE, log entry 41). -/
def State.stagingMarched (s : State) : Bool := s.mem.marches.any fun m => m.destr && m.memory = 0x02

/-- The checks of step 1; a read that failed before the section table was complete sets S_READ_ERR (R178). -/
def schLoadBody (h : HostMem) (r : MbReq) (s : State) : Ans × State :=
  if !s.glb.bme then (.denied, s)
  else if s.futureBusy then (.busy, s)
  else
    let d := deliver s.sch.descs h (r.u16 0) (r.u16 2)
    match step1 s d with
    | some e =>
      let s := if d.fail && d.data.length < 0x100 + 32 * leAt d.data 0x1A 1 then s.modGlb fun g => { g with dmaSticky := g.dmaSticky ||| 1 } else s
      (⟨e.status, [0, 0, 0, 0, 0, 0, 0, 0] ++ e.bytes⟩, s)
    | none =>
      let s' := if s.stagingMarched then s.decodeError .dmaS true 3 0x10400000 else s
      (s.accepted, s'.modSch fun c => { c with
        futState := .loading, digest := [], load := some {
          mb := r.mb, seq := r.seq, image := d.data.take (imgSize d.data), short := d.data.length < imgSize d.data, readErr := d.fail
          first := r.u16 0, count := r.u16 2, host := h, undef := s.stagingMarched } })

def schLoadForm : Form := .fixed 4 fun r => r.u16 0 ≤ 1023 && 1 ≤ r.u16 2 && r.u16 0 + r.u16 2 ≤ 1024

/-- A load that waits keeps the host memory it is to read. -/
def Mbx.keepHost (o : Nat × W16) (h : HostMem) (m : Mbx) : Mbx :=
  { m with waiting := m.waiting.map fun w => if w.code = 0x0401 && w.req.origin = o then { w with host := h } else w }

/-- Load a schedule image into the Future bank (R161, R178, R346). -/
def execSchLoad (r : MbReq) (host : HostMem) (s : State) : Result :=
  done ((s.ring 0x0401 (runForm 0x0401 schLoadForm (schLoadBody host)) r).modMbx (Mbx.keepHost r.origin host))

/-- The load ends by itself (R178). -/
def execSchLoadDone (s : State) : Result :=
  done ((if s.sch.load.any fun l => l.readErr || (l.again && (deliver s.sch.descs l.host l.first l.count).fail) then s.modGlb fun g => { g with dmaSticky := g.dmaSticky ||| 1 } else s).endLoad)

/-- A DMA-S read of the image fails (R178): the load ends with reason 0x02 and S_READ_ERR is set. -/
def execDmaSReadError (s : State) : Result :=
  done (if s.sch.load.isSome then (s.modGlb fun g => { g with dmaSticky := g.dmaSticky ||| 1 }).rejectLoad { reason := 2 } else s)

end Sys2Proof.Machine
end

