-- ==== Sys2Proof/Machine/Endpoints.lean ====
section
/-!
DEFINITION. The endpoint stores of the engine islands, the items of work lists, and the events that lanes and protection groups count
in an endpoint (chapter 09).
-/

namespace Sys2Proof.Machine

/-! ### Stores (R218, R222) -/

def Eng.run (e : Eng) (i : Nat) : EngRun := tget {} e.engs i
def Eng.modRun (i : Nat) (f : EngRun → EngRun) (e : Eng) : Eng := { e with engs := tmod {} e.engs i f }

/-- The 64-bit words of an endpoint's store that a march left undefined (R379). -/
def undefWords (n ep k count : Nat) : List Byte := (List.range count).flatMap fun i => leBytes 8 (Config.undefMem n (ep * 64 + k + i)).toNat

def undefDesc (n ep : Nat) : Desc :=
  let w (k : Nat) : W64 := Config.undefMem n (ep * 64 + k)
  { ttiTx := undefWords n ep 0 8, ttiExp := undefWords n ep 8 4, timMode := (w 12).setWidth 8, degMode := (w 13).setWidth 8
    degThr := (w 14).setWidth 32, degM := (w 15).setWidth 8, tcmMode := (w 16).setWidth 8, bdiBei := (w 17).setWidth 8 }

/-- A descriptor: the defaults of R218, or what a march of the store left. -/
def Eng.desc (e : Eng) (ep : Nat) : Desc :=
  (tfind e.descs ep).getD (match tfind e.fill (ep / 65536) with
    | none => {}
    | some 0 => { degThr := 0, degM := 0, bdiBei := 0 }
    | some (n + 1) => undefDesc n ep)

def Eng.ep (e : Eng) (ep : Nat) : EpRun :=
  (tfind e.eps ep).getD (match tfind e.fill (ep / 65536) with
    | some (n + 1) => {
        defects := (Config.undefMem n (ep * 64 + 20)).setWidth 32, tti := undefWords n ep 21 8
        cnt := (List.range 8).map fun i => (i, (Config.undefMem n (ep * 64 + 30 + i)).setWidth 32)
        latched := (List.range 8).map fun i => (i, (Config.undefMem n (ep * 64 + 40 + i)).setWidth 32) }
    | _ => {})

def Eng.modEp (ep : Nat) (f : EpRun → EpRun) (e : Eng) : Eng :=
  { e with eps := if (tfind e.fill (ep / 65536)).isSome then tins e.eps ep (f (e.ep ep)) else tput {} e.eps ep (f (e.ep ep)) }

/-- Counter `i` of the latched bank (R223-R226). -/
def Eng.latched (e : Eng) (ep i : Nat) : W32 :=
  tget 0 (e.ep ep).latched i ||| (if i = 7 && e.suspectAll then 0x4000_0000 else 0)

/-! ### Items (R209, R210) -/

def Item.kind (i : Item) : Nat := leAt i.args 0 1
def Item.obj (i : Item) : Nat := leAt i.args 1 2
def Item.obj2 (i : Item) : Nat := leAt i.args 3 2
def Item.level (i : Item) : Nat := leAt i.args 5 1
def Item.monitor (i : Item) : Bool := leAt i.args 6 1 = 1
def Item.island (i : Item) : Nat := i.ep / 65536
/-- The ingress context that an item reads. -/
def Item.ingress (i : Item) : Option Nat := if i.kind = 2 || i.kind = 4 then some i.obj else none
/-- Section, path and TCM functions. -/
def Item.path (i : Item) : Bool := 0x10 ≤ i.func && i.func < 0x30

def Bank.items (b : Bank) : List Item := b.epwl.flatMap fun e => e.2.items

def Bank.itemOf (b : Bank) (ep : Nat) : Option Item := b.items.find? (·.ep = ep)

/-! ### Counting (R222) -/

def bump (t : Tbl W32) (k n : Nat) : Tbl W32 := tmod 0 t k fun c => satAdd c n
def orIn (t : Tbl W32) (k v : Nat) : Tbl W32 := tmod 0 t k fun c => c ||| BitVec.ofNat 32 v

/-- An event in every endpoint of the Present schedule whose item satisfies `which`: `n` more in counter `k`. -/
def State.countItems (which : Item → Bool) (k n : Nat) (s : State) : State :=
  if n = 0 then s
  else s.modEng fun e => (s.presentBank.items.filter which).foldl (fun e i => e.modEp i.ep fun x => { x with cnt := bump x.cnt k n }) e

/-- A FLEXO_LANE item of lane `n`. -/
def Item.ofLane (n : Nat) (i : Item) : Bool := i.func = 1 && 32 * i.island + i.obj = n

def State.countLane (n k m : Nat) (s : State) : State := s.countItems (Item.ofLane n) k m

end Sys2Proof.Machine
end

