-- ==== Sys2Proof/Machine/Lanes.lean ====
section
/-!
DEFINITION. Lanes and line groups: alignment, failure events, retirement, deskew, OSMC and the GRP commands (chapter 03).
The boundary-timed parts are functions that FRAME_BOUNDARY calls.
-/

namespace Sys2Proof.Machine

/-! ### Which group and instance a lane belongs to (R61, R63) -/

/-- The group that holds lane `n`. -/
def State.laneGroup (s : State) (n : Nat) : Option (Nat × Grp) :=
  s.grps.find? fun e => e.1 ≤ n && n < e.1 + e.2.lanes

/-- The instance of the `i`-th lane of a group. -/
def Grp.inst (g : Grp) (i : Nat) : Nat := if g.otl then 0 else if g.rate = 1 then i / 2 else i

/-- The PID a member carries: the received one, or before any was received that of its place (R63). -/
def Grp.pid (g : Grp) (i : Nat) (l : Lane) : Nat := if g.otl then 1 else l.rxPid.getD (g.inst i + 1)

/-- The members of group `g`: place and lane. -/
def State.members (s : State) (g : Nat) (r : Grp) : List (Nat × Lane) :=
  (List.range r.lanes).map fun i => (i, s.lane (g + i))

/-- A member is expected: not retired, and not a re-admitted one that has yet to rejoin (R70, R85). -/
def Lane.expected (l : Lane) : Bool := !l.retired && !l.rejoin

/-- A member whose instance is in the expected map: every lane of a FlexO instance is expected, or the instance is out; the lanes of
an OTU4 group stand alone (R61, R70, R83). -/
def Grp.expects (g : Grp) (ms : List (Nat × Lane)) (m : Nat × Lane) : Bool :=
  m.2.expected && (g.otl || ms.all fun x => g.inst x.1 != g.inst m.1 || x.2.expected)

/-- A member is LOCKED for its group: its PID is in the expected map, and the received map names it (R72). -/
def Grp.memberLocked (g : Grp) (m : Nat × Lane) : Bool :=
  m.2.state = .locked && !m.2.pidLost && g.expMap.contains (g.pid m.1 m.2)

/-- A member is inside the group. -/
def Grp.inside (g : Grp) (ms : List (Nat × Lane)) (m : Nat × Lane) : Bool := g.expects ms m && g.memberLocked m && !m.2.unfitted

/-- The patterns a lane is aligned to: five logical lanes on OTL4.4, else one (R68, R73). -/
def Lane.width (l : Lane) : Nat := if l.role = .line && l.rate = 0 then 5 else 1

def Lane.align (l : Lane) (k : Nat) : Align := tget {} l.aligns k
def Lane.modAlign (k : Nat) (f : Align → Align) (l : Lane) : Lane := { l with aligns := tmod {} l.aligns k f }

/-- Some pattern of the lane satisfies `p`, or all do. -/
def Lane.anyAlign (p : Align → Bool) (l : Lane) : Bool := (List.range l.width).any fun k => p (l.align k)
def Lane.allAlign (p : Align → Bool) (l : Lane) : Bool := (List.range l.width).all fun k => p (l.align k)

/-- The trackers of a lane are freed; what is held of an alignment stays. -/
def Lane.clearTrackers (l : Lane) : Lane := { l with aligns := (tmap (fun _ (a : Align) => { a with trackers := [], ambig := false }) l.aligns).filter fun e => e.2 != {} }

/-- The held delays of a lane's patterns (R77). -/
def Lane.delays (l : Lane) : List Nat := (List.range l.width).map fun k => (l.align k).delayNs

/-! ### Registers (R66, R67, R204) -/

def Lane.stat (l : Lane) : Nat :=
  l.role.code * 2 ^ 30 + l.rate.toNat * 2 ^ 28 + b2n l.retired * 2 ^ 27 + l.state.code * 2 ^ 24 + min 3 l.tries * 2 ^ 22 +
  l.sticky.toNat * 2 ^ 16 + b2n l.everLocked * 2 ^ 15

def GrpState.code : GrpState → Nat
  | .down => 0 | .deskew => 1 | .aligned => 2 | .partialUp => 3

def Grp.up (g : Grp) : Bool := g.state = .aligned || g.state = .partialUp

/-- M of the conjugation in force (R67). -/
def State.mCur (s : State) (g : Nat) (r : Grp) : Nat :=
  if !s.sch.began then 0
  else match (tfind s.presentBank.para g).bind (·.conjs[r.cur]?) with
    | some c => c.m
    | none => 20 * r.n

def State.grpStat (s : State) (g : Nat) (r : Grp) : Nat :=
  b2n r.up * 2 ^ 31 + r.sticky.toNat * 2 ^ 26 + s.mCur g r % 512 * 2 ^ 16 +
  maskOf (((s.members g r).filter fun m =>
    m.2.state = .locked && !m.2.retired && r.expMap.contains (r.pid m.1 m.2)).map Prod.fst)

def Grp.conj (g : Grp) : Nat :=
  (match g.notice with
   | some n => 2 ^ 31 + b2n n.pin * 2 ^ 30 + n.now % 16 * 2 ^ 26
   | none => 0) + g.cur % 16 * 2 ^ 22 + g.cause % 4 * 2 ^ 20 + g.conjSticky.toNat * 2 ^ 14

/-! ### Failure events and retirement (R81-R83) -/

/-- Whether a permanent failure retires the lane: RETIRE_AUTO of its group; a stitch lane always (R307). -/
def State.retireAuto (s : State) (n : Nat) : Bool :=
  if (s.lane n).role = .stitch then true else (s.laneGroup n).any (·.2.retireAuto)

/-- A pending retirement stands; any other pending transition gives way to a later one of higher rank. -/
def Lane.retiring (l : Lane) : Bool := match l.pend with
  | some (.toRetired _) => true
  | _ => false

/-- A permanent failure declared in frame `now` (R82, R76). -/
def Lane.permanent (auto : Bool) (now : Cfn) (l : Lane) : Lane :=
  { l with pend := some (if auto then .toRetired now else .toAdaptHeld) }

/-- A failure event: a try, or the fault is permanent (R82). A lane that already leaves its state at the next boundary takes
no second event in the frame (log entry 22). -/
def Lane.failure (auto : Bool) (now : Cfn) (l : Lane) : Lane :=
  if l.pend.isSome then l
  else if l.tries < 3 then { l with pend := some .toAdaptTry }
  else l.permanent auto now

/-- The record of a fault event of a lane that is not retired for it (R439); a retirement has its own. -/
def State.failureRecord (n : Nat) (s : State) : State :=
  match (s.lane n).pend with
  | some .toAdaptTry | some .toAdaptHeld => s.unitRecord 6 1 n 7 ((s.lane n).tries + 1) 0xFFFF
  | _ => s

def State.failureEvent (n : Nat) (s : State) : State :=
  if (s.lane n).pend.isSome then s else (s.modLane n (Lane.failure (s.retireAuto n) s.cfn)).failureRecord n

/-- The lane signals take effect only while its receiver is powered (R416). -/
def State.receiving (s : State) (n : Nat) : Bool := (s.lane n).role != .off && s.glb.mode != .hold

/-! ### Lane events -/

/-- WAIT_SIGNAL to ADAPT, at the end of the 100th frame of continuous signal (R76): the receiver has stood in WAIT_SIGNAL for those. -/
def execSignalDetected (lane : Nat) (s : State) : Result :=
  done (s.ifRuns fun s => if s.receiving lane then s.modLane lane fun l =>
      if l.state != .waitSignal then { l with signal := true }
      else if l.pend.isNone && 100 ≤ since s.tick l.since + 1 then { l with state := .adapt, since := s.tick, signal := true }
      else l
    else s)

/-- The signal goes: LOS, and WAIT_SIGNAL at the next boundary (R76). A try that a failure event of the same frame asked for gives way to it
and is not counted: the spec does not say which transition the boundary makes (DESIGN CHOICE, log entry 22). -/
def execSignalLost (lane : Nat) (s : State) : Result :=
  done (s.ifRuns fun s => if (s.lane lane).role = .off then s else s.modLane lane fun l =>
    let l := { (l.flag 5) with signal := false }
    if l.retired || l.retiring then l else { l with pend := some .toWait })

/-- ADAPT to HUNT within 20,000 frames, with every tracker free (R73, R76). -/
def execAdaptConverged (lane : Nat) (s : State) : Result :=
  done (s.ifRuns (State.modLane lane fun l =>
    if l.state = .adapt && l.pend.isNone && since s.tick l.since < 20000 then
      { l.clearTrackers with state := .hunt, since := s.tick, stRun := 0, stCfn := none }
    else l))

/-- No convergence in 20,000 frames (R76, R82). -/
def execAdaptTimeout (lane : Nat) (s : State) : Result :=
  let l := s.lane lane
  done (s.ifRuns fun s => if l.state != .adapt || l.pend.isSome || since s.tick l.since < 20000 then s
    else if l.everLocked then (s.modLane lane fun l => (l.flag 0).permanent (s.retireAuto lane) s.cfn).failureRecord lane
    else s.modLane lane fun l => { (l.flag 0) with since := s.tick })

/-- The trackers after a frame with these sightings (R73): an indicator advances by one modulo 256, the width of the MFAS; the spec
states no width for the FlexO indicator (PRESUMED, log entry 22). -/
def stepTrackers (t : List Tracker) (seen : List (Nat × Nat)) : List Tracker :=
  let old := t.filterMap fun k =>
    if seen.contains (k.offset, (k.mfi + 1) % 256) then some { k with mfi := (k.mfi + 1) % 256, run := k.run + 1 } else none
  seen.foldl (fun acc x =>
    if acc.any (·.offset = x.1) || acc.length ≥ 4 then acc else acc ++ [⟨x.1, x.2, 1⟩]) old

/-- Two trackers qualify together (R74). -/
def Align.ambiguous (seen : List (Nat × Nat)) (a : Align) : Bool := 2 ≤ ((stepTrackers a.trackers seen).filter (·.run ≥ 3)).length

/-- A frame seen in HUNT; an offset that was accepted in this frame's hunt follows its indicator (R73, R74). -/
def Align.hunt (seen : List (Nat × Nat)) (taken : Bool) (a : Align) : Align :=
  { a with trackers := stepTrackers a.trackers seen, ambig := a.ambig || a.ambiguous seen
           lastMfi := if taken then (a.lastMfi + 1) % 256 else a.lastMfi }

/-- An offset has been accepted and takes effect at the next boundary (R76). -/
def Lane.locking (l : Lane) : Bool := l.pend = some .toLocked

/-- A frame of pattern `k` seen in HUNT: AMBIG where two trackers qualify together (R73, R74). -/
def Lane.hunt (k : Nat) (seen : List (Nat × Nat)) (l : Lane) : Lane :=
  (if (l.align k).ambiguous seen then l.flag 1 else l).modAlign k (Align.hunt seen l.locking)

/-- The tracker whose offset R74 accepts. -/
def Align.accepts (a : Align) : Option Tracker :=
  match a.trackers.filter (·.run ≥ 3) with
  | [k] => if a.ambig && a.trackers.length != 1 then none else some k
  | _ => none

/-- A frame seen in LOCKED: runs of pattern mismatches and of indicators out of sequence (R75). An indicator is in sequence when it
is one more than that of the frame before (DEDUCED, log entry 22). -/
def Align.check (seen : List (Nat × Nat)) (a : Align) : Align :=
  let want := (a.lastMfi + 1) % 256
  match seen.find? (·.1 = a.offset) with
  | none => { a with mismatch := a.mismatch + 1, lastMfi := want }
  | some x => { a with mismatch := 0, outOfSeq := if x.2 = want then 0 else a.outOfSeq + 1, lastMfi := x.2 }

/-- The lanes of the 100G instance that member `i` of group `g` belongs to (R61). -/
def Grp.siblings (r : Grp) (g i : Nat) : List Nat := ((List.range r.lanes).filter fun j => r.inst j = r.inst i).map (g + ·)

/-- What a FlexO frame with a good overhead CRC says of its instance and its group: the received GID, PID, PHY map and RDI (R68, R70,
R72). The PID of a re-admitted member that has yet to rejoin sets no dPMM, although the expected map lacks it until then: R72 does not
speak of such a member (DESIGN CHOICE, log entry 22). -/
def State.flexoOverhead (n g : Nat) (r : Grp) (f : LineFrame) (s : State) : State :=
  let s := (r.siblings g (n - g)).foldl (fun s m => s.modLane m fun l => { l with rxPid := some f.pid, rxGid := some f.gid }) s
  let lanes := (List.range r.lanes).map (g + ·)
  let lacks (m : Nat) : Bool := (s.lane m).state = .locked && !(f.phyMap.contains (r.pid (m - g) (s.lane m)))
  let s := lanes.foldl (fun s m => if (s.lane m).state = .locked then s.modLane m fun l => { l with pidLost := lacks m } else s) s
  let ms := s.members g r
  s.modGrp g fun r =>
    let r := { r with rdiRx := f.rdi }
    let r := if f.gid != r.gidExp then r.flag 3 else r
    if (r.expects ms (n - g, s.lane n) && !(r.expMap.contains f.pid)) || ms.any (fun m => r.expects ms m && m.2.pidLost) then r.flag 2 else r

/-- The FEC of a LOCKED lane's frame: its counts go to the lane's endpoint (R68, R222), and uncorrectable codewords to the lane's
event counter (R443). -/
def State.fecCounts (lane : Nat) (f : LineFrame) (s : State) : State :=
  (((s.countLane lane 0 f.fec.1).countLane lane 1 f.fec.2.1).countLane lane 2 f.fec.2.2).count (384 + lane % 128) f.fec.2.1

/-- A received line frame (R68, R72-R75). A pattern mismatch is counted in the lane's endpoint, in a count of its own that no register
holds (log entry 22). -/
def execLineFrame (lane : Nat) (f : LineFrame) (s : State) : Result :=
  done (s.ifRuns fun s => if (s.lane lane).role != .line || s.glb.mode = .hold then s
    else match (s.lane lane).state with
      | .hunt => if f.logical < (s.lane lane).width then s.modLane lane (Lane.hunt f.logical f.sightings) else s
      | .locked =>
        if (s.lane lane).width ≤ f.logical then s
        else
          let s := (s.modLane lane (Lane.modAlign f.logical (Align.check f.sightings))).fecCounts lane f
          let miss := ((s.lane lane).align f.logical).mismatch
          let s := if miss = 0 then s else s.countLane lane 8 1
          match s.laneGroup lane with
          | some (g, r) => if r.otl || !f.crcOk || miss != 0 then s else s.flexoOverhead lane g r f
          | none => s
      | _ => s)

/-- The accepted tracker's offset and indicator. -/
def Align.take (a : Align) : Align := match a.accepts with
  | some k => { a with offset := k.offset, lastMfi := k.mfi }
  | none => a

/-- An offset is accepted, on OTL4.4 for every logical lane: LOCKED at the next boundary (R74, R76). -/
def execHuntAccept (lane : Nat) (s : State) : Result :=
  done (s.ifRuns (State.modLane lane fun l =>
    if l.state = .hunt && l.pend.isNone && l.allAlign (·.accepts.isSome) then
      { l with pend := some .toLocked, aligns := tmap (fun _ a => Align.take a) l.aligns }
    else l))

/-- 1,000 frames of HUNT without an acceptance on a lane that was LOCKED before: a failure event (R76). -/
def execHuntTimeout (lane : Nat) (s : State) : Result :=
  let l := s.lane lane
  done (s.ifRuns fun s => if l.state = .hunt && l.everLocked && l.pend.isNone && 1000 ≤ since s.tick l.since then s.failureEvent lane else s)

/-- dLOS, dLOF and dLOM of a Line lane, in their places of C7 (R220, R223). -/
def Lane.defects (l : Lane) : W32 :=
  if l.role = .line then BitVec.ofNat 32 (b2n (!l.signal) * 2 ^ 10 + b2n l.lom * 2 ^ 11 + b2n l.lof * 2 ^ 12) else 0

/-- dLOF or dLOM of a lane, with its sticky bits. -/
def Lane.declare (lof lom : Bool) (l : Lane) : Lane :=
  let l := if lof then { (l.flag 4) with lof := true } else l
  if lom then { (l.flag 3) with lom := true } else l

/-- The OTU4 group of a lane declares dLOL: a logical lane lost its alignment (R67). -/
def State.logicalLost (lane : Nat) (s : State) : State :=
  match s.laneGroup lane with
  | some (g, r) => if r.otl then s.modGrp g (Grp.flag 4) else s
  | none => s

/-- dLOF or dLOM (R75), an event of the lane's endpoint (R222). -/
def execDlofDeclare (lane : Nat) (s : State) : Result :=
  let l := s.lane lane
  let lof := l.anyAlign fun a => 5 ≤ a.mismatch
  let lom := l.anyAlign fun a => 5 ≤ a.outOfSeq
  done (s.ifRuns fun s => if l.state != .locked || !(lof || lom) then s
    else (((s.modLane lane (Lane.declare lof lom)).logicalLost lane).countLane lane 3 (b2n lof + b2n lom)).failureEvent lane)

/-- CDR lock is lost with the signal present (R81). -/
def execCdrLockLoss (lane : Nat) (s : State) : Result :=
  done (s.ifRuns fun s => if (s.lane lane).state = .locked then s.failureEvent lane else s)

/-- The burst thresholds of a lane: uncorrectable codewords and window (R81). -/
def State.burst (s : State) (n : Nat) : Nat × Nat :=
  match s.laneGroup n with
  | some (_, r) => (r.burstUcw, r.burstWin)
  | none => (64, 128)

/-- Uncorrectable codewords within a window of frames (R81): an event of the lane's endpoint (R222). LINE_FRAME counts a Line lane's
codewords, this command a Stitch lane's (R443). -/
def execBurstDetected (lane ucw frames : Nat) (s : State) : Result :=
  done (s.ifRuns fun s => if (s.lane lane).state != .locked || ucw < (s.burst lane).1 || (s.burst lane).2 < frames then s
    else (((if (s.lane lane).role = .line then s else s.count (384 + lane % 128) ucw).modLane lane (Lane.flag 2)).countLane lane 4 1).failureEvent lane)

/-- The 60 s window ends (R82). A try that waits for the next boundary is the first of a new window. -/
def execLaneTryWindowEnd (lane : Nat) (s : State) : Result :=
  done (s.ifRuns (State.modLane lane fun l => match l.window with
    | some w => if 5859375 ≤ since s.tick w && !l.retiring && l.pend != some .toAdaptHeld then { l with tries := 0, window := none } else l
    | none => l))

/-! ### Deskew (R77) -/

def maxOf (l : List Nat) : Nat := l.foldl max 0
def minOf (l : List Nat) : Nat := l.foldl min (l.headD 0)
def spread (l : List Nat) : Nat := maxOf l - minOf l

/-- The delays measured for member `i`: one, or on OTL4.4 those of its five logical lanes (R77). -/
def Grp.measured (r : Grp) (delays : List Nat) (i : Nat) : List Nat := if r.otl then (delays.drop (5 * i)).take 5 else (delays.drop i).take 1

/-- A member is fitted at measured delays. -/
def Lane.fitAt (d : List Nat) (l : Lane) : Lane :=
  { d.zipIdx.foldl (fun l p => l.modAlign p.2 fun a => { a with delayNs := p.1 }) l with unfitted := false }

/-- Hold the measured delays of the members that satisfy `which`. -/
def State.holdDelays (g : Nat) (r : Grp) (delays : List Nat) (which : Nat × Lane → Bool) (s : State) : State :=
  ((s.members g r).filter which).foldl (fun s m => s.modLane (g + m.1) (Lane.fitAt (r.measured delays m.1))) s

/-- The members of `out` that fit the held delays, each with those fitted before it, in lane order: the buffers absorb 4 µs between the
earliest and the latest (R77; the order is a DESIGN CHOICE, log entry 22). -/
def Grp.fitting (r : Grp) (delays : List Nat) : List Nat → List (Nat × Lane) → List Nat
  | _, [] => []
  | held, m :: out =>
    let d := r.measured delays m.1
    if held.isEmpty || spread (d ++ held) ≤ 4000 then m.1 :: r.fitting delays (d ++ held) out else r.fitting delays held out

/-- Fit the LOCKED members that are outside to the held delays of those inside. -/
def State.fitMembers (g : Nat) (r : Grp) (delays : List Nat) (s : State) : State :=
  let ms := s.members g r
  let held := (ms.filter (r.inside ms)).flatMap (·.2.delays)
  let out := ms.filter fun m => m.2.state = .locked && m.2.unfitted && !(r.measured delays m.1).isEmpty
  let fit := r.fitting delays held out
  let s' := s.holdDelays g r delays fun m => fit.contains m.1
  if out.all fun m => fit.contains m.1 then s' else s'.modGrp g (Grp.flag 4)

/-- Skew is measured: in DESKEW, among the expected members, the group becomes ALIGNED or declares dLOL. A re-admitted or relocked
member outside is fitted to the held delays, and skew over 4 µs among the members inside declares dLOL (R70, R77). -/
def execDeskewDone (g : Nat) (delays : List Nat) (s : State) : Result :=
  done (s.ifRuns fun s => match s.grp g with
    | none => s
    | some r =>
      let ms := s.members g r
      let among (p : Nat × Lane → Bool) : Nat := spread ((ms.filter p).flatMap fun m => r.measured delays m.1)
      let own (m : Nat × Lane) : Bool := r.expects ms m && r.memberLocked m
      if r.state = .deskew then
        let sk := among own
        let s := s.modGrp g fun r => { r with skewNs := min 0xFFFF sk, skewNow := false }
        if sk ≤ 4000 then
          ((s.holdDelays g r delays own).modGrp g fun r => { r with state := .aligned, since := s.tick }).fitMembers g r delays
        else s.modGrp g fun r => { (r.flag 4) with state := .down, since := s.tick }
      else if r.up then
        let s := if among (r.inside ms) > 4000 then s.modGrp g fun r => { (r.flag 4) with skewNow := true } else s
        s.fitMembers g r delays
      else s)

/-! ### OSMC (R78, R80) -/

/-- The group passes a QL: ALIGNED, or PARTIAL with slice 0. -/
def Grp.osmcUp (g : Grp) : Bool := !g.otl && (g.state = .aligned || (g.state = .partialUp && g.carrying.getLsbD 0))

/-- `TIM.SEL_CTRL.QL_OPT`: network option 2 (R284). -/
def Tim.qlOpt (t : Tim) : Bool := t.selCtrl.getLsbD 28

/-- The quality level of an SSM code and, where the extended QL TLV is present, its enhanced code, in the encoding of R284 under
network option `two`. The codes are those of G.781 and G.8264, which the spec names (PRESUMED, log entry 43); a code that names no
level is QL-DNU (R284). -/
def ssmLevel (two : Bool) (ssm : Nat) (ext : Option Nat) : BitVec 4 :=
  match two, ssm, ext with
  | false, 0x2, some 0x21 | true, 0x1, some 0x21 => 0x1
  | false, 0x2, some 0x20 | true, 0x1, some 0x20 => 0x2
  | false, 0x2, some 0x23 | true, 0x1, some 0x23 => 0x3
  | false, 0xB, some 0x22 | true, 0xA, some 0x22 => 0xA
  | false, 0x2, _ | true, 0x1, _ => 0x4
  | false, 0x4, _ => 0x6
  | false, 0x8, _ => 0x8
  | false, 0xB, _ | true, 0xA, _ => 0xB
  | true, 0x0, _ => 0x5
  | true, 0x7, _ => 0x6
  | true, 0x4, _ => 0x7
  | true, 0xD, _ => 0x9
  | true, 0xE, _ => 0xC
  | _, _, _ => 0xD

/-- An ESMC PDU of G.8264, from its slow-protocols subtype: OUI 00-19-A7, subtype 1, version 1, the QL TLV, and the extended QL TLV
where one follows. None where the format is another (R78; PRESUMED, log entry 43). -/
def esmcLevel (two : Bool) (p : List Byte) : Option (BitVec 4) :=
  if p.take 6 != [0x0A, 0x00, 0x19, 0xA7, 0x00, 0x01] || fld (leAt p 6 1) 4 4 != 1 || slice p 10 3 != [0x01, 0x00, 0x04] || 16 ≤ leAt p 13 1 then none
  else some (ssmLevel two (leAt p 13 1) (if slice p 14 3 = [0x02, 0x00, 0x14] && 34 ≤ p.length then some (leAt p 17 1) else none))

/-- A PDU of slice 0; one whose format check fails is discarded (R78). -/
def execOsmcPdu (g : Nat) (subtype : Byte) (rest : List Byte) (s : State) : Result :=
  done (s.ifRuns (State.modGrp g fun r => match esmcLevel s.tim.qlOpt (subtype :: rest) with
    | some q => if r.osmcUp then { r with ql := q, qlAt := s.tick } else r
    | none => r))

/-- 5 s, which is 488,281.25 frames, without a valid PDU (R78). -/
def execOsmcTimeout (g : Nat) (s : State) : Result :=
  done (s.ifRuns (State.modGrp g fun r => if 488282 ≤ since s.tick r.qlAt then { r with ql := 0xF } else r))

/-- The QL a group sends: that of the output, or QL-DNU while an LRC of its own lanes is selected (R80). Candidates 8 to 39
are LRC0 to LRC31, two for each cluster (R282). -/
def State.osmcQl (s : State) (g : Nat) (r : Grp) : BitVec 4 :=
  match s.tim.sel with
  | some i =>
    let lane := (i - 8) / 2 * 8 + (tget {} s.tim.cands i).lane.toNat
    if 8 ≤ i && g ≤ lane && lane < g + r.lanes then 0xD else s.tim.outQl
  | none => s.tim.outQl

/-- The information PDU of a second, one second after the one before, with the QL that insertion took up at the last boundary (R80,
R301). -/
def execOsmcInfoTx (g : Nat) (s : State) : Result :=
  done (match s.grp g with
    | some r =>
      if r.otl || !s.traffic || r.osmcAt.any (fun t => since s.tick t < 97656) then s
      else s.modGrp g fun r => { r with osmcInfo := r.osmcInfo + 1, osmcAt := some s.tick }
    | none => s)

/-! ### Boundary-timed parts -/

/-- Apply a lane's pending transition at the boundary of frame `now` (R76, R82, R83, R85). The first try opens the window. A permanent fault
without retirement closes it, so that TRIES stays held at 3 (R76). -/
def Lane.boundary (now : Cfn) (l : Lane) : Lane :=
  let l := if l.idleAt = some now then { l with txIdle := true, idleAt := none } else l
  match l.pend with
  | none => l
  | some p =>
    let l := { l with pend := none, since := now }
    let out := { l.clearTrackers with stWords := none, stNow := none }
    match p with
    | .toLocked => { l.clearTrackers with
        state := .locked, everLocked := true, unfitted := true, pidLost := false, rxPid := none, rxGid := none, lof := false, lom := false
        aligns := tmap (fun _ (a : Align) => { a with mismatch := 0, outOfSeq := 0 }) l.clearTrackers.aligns }
    | .toAdaptTry => { out with state := .adapt, tries := l.tries + 1, window := some (l.window.getD now) }
    | .toAdaptHeld => { out with state := .adapt, tries := 3, window := none }
    | .toWait => { out with state := .waitSignal, lof := false, lom := false }
    | .toRetired _ => { out with state := .retired, retired := true, rejoin := false, lof := false, lom := false, idleAt := some (cfnAdd now 1) }
    | .readmit => { l with state := .adapt, retired := false, tries := 0, window := none, everLocked := false, txIdle := false, idleAt := none, rejoin := true }

/-- The records of a retirement (R83, R439): declared in frame `k`. -/
def State.retireRecords (n : Nat) (k : Cfn) (s : State) : State :=
  let g := s.laneGroup n
  let s := (s.event 0x4201 0 ([BitVec.ofNat 8 n, BitVec.ofNat 8 ((g.map Prod.fst).getD 0xFF)] ++ cfnBytes k)).unitRecord 6 2 n 7 ((s.lane n).tries + 1) 0xFFFF
  match g with
  | some (g, r) => s.modGrp g fun x => { (x.flag 1) with expMap := without x.expMap (r.pid (n - g) (s.lane n)) }
  | none => s

/-- Every lane's transition at the boundary that starts frame `now`, retirements with their records. -/
def State.lanesBoundary (now : Cfn) (s : State) : State :=
  let gone := s.lanes.filterMap fun e => match e.2.pend with
    | some (.toRetired k) => some (e.1, k)
    | _ => none
  let s := gone.foldl (fun s e => s.retireRecords e.1 e.2) s
  let s := gone.foldl (fun s e => match s.laneGroup e.1 with
    | some (g, r) => if r.otl then s.modGrp g fun r => { r with state := .down, since := now } else s
    | none => s) s
  let tries := s.lanes.filterMap fun e => if e.2.pend = some .toAdaptTry then some e.1 else none
  let s := tries.foldl (fun s n => s.countLane n 5 1) s
  { s with lanes := tmap (fun _ l => Lane.boundary now l) s.lanes }

/-- Re-admitted members that are LOCKED and fit the deskew buffer rejoin the expected map, with every lane of their instance (R85), once
the received PID is one that the map lacks (R72).
Where no expected member is left there are no held delays to fit: the deskew of the group measures them all (R77). -/
def State.rejoinMembers (g : Nat) (s : State) : State :=
  match s.grp g with
  | none => s
  | some r =>
    let ms := s.members g r
    let alone := r.state = .down && (r.otl || !ms.any (r.expects ms))
    let known (m : Nat × Lane) : Bool := r.otl || (1 ≤ r.pid m.1 m.2 && r.pid m.1 m.2 ≤ r.n && !r.expMap.contains (r.pid m.1 m.2))
    let ready (m : Nat × Lane) : Bool := m.2.expected || (m.2.rejoin && m.2.state = .locked && known m && (!m.2.unfitted || alone))
    let back := ms.filter fun m => m.2.rejoin && ready m && (r.otl || ms.all fun x => r.inst x.1 != r.inst m.1 || ready x)
    let s := back.foldl (fun s m => s.modLane (g + m.1) fun l => { l with rejoin := false }) s
    s.modGrp g fun r => { r with
      expMap := (List.range r.n).filterMap fun i => if r.expMap.contains (i + 1) || back.any (fun m => r.pid m.1 m.2 = i + 1) then some (i + 1) else none }

/-- The state a group takes at a boundary (R70). An OTU4 group of which a lane is retired, or re-admitted and not back, is DOWN
(R83). -/
def Grp.nextState (g : Grp) (ms : List (Nat × Lane)) : GrpState :=
  let exp := ms.filter (g.expects ms)
  let locked := exp.all g.memberLocked
  let gid := g.otl || exp.all fun m => m.2.rxGid = some g.gidExp
  let foreign := !g.otl && exp.any fun m => m.2.rxGid.any (· != g.gidExp)
  let lost := g.otl && ms.any (!·.2.expected)
  match g.state with
  | .down => if !exp.isEmpty && !lost && locked && gid then .deskew else .down
  | .deskew => if lost || exp.isEmpty || !locked || foreign then .down else .deskew
  | _ =>
    if lost || g.skewNow || foreign || !exp.any g.memberLocked then .down
    else if exp.all (g.inside ms) then .aligned
    else if g.contain || locked then .partialUp
    else .down

/-- The slices that carry line data (R71). -/
def Grp.sliceMask (g : Grp) (ms : List (Nat × Lane)) : BitVec 16 :=
  if !g.up then 0
  else BitVec.ofNat 16 (maskOf ((List.range g.n).filter fun i =>
    let carriers := ms.filter fun m => g.expects ms m && g.pid m.1 m.2 = i + 1
    !carriers.isEmpty && carriers.all (g.inside ms)))

/-- The transmitted PHY map: a map that is due goes out from a multiframe begun in the frame that ends. The expected map is due, with the
members whose transmitters are still to go idle after a retirement (R83, R85). -/
def Grp.sendMap (r : Grp) (multiframe : Bool) (ms : List (Nat × Lane)) : Grp :=
  let r := if multiframe then { r with txMap := r.txDue.getD r.txMap, txDue := none } else r
  let m := (List.range r.n).map (· + 1) |>.filter fun p =>
    r.expMap.contains p || (r.txMap.contains p && ms.any fun x => x.2.idleAt.isSome && r.pid x.1 x.2 = p)
  { r with txDue := if m = r.txMap then none else some m }

/-- Group changes at the boundary that starts frame `now`: options, rejoining members, state, slices, OSMC. A slice whose member left the
expected map was not taken out under SLICE_CONTAIN (R67). -/
def State.groupBoundary (inp : FrameInput) (now : Cfn) (g : Nat) (s : State) : State :=
  let s := s.rejoinMembers g
  let ql := (s.grp g).map fun r => s.osmcQl g r
  s.modGrp g fun r =>
    let r := match r.pendOpts with
      | some (c, a, w, u) => { r with contain := c, retireAuto := a, burstWin := w, burstUcw := u, pendOpts := none }
      | none => r
    let ms := (List.range r.lanes).map fun i => (i, s.lane (g + i))
    let n := r.nextState ms
    let r := if n = r.state then r else { r with state := n, since := now, skewNow := if n = .down then false else r.skewNow }
    let m : BitVec 16 := r.sliceMask ms
    let lost : BitVec 16 := r.carrying &&& ~~~m &&& BitVec.ofNat 16 (maskOf (r.expMap.map (· - 1)))
    let r := if n = .partialUp && lost != 0 then r.flag 0 else r
    let r := r.sendMap (inp.multiframe.contains g) ms
    let r := { r with carrying := m, rdiTx := !r.up }
    let r := if r.otl || r.osmcUp then r else { r with ql := 0xF }
    match ql with
    | some q => if r.otl || q = r.osmcTx then r else { r with osmcTx := q, osmcEvent := r.osmcEvent + 1 }
    | none => r

def State.groupsBoundary (inp : FrameInput) (now : Cfn) (s : State) : State :=
  (tkeys s.grps).foldl (fun s g => s.groupBoundary inp now g) s

/-! ### Commands (R65) -/

/-- The islands of a lane: its cluster pair and its engine island, as mask bits of R415. -/
def laneIslands (n : Nat) : Nat := 2 ^ (n / 8) ||| 2 ^ (16 + n / 32)

/-- Ungate the islands of a mask (R415). -/
def State.ungate (mask : Nat) (s : State) : State :=
  s.modPwr fun p => { p with
    gated := p.gated &&& ~~~ BitVec.ofNat 32 mask
    usedAt := (ones 32 (p.gated.toNat &&& mask)).foldl (fun t i => tins t i s.tick) p.usedAt }

/-- The rules of R60 and R61. -/
def groupShapeOk (g lanes rate line : Nat) : Bool :=
  g + lanes ≤ 128 && 1 ≤ lanes && g / 32 = (g + lanes - 1) / 32 &&
  (if line = 0 then (rate = 2 && lanes ≤ 16) || (rate = 1 && lanes % 2 = 0 && lanes ≤ 16 && g % 2 = 0)
   else line = 1 && rate = 0 && lanes = 4 && g % 4 = 0)

def orDefault (v d : Nat) : Nat := if v = 0 then d else v

/-- A group as GRP_CREATE makes it. -/
def newGroup (r : MbReq) (now : Cfn) : Grp :=
  let g : Grp := {
    lanes := r.u8 1, rate := BitVec.ofNat 2 (r.u8 2), otl := r.u8 3 = 1, gidTx := BitVec.ofNat 32 (r.u32 4)
    gidExp := BitVec.ofNat 32 (r.u32 8), contain := bitOf (r.u8 12) 0, retireAuto := bitOf (r.u8 12) 1
    burstWin := orDefault (r.u16 14) 128, burstUcw := orDefault (r.u32 16) 64, expMap := [], txMap := [], since := now, qlAt := now }
  let m := (List.range g.n).map (· + 1)
  { g with expMap := m, txMap := m, slots := if g.otl then 80 else 20 }

/-- A lane that takes a role: at the first state of R76. -/
def Lane.start (role : LaneRole) (rate : BitVec 2) (now : Cfn) (l : Lane) : Lane :=
  { role := role, rate := rate, state := .waitSignal, sticky := l.sticky, stSticky := l.stSticky, since := now, signal := l.signal
    txIdle := false, phyCfg := l.phyCfg, phyTx := l.phyTx, phyRx := l.phyRx }

/-- A lane that becomes Off. -/
def Lane.toOff (l : Lane) : Lane :=
  { sticky := l.sticky, stSticky := l.stSticky, signal := l.signal, phyCfg := l.phyCfg, phyTx := l.phyTx, phyRx := l.phyRx }

def grpCreateBody (r : MbReq) (s : State) : Ans × State :=
  let g := r.u8 0
  let ns := (List.range (r.u8 1)).map (g + ·)
  let x := newGroup r s.tick
  if ns.any (fun n => (s.lane n).role != .off) || (groupStreams g x).any s.pnd.unusable.contains then (.noResource, s)
  else
    let s := s.ungate (ns.foldl (fun m n => m ||| laneIslands n) 0)
    let s := { s with grps := tins s.grps g x, lanes := ns.foldl (fun t n => tmod {} t n (Lane.start .line x.rate s.tick)) s.lanes }
    (.ok, s.modSch (Sch.streamsChanged (groupStreams g x)))

def grpCreateForm : Form := .fixed 20 fun r => r.u8 12 < 4 && r.zero [(13, 1)] && groupShapeOk (r.u8 0) (r.u8 1) (r.u8 2) (r.u8 3)

/-- Create a line group (R60, R61, R63, R65). -/
def execGrpCreate (r : MbReq) (s : State) : Result := mailboxRow 0x0201 grpCreateForm grpCreateBody r s

def grpDeleteBody (r : MbReq) (s : State) : Ans × State :=
  let g := r.u8 0
  match s.grp g with
  | none => (.badState, s)
  | some x =>
    let st := groupStreams g x
    if st.any fun k => s.presentBank.names k || s.futureBank.names k then (.badState, s)
    else
      let s := { s with grps := tdel s.grps g, lanes := (List.range x.lanes).foldl (fun t i => tmod {} t (g + i) Lane.toOff) s.lanes }
      (.ok, s.modSch (Sch.streamsChanged st))

def grpDeleteForm : Form := .fixed 1 fun r => r.u8 0 < 128

/-- Delete a line group (R65). -/
def execGrpDelete (r : MbReq) (s : State) : Result := mailboxRow 0x0202 grpDeleteForm grpDeleteBody r s

def grpStatusBody (r : MbReq) (s : State) : Ans × State :=
  let g := r.u8 0
  match s.grp g with
  | none => (.badState, s)
  | some x =>
    (⟨0, leBytes 4 (s.grpStat g x) ++ leBytes 4 x.skewNs ++ leBytes 4 x.conj ++ [BitVec.ofNat 8 x.state.code, BitVec.ofNat 8 x.lanes, 0, 0] ++
      padTo 64 ((List.range x.lanes).flatMap fun i => leBytes 4 (s.lane (g + i)).stat)⟩, s)

def grpStatusForm : Form := .fixed 1 fun r => r.u8 0 < 128

/-- Group status (R65, R345). -/
def execGrpStatus (r : MbReq) (s : State) : Result := mailboxRow 0x0203 grpStatusForm grpStatusBody r s

def laneRetireBody (r : MbReq) (s : State) : Ans × State :=
  let n := r.u8 0
  let l := s.lane n
  if l.role != .line || l.retired then (.badState, s)
  else (.ok, s.modLane n fun l => if l.retiring then l else { l with pend := some (.toRetired s.cfn) })

def laneRetireForm : Form := .fixed 1 fun r => r.u8 0 < 128

/-- Retire a member (R65). -/
def execLaneRetire (r : MbReq) (s : State) : Result := mailboxRow 0x0204 laneRetireForm laneRetireBody r s

def laneReadmitBody (r : MbReq) (s : State) : Ans × State :=
  let n := r.u8 0
  if !(s.lane n).retired then (.badState, s)
  else (.ok, (s.modLane n fun l => { l with pend := some .readmit }).unitRecord 6 5 n 8 0 0xFFFF)

def laneReadmitForm : Form := .fixed 1 fun r => r.u8 0 < 128

/-- Re-admit a retired lane (R65, R85). -/
def execLaneReadmit (r : MbReq) (s : State) : Result := mailboxRow 0x0205 laneReadmitForm laneReadmitBody r s

def grpSetOptionsBody (r : MbReq) (s : State) : Ans × State :=
  if (s.grp (r.u8 0)).isNone then (.badState, s)
  else (.ok, s.modGrp (r.u8 0) fun g => { g with
    pendOpts := some (bitOf (r.u8 1) 0, bitOf (r.u8 1) 1, orDefault (r.u16 2) 128, orDefault (r.u32 4) 64) })

def grpSetOptionsForm : Form := .fixed 8 fun r => r.u8 0 < 128 && r.u8 1 < 4

/-- Change a group's options at the next boundary (R65). -/
def execGrpSetOptions (r : MbReq) (s : State) : Result := mailboxRow 0x0206 grpSetOptionsForm grpSetOptionsBody r s

end Sys2Proof.Machine
end

