-- ==== Sys2Proof/Machine/Timing.lean ====
section
/-!
DEFINITION. The timing unit: candidates, selection, loop states, outputs and the TIM commands (chapter 12).
-/

namespace Sys2Proof.Machine

def TimState.code : TimState → Nat
  | .freeRun => 0 | .acquiring => 1 | .locked => 2 | .transition => 3 | .holdover => 4

def CandState.code : CandState → Nat
  | .disabled => 0 | .failed => 1 | .wtr => 2 | .qualified => 3 | .disputed => 4

def Tim.cand (t : Tim) (i : Nat) : Cand := tget {} t.cands i
def Tim.modCand (i : Nat) (f : Cand → Cand) (t : Tim) : Tim := { t with cands := tmod {} t.cands i f }

/-- Set a sticky bit of `TIM.CAND[i]`: 2 FAIL_EVT, 1 DISPUTED_EVT, 0 QL_EVT (R306). -/
def Cand.flag (b : Nat) (c : Cand) : Cand := { c with sticky := setBit c.sticky b true }

/-! ### `TIM.SEL_CTRL` (R306) -/

def Tim.compat (t : Tim) : Bool := t.selCtrl.getLsbD 31
def Tim.revert (t : Tim) : Bool := t.selCtrl.getLsbD 30
def Tim.qlEnable (t : Tim) : Bool := t.selCtrl.getLsbD 29
def Tim.hoEn (t : Tim) : Bool := t.selCtrl.getLsbD 27
/-- FORCE, where 3 acts as 0. -/
def Tim.force (t : Tim) : Nat := if fld t.selCtrl.toNat 25 2 = 3 then 0 else fld t.selCtrl.toNat 25 2
def Tim.bw (t : Tim) : Nat := fld t.selCtrl.toNat 20 4
/-- The host's reference, where 40 to 63 act as HOST_VALID 0. -/
def Tim.hostRef (t : Tim) : Option Nat :=
  let r := fld t.selCtrl.toNat 0 6
  if t.selCtrl.getLsbD 6 && r < 40 then some r else none

/-- Frames in `n` seconds, rounded up (R286, R298). -/
def secFrames (n : Nat) : Nat := (n * 390625 + 3) / 4

/-! ### Selection (R287-R290) -/

/-- A code that names a level in the selected option (R284). -/
def qlNamed (opt : Bool) (q : Nat) : Bool :=
  if opt then [1, 2, 3, 4, 5, 6, 7, 9, 0xA, 0xB, 0xC, 0xD, 0xF].contains q else [1, 2, 3, 4, 6, 8, 0xA, 0xB, 0xD, 0xF].contains q

/-- Excluded by a loop bandwidth of 1 kHz or 4 kHz: a candidate of 8 kHz, coded 1 (R287, R345). -/
def Tim.excluded (t : Tim) (i : Nat) : Bool := (t.bw = 7 || t.bw = 8) && i < 8 && (t.cand i).freq = 1

/-- Selectable (R288); `auto`: in automatic choice. -/
def Tim.selectable (t : Tim) (auto : Bool) (i : Nat) : Bool :=
  let c := t.cand i
  c.state = .qualified && !t.excluded i && c.ql != 0xD && c.ql != 0xF && (!auto || c.prio != 0)

/-- The rank of a candidate as one number, lower is better: QL, PRIO, index, or PRIO and index alone. -/
def Tim.rank (t : Tim) (byQl : Bool) (i : Nat) : Nat :=
  let c := t.cand i
  (if byQl then c.ql.toNat * 4096 else 0) + c.prio.toNat * 256 + i

/-- The selectable candidate of best rank. -/
def Tim.best (t : Tim) (byQl : Bool) : Option Nat :=
  ((tkeys t.cands).filter (t.selectable true)).foldl (fun (b : Option Nat) i => match b with
    | none => some i
    | some j => if t.rank byQl i < t.rank byQl j then some i else some j) none

/-- The choice by rank of native mode: the present reference, or one whose QL is strictly better under REVERT (R289). -/
def Tim.chooseFallback (t : Tim) : Option Nat :=
  match t.sel with
  | some c =>
    if !(t.selectable true c) then t.best true
    else match t.best true with
      | some b => if t.revert && (t.cand b).ql < (t.cand c).ql then some b else some c
      | none => some c
  | none => t.best true

/-- The reference to select, and whether it is a fallback: one taken because the host's candidate is not selectable (R289, R290). -/
def Tim.choose (t : Tim) : Option (Nat × Bool) :=
  if t.compat then
    match t.sel with
    | some c => if !t.revert && t.selectable true c then some (c, false) else (t.best t.qlEnable).map (·, false)
    | none => (t.best t.qlEnable).map (·, false)
  else match t.hostRef with
    | none => t.chooseFallback.map (·, false)
    | some h =>
      if t.selectable false h then
        match t.sel with
        | some c => if t.fallback && c != h && !t.revert && t.selectable true c then some (c, true) else some (h, false)
        | none => some (h, false)
      else (if t.fallback then t.chooseFallback else t.best true).map (·, true)

/-! ### States (R293-R299) -/

def Tim.log (cfn : Cfn) (kind old new cause : Nat) (t : Tim) : Tim :=
  let h : TimHist := ⟨cfn, kind, old, new, cause⟩
  { t with hist := (t.hist ++ [h]).drop (t.hist.length + 1 - 32) }

/-- Take a state with a reference at count `tick`. -/
def Tim.to (st : TimState) (r : Option Nat) (fb : Bool) (tick : Cfn) (t : Tim) : Tim :=
  { t with state := st, sel := r, fallback := fb, since := tick, lockedAt := if st = .locked then tick else t.lockedAt }

/-- The number that names a reference: 0x3F for none (R306). -/
def refCode (r : Option Nat) : Nat := r.getD 0x3F

/-- Enter HOLDOVER or FREE_RUN: the sticky bit and TIM_STATE (R299). -/
def State.timRest (ho : Bool) (cause : Nat) (s : State) : State :=
  let old := s.tim.state
  let new : TimState := if ho then .holdover else .freeRun
  let s' := s.modTim fun t => ((t.flag (if ho then 2 else 3)).log s.recCfn 1 old.code new.code cause).to new none false s.tick
  s'.event 0x4902 new.code [BitVec.ofNat 8 old.code, BitVec.ofNat 8 (refCode s.tim.sel)]

/-- HOLDOVER where it is enabled and an estimate stands, else FREE_RUN (R298). -/
def State.timLeave (cause : Nat) (s : State) : State := s.timRest (s.tim.hoEn && s.tim.hoReady) cause

/-- OUT_QL as the state gives it (R301). -/
def Tim.wantQl (t : Tim) : BitVec 4 :=
  match t.state, t.sel with
  | .locked, some i => (t.cand i).ql
  | .transition, some i => (t.cand i).ql
  | _, _ => t.ownQl

def Tim.refreshQl (t : Tim) : Tim := if t.wantQl = t.outQl then t else { (t.flag 4) with outQl := t.wantQl }

/-- The timing unit with the candidate states in force at the boundary: a wait-to-restore or an agreement of 60 s that ends at it has
ended (R286, R288, R292). -/
def State.timInForce (s : State) : Tim :=
  { s.tim with cands := tmap (fun _ (c : Cand) =>
      if (c.state = .wtr && secFrames s.tim.wtr ≤ since s.tick c.since) ||
         (c.state = .disputed && c.agree.any fun a => 5859375 ≤ since s.tick a) then { c with state := .qualified } else c) s.tim.cands }

/-- The reference in use was taken in automatic choice (R288-R290). -/
def Tim.auto (t : Tim) : Bool := t.fallback || t.compat || t.hostRef.isNone

/-- The estimate without the 2 s before a loss: the newest of those that are 2 s old, where one is (R297). -/
def Tim.excludeTail (tick : Cfn) (t : Tim) : Tim :=
  match t.ests.find? fun e => secFrames 2 ≤ Machine.since tick e.1 with
  | some e => { t with estimate := e.2, ests := [] }
  | none => t

/-- The selected reference is lost while the unit is LOCKED to it (R297). -/
def State.timLose (s : State) : State :=
  let t := s.timInForce
  if t.state = .locked && t.sel.any (fun c => !t.selectable t.auto c) then s.modTim (Tim.excludeTail s.tick) else s

/-- Evaluate selection at a boundary (R288, R293, R298, R299). -/
def State.timSelect (s : State) : State :=
  let t := s.timInForce
  let s := s.timLose
  let s' :=
    if t.state = .transition then s
    else if t.force != 0 then
      let ho := t.force = 1 && t.hoReady
      if t.state = (if ho then TimState.holdover else .freeRun) then s else s.timRest ho 3
    else match t.choose with
      | none => if t.state = .acquiring || t.state = .locked then s.timLeave 1 else s
      | some (c, fb) =>
        if t.sel = some c then s.modTim fun t => { t with fallback := fb }
        else match t.state with
          | .locked => s.modTim fun t => (((t.flag 1).log s.recCfn 0 (refCode t.sel) c 0).log s.recCfn 1 2 3 0).to .transition (some c) fb s.tick
          | .acquiring => s.modTim fun t => (t.log s.recCfn 0 (refCode t.sel) c 0).to .acquiring (some c) fb s.tick
          | old => s.modTim fun t => ((t.log s.recCfn 0 (refCode t.sel) c 0).log s.recCfn 1 old.code 1 0).to .acquiring (some c) fb s.tick
  s'.modTim Tim.refreshQl

/-- Evaluate selection, unless a second ends at this boundary and SECOND_BOUNDARY, which brings its measurements, is still to do it. -/
def State.timReselect (s : State) : State := if s.glb.secDue then s else s.timSelect

/-- Keep what the unit was before the boundary's selection. -/
def State.timNote (s : State) : State :=
  s.modTim fun t => { t with undo := some ⟨s.tick, t.state, t.sel, t.fallback, t.since, t.sticky, t.outQl, t.hist⟩ }

/-- A selection of candidate `lost` made at this boundary is taken back: it was not selectable there. -/
def State.timUndo (lost : Nat) (s : State) : State :=
  match s.tim.undo with
  | some u =>
    if u.at_ = s.tick && s.tim.sel = some lost && u.sel != some lost then
      s.modTim fun t => { t with state := u.state, sel := u.sel, fallback := u.fallback, since := u.since, sticky := t.sticky &&& u.sticky, outQl := u.outQl, hist := u.hist }
    else s
  | none => s

/-! ### Candidates (R282-R286, R291, R292) -/

/-- The lane of an LRC candidate (R282). -/
def candLane (i : Nat) (c : Cand) : Nat := (i - 8) / 2 * 8 + c.lane.toNat

/-- The failure condition of the frame that ends: no edge in 4 nominal periods, or an LRC lane that is not a LOCKED Line lane (R285,
R79). -/
def State.candDown (s : State) (noEdge : List Nat) (i : Nat) (c : Cand) : Bool :=
  if i < 8 then noEdge.contains i || c.loss
  else c.loss || (s.lane (candLane i c)).role != .line || (s.lane (candLane i c)).state != .locked

/-- Enter FAILED (R286). -/
def Cand.fail (c : Cand) : Cand :=
  match c.state with
  | .qualified | .disputed | .wtr => { (c.flag 2) with state := .failed, against := none, agree := none }
  | _ => c

/-- A new QL, and QL_EVT where it differs (R306). -/
def Cand.setQl (q : BitVec 4) (c : Cand) : Cand := if c.ql = q then c else { (c.flag 0) with ql := q }

/-- Whether a candidate's QL comes from the host (R79, R282). -/
def State.hostSourced (s : State) (i : Nat) (c : Cand) : Bool :=
  i < 8 || c.hostQl || (match s.laneGroup (candLane i c) with
    | some (_, g) => g.otl
    | none => false)

/-- The QL an OSMC-sourced candidate takes; a code that names no level is taken as QL-DNU (R284). -/
def State.osmcCandQl (s : State) (i : Nat) (c : Cand) : BitVec 4 :=
  match s.laneGroup (candLane i c) with
  | some (_, g) => if qlNamed s.tim.qlOpt g.ql.toNat then g.ql else 0xD
  | none => 0xF

/-- A candidate's monitors at a boundary. -/
def State.candBoundary (s : State) (noEdge : List Nat) (i : Nat) (c : Cand) : Cand :=
  if !c.enabled then c
  else
    let down := s.candDown noEdge i c
    let c := { c with activity := !down, cut := c.cut || down, loss := false }
    let c := c.setQl (if s.hostSourced i c then c.hostVal.getD 0xF else s.osmcCandQl i c)
    if down then c.fail else c

/-- The kept candidate no longer judges the disputed one: it left QUALIFIED, or their ranks differ (R292). -/
def Tim.unjudged (t : Tim) (c : Cand) : Bool :=
  match c.against with
  | some k => (t.cand k).state != .qualified || (t.cand k).ql != c.ql || (t.cand k).prio != c.prio
  | none => true

def Cand.clear (c : Cand) : Cand := { c with state := .qualified, against := none, agree := none }

/-- Apply a TIM_CAND_CFG (R282, R283, R286). What the host supplied as QL stays. -/
def Cand.configure (i : Nat) (tick : Cfn) (r : MbReq) (c : Cand) : Cand :=
  if r.u8 1 = 0 then { sticky := c.sticky, ql := c.ql, hostVal := c.hostVal, hostQl := i < 8 || r.u8 5 = 1, prio := BitVec.ofNat 4 (r.u8 2)
                       lane := BitVec.ofNat 3 (r.u8 4), freq := BitVec.ofNat 8 (r.u8 3), timeout := BitVec.ofNat 8 (r.u8 6) }
  else
    { c with
      enabled := true, prio := BitVec.ofNat 4 (r.u8 2), freq := BitVec.ofNat 8 (r.u8 3), lane := BitVec.ofNat 3 (r.u8 4)
      hostQl := i < 8 || r.u8 5 = 1, timeout := BitVec.ofNat 8 (r.u8 6)
      since := if c.enabled then c.since else tick, qlAt := if c.enabled then c.qlAt else some tick }

/-- Two candidates are selectable and of equal rank (R288, R291): in automatic choice one of PRIO 0 is not selectable. -/
def Tim.equalRank (t : Tim) (i j : Nat) : Bool :=
  let ok (k : Nat) : Bool := t.selectable (t.compat || t.hostRef != some k) k
  i != j && ok i && ok j && (t.cand i).ql = (t.cand j).ql && (t.cand i).prio = (t.cand j).prio

/-- The pairs of equal rank, each with the frame from which its frequencies are compared (R291). -/
def Tim.comparePairs (tick : Cfn) (t : Tim) : Tim :=
  let ks := tkeys t.cands
  let l := ks.flatMap fun i => (ks.filter fun j => i < j && t.equalRank i j).map fun j => 64 * i + j
  { t with pairs := l.map fun k => (k, tget tick t.pairs k) }

/-- Everything the timing unit does at the boundary that starts a frame (R285, R288, R301, R305). Where a second ends at the boundary,
its selection comes with SECOND_BOUNDARY, which brings the candidate states of that boundary (log entry 24). A DISPUTED candidate whose
judge was gone before this boundary returns at it (R292). -/
def State.timBoundary (noEdge : List Nat) (s : State) : State :=
  let s := s.modTim fun t =>
    let t := t.candPend.foldl (fun t e => t.modCand e.1 (Cand.configure e.1 s.tick e.2)) t
    { t with candPend := [] }
  let s := s.modTim fun t => { t with cands := tmap (fun _ (c : Cand) => if c.state = .disputed && t.unjudged c then c.clear else c) t.cands }
  let s := s.modTim fun t => ({ t with cands := tmap (fun i c => s.candBoundary noEdge i c) t.cands }).comparePairs s.tick
  s.timNote.timReselect

/-- A candidate's second ends (R285, R286). A second counts for a candidate that was enabled throughout it. -/
def Cand.secondEnd (whole : Bool) (tick : Cfn) (wtr limit : Nat) (m : Option CandMeas) (c : Cand) : Cand :=
  if !c.enabled then c
  else
    let within := m.any fun (m : CandMeas) => m.offset.natAbs ≤ limit
    let clean := m.any (fun (m : CandMeas) => m.activity) && within && !c.cut
    let c := { c with freqOk := within, offset := (m.map (fun (m : CandMeas) => m.offset)).getD c.offset, cut := false }
    match c.state with
    | .disabled => if !whole then c else if clean then { c with state := .qualified } else { (c.flag 2) with state := .failed }
    | .failed => if clean then { c with state := if wtr = 0 then .qualified else .wtr, since := tick } else c
    | _ => if m.isSome && !within then c.fail else c

/-- The end of a transition (R293, R299); selection is evaluated again at once. -/
def State.timEnd (s : State) : State :=
  match s.tim.state, s.tim.sel with
  | .transition, some c =>
    (if s.timInForce.selectable s.tim.auto c then
      s.modTim fun t => (t.log s.recCfn 1 3 2 0).to .locked t.sel t.fallback s.tick
     else s.timLeave 2).timSelect
  | _, _ => s

/-- The holdover limit: FREE_RUN, and the estimate is discarded (R298). -/
def State.timLimit (s : State) : State :=
  if s.tim.state = .holdover && secFrames s.tim.hoLimit ≤ since s.tick s.tim.since then
    (s.timRest false 4).modTim fun t => { t with hoReady := false, estimate := 0, ests := [] }
  else s

/-- Every candidate's second ends at this boundary; `start` is the second's first frame by the timers' count. What ended at the same
boundary, a transition or the holdover limit, sees the candidates as they are now (R293, R304). -/
def State.timSecond (meas : List CandMeas) (start : Cfn) (s : State) : State :=
  let s := s.modTim fun t => ({ t with cands := tmap (fun i (c : Cand) =>
    c.secondEnd (cfnGe start c.since) s.tick t.wtr (t.qualPpm * 1000) (meas.find? fun (m : CandMeas) => m.cand = i)) t.cands }).comparePairs s.tick
  let s := if s.tim.endDue then s.timEnd else s.timNote.timSelect
  let s := if s.tim.limitDue then s.timLimit else s
  s.modTim fun t => { t with endDue := false, limitDue := false }

/-- A candidate loses its activity; it becomes FAILED at the next boundary (R285). -/
def execCandActivityLoss (i : Nat) (s : State) : Result :=
  done (s.modTim (Tim.modCand i fun c => if c.enabled then { c with loss := true, cut := true } else c))

/-- Wait-to-restore ends (R286). -/
def execCandWtrExpire (i : Nat) (s : State) : Result :=
  let c := s.tim.cand i
  done (if c.state = .wtr && secFrames s.tim.wtr ≤ since s.tick c.since then
      (s.modTim (Tim.modCand i fun c => { c with state := .qualified })).timReselect
    else s)

/-- A host-sourced QL times out (R283); OUT_QL follows at once (R301, R304). -/
def execQlTimeout (i : Nat) (s : State) : Result :=
  let c := s.tim.cand i
  done (if c.enabled && s.hostSourced i c && c.timeout != 0 && secFrames c.timeout.toNat ≤ since s.tick (c.qlAt.getD 0) then
      s.modTim fun t => (t.modCand i fun c => { (c.setQl 0xF) with hostVal := some 0xF }).refreshQl
    else s)

/-- Which of two candidates is kept (R291). Offsets and the estimate are in 0.001 ppb. Where both lie equally close to the estimate it
is the lower-numbered one: the spec does not say which (DESIGN CHOICE, log entry 24). -/
def Tim.keepFirst (t : Tim) (i j : Nat) (offI offJ : Int) : Bool :=
  let di := (offI - t.estimate).natAbs
  let dj := (offJ - t.estimate).natAbs
  if t.hoReady && di != dj then di < dj else i < j

/-- A pair's window of 976,563 frames of equal rank is full, and no pair of a greater lower index was taken at this boundary: the unit
takes the pairs in ascending order (R291). -/
def State.pairDue (s : State) (i j : Nat) : Bool :=
  let k := min i j
  (tfind s.tim.pairs (64 * k + max i j)).any (fun a => 976563 ≤ since s.tick a) &&
  !s.tim.cmpAt.any fun c => c.1 = s.tick && k < c.2

/-- A 10 s comparison ends (R291): a pair of equal rank that disagrees loses one member to DISPUTED; the comparison of a
DISPUTED candidate with the one kept starts or breaks its agreement (R292). -/
def execDisputeCompare (i j : Nat) (offI offJ : Int) (s : State) : Result :=
  let t := s.tim
  let differ := t.dispPpb * 1000 < (offI - offJ).natAbs
  let judge (d : Nat) := s.modTim (Tim.modCand d fun c => { c with agree := if differ then none else some (c.agree.getD s.tick) })
  done (if i = j then s
    else if (t.cand i).state = .disputed && (t.cand i).against = some j then judge i
    else if (t.cand j).state = .disputed && (t.cand j).against = some i then judge j
    else if t.equalRank i j && differ && s.pairDue i j then
      let kept := if t.keepFirst i j offI offJ then i else j
      let lost := if kept = i then j else i
      let s := (s.timUndo lost).modTim fun t => (({ t with cmpAt := some (s.tick, min i j) }.modCand lost fun c =>
        { (c.flag 1) with state := .disputed, against := some kept, agree := none }).flag 5).log s.recCfn 2 kept lost 0
      (s.event 0x4901 0 [BitVec.ofNat 8 kept, BitVec.ofNat 8 lost]).timReselect
    else s)

/-- A DISPUTED candidate agrees for 60 s, or has nothing left to be judged against (R292). -/
def execDisputeClear (i : Nat) (s : State) : Result :=
  let c := s.tim.cand i
  done (if c.state = .disputed && (s.tim.unjudged c || c.agree.any fun a => 5859375 ≤ since s.tick a) then
      (s.modTim (Tim.modCand i Cand.clear)).timReselect
    else s)

/-! ### Loop events (R293-R298) -/

/-- A transition ends; where a second ends at the same boundary, with the candidates of that second's end. -/
def execTimTransitionEnd (s : State) : Result :=
  done (if s.glb.secDue && s.tim.state = .transition then s.modTim fun t => { t with endDue := true } else s.timEnd)

/-- The loop bandwidth of a BW code in mHz, where 0x9 to 0xF act as 0x4 (R295). -/
def bwMilliHz (code : Nat) : Nat := ([1, 3, 10, 100, 1000, 10000, 100000, 1000000, 4000000][code]?).getD 1000

/-- The frames for which the phase error must have stayed within 100 ns: 10 ÷ bandwidth seconds, and at least 1 s (R296). The bandwidth
is the set one: within 100 ns for so long the output is within 1 ppm, where fast acquisition ends (DEDUCED, log entry 24). -/
def Tim.lockFrames (t : Tim) : Nat :=
  let m := bwMilliHz t.bw
  max (secFrames 1) ((10000 * 390625 + 4 * m - 1) / (4 * m))

/-- The unit declares LOCKED (R296): the phase error has stayed within 100 ns long enough, which takes that long in ACQUIRING. -/
def execTimLock (s : State) : Result :=
  done (if s.tim.state = .acquiring && s.tim.lockFrames ≤ since s.tick s.tim.since then
      s.modTim fun t => ((t.log s.recCfn 1 1 2 0).to .locked t.sel t.fallback s.tick).refreshQl
    else s)

/-- The phase error exceeds 1 µs in LOCKED (R296). -/
def execTimLockLoss (phaseNs : Int) (s : State) : Result :=
  done (if s.tim.state = .locked && 1000 < phaseNs.natAbs then
      s.modTim fun t => (((t.flag 0).log s.recCfn 1 2 1 0).to .acquiring t.sel t.fallback s.tick).refreshQl
    else s)

/-- An estimate of the last 60 s spent in LOCKED. The standby unit's own estimate is that of the same output, to which it is locked, from
when it is READY or ISOLATED (R302; DEDUCED, log entry 24). -/
def Tim.takeEstimate (tick : Cfn) (e : Int) (standby : Bool) (t : Tim) : Tim :=
  let recent := t.ests.takeWhile fun x => Machine.since tick x.1 < secFrames 2
  let older := (t.ests.dropWhile fun x => Machine.since tick x.1 < secFrames 2).take 1
  { t with
    hoReady := true, estimate := e, ests := (tick, e) :: (recent ++ older)
    stbReady := t.stbReady || standby, stbEst := if standby then e else t.stbEst }

/-- 62 s of continuous LOCKED: the estimate, in 0.001 ppb, is valid. From then on it follows the output while the unit is LOCKED, after a
relock from the start, because it is over the last 60 s spent in LOCKED (R297). -/
def execHoReady (estimatePpt : Int) (s : State) : Result :=
  done (if s.tim.state = .locked && (s.tim.hoReady || secFrames 62 ≤ since s.tick s.tim.lockedAt) then
      s.modTim (Tim.takeEstimate s.tick estimatePpt (s.cps.unit 0 (b2n (!s.tim.activeTu))).fine)
    else s)

/-- The holdover limit; where a second ends at the same boundary, after the candidates of that second's end (R298, R304). -/
def execHoldoverLimit (s : State) : Result :=
  done (if s.glb.secDue then s.modTim fun t => { t with limitDue := true } else s.timLimit)

/-! ### Role swaps (R302, R303) -/

/-- The standby TU can take over in a swap: it reads ALIGNED, and is READY (R303, R436). -/
def State.tuAligned (s : State) : Bool := s.tim.aligned && (s.cps.unit 0 (b2n (!s.tim.activeTu))).state = .ready

/-- The states in which a swap takes place. -/
def Tim.swapOk (t : Tim) : Bool := t.state = .locked || t.state = .holdover || t.state = .freeRun

/-- The multiplexer passes the other unit: ACTIVE_TU, SWAP and TU_SWAP. -/
def State.tuFlip (cause : Nat) (s : State) : State :=
  let new := !s.tim.activeTu
  let s := s.modTim fun t => { ((t.flag 6).log s.recCfn 3 (b2n t.activeTu) (b2n new) cause) with
    activeTu := new, lastSwap := s.tick, swapPend := false
    hoReady := t.stbReady, estimate := t.stbEst, stbReady := t.hoReady, stbEst := t.estimate }
  s.event 0x4903 (b2n new) []

/-- A swap: the former active unit is the aligned standby. -/
def State.tuSwap (s : State) : State :=
  let a := b2n s.tim.activeTu
  let s := s.modCps fun c => (c.modUnit 0 a fun u => { u with state := .ready }).modUnit 0 (1 - a) fun u => { u with state := .active }
  s.tuFlip 0

def State.swapReady (s : State) : Bool := s.tuAligned && s.tim.swapOk

/-- Frames in `h` hours. -/
def hourFrames (h : Nat) : Nat := h * 351562500

/-- SWAP_PERIOD falls due (R303). -/
def execTuPeriodicSwap (s : State) : Result :=
  done (if s.tim.swapH != 0 && hourFrames s.tim.swapH ≤ since s.tick s.tim.lastSwap && s.swapReady then s.tuSwap else s)

/-- A swap that TIM_SWAP ordered takes place at the boundary (R303). -/
def State.swapBoundary (s : State) : State := if s.tim.swapPend && s.swapReady then s.tuSwap else s

/-! ### Registers (R306) -/

def Tim.stat (t : Tim) : Nat :=
  t.state.code * 2 ^ 29 + refCode t.sel * 2 ^ 23 + b2n t.activeTu * 2 ^ 22 + b2n t.hoReady * 2 ^ 21 + t.outQl.toNat * 2 ^ 17 +
  t.sticky.toNat * 2 ^ 2

def Tim.candReg (t : Tim) (i : Nat) : Nat :=
  let c := t.cand i
  c.state.code * 2 ^ 29 + c.ql.toNat * 2 ^ 25 + c.prio.toNat * 2 ^ 21 + b2n c.activity * 2 ^ 20 + b2n c.freqOk * 2 ^ 19 +
  b2n (t.excluded i) * 2 ^ 18 + c.sticky.toNat * 2 ^ 7

/-- `TU.STAT` of TU-A (0) or TU-B (1). No unit drives the outputs while they follow LOCAL_OSC (R429); PHASE_PS is a measurement the
spec states no value for. -/
def State.tuStat (s : State) (u : Nat) (phase : BitVec 16) : Nat :=
  let run := s.cps.unit 0 u
  let active := u = b2n s.tim.activeTu
  b2n (active && !s.tim.localOsc) * 2 ^ 31 + b2n (s.tim.aligned && !active) * 2 ^ 30 + b2n (if u = 0 then s.tim.faultA else s.tim.faultB) * 2 ^ 29 +
  b2n (run.state = .retired) * 2 ^ 28 + phase.toNat

/-! ### Outputs (R300) -/

/-- FSYNC_OUT in mode 1 for the frame that starts. -/
def Tim.fsyncFrame (cfn : Cfn) (t : Tim) : Tim := { t with fsyncOut := t.fsyncMode = 1 && cfn.toNat % 2 ^ t.fsyncK = 0 }

/-- CLKOUT is held low: off, or OUT_QL above SQUELCH_QL, where 0xF never squelches. -/
def Tim.clkLow (t : Tim) : Bool := t.clkout = 0 || (t.squelch != 0xF && t.squelch < t.outQl)

/-! ### Commands (R305, R345) -/

/-- Whether the field of mask bit `b` is named. -/
def namesField (r : MbReq) (b : Nat) : Bool := bitOf (r.u32 0) b

def timCfgFields (r : MbReq) : Bool :=
  let ok (b : Nat) (c : Bool) : Bool := !namesField r b || c
  r.u32 0 < 2 ^ 11 && ok 0 (10 ≤ r.u16 4 && r.u16 4 ≤ 1000) && ok 1 (r.u16 6 ≤ 720) && ok 2 (1 ≤ r.u16 8 && r.u16 8 ≤ 1000) &&
  ok 3 (r.u8 10 ≤ 1) && ok 4 (r.u8 11 ≤ 15) && ok 5 (1 ≤ r.u32 12 && r.u32 12 ≤ 604800) && ok 6 (r.u16 16 ≤ 720) && ok 7 (r.u8 18 ≤ 6) &&
  ok 8 (r.u8 19 ≤ 15) && ok 9 (r.u8 20 ≤ 2) && ok 10 (r.u8 21 ≤ 15)

/-- Apply a TIM_CFG. -/
def Tim.configure (r : MbReq) (t : Tim) : Tim :=
  let pick {α : Type} (b : Nat) (new old : α) : α := if namesField r b then new else old
  { t with
    qualPpm := pick 0 (r.u16 4) t.qualPpm, wtr := pick 1 (r.u16 6) t.wtr, dispPpb := pick 2 (r.u16 8) t.dispPpb
    selCtrl := pick 3 (setBit t.selCtrl 27 (r.u8 10 = 1)) t.selCtrl
    ownQl := pick 4 (BitVec.ofNat 4 (r.u8 11)) t.ownQl, hoLimit := pick 5 (r.u32 12) t.hoLimit, swapH := pick 6 (r.u16 16) t.swapH
    clkout := pick 7 (r.u8 18) t.clkout, squelch := pick 8 (BitVec.ofNat 4 (r.u8 19)) t.squelch
    fsyncMode := pick 9 (r.u8 20) t.fsyncMode, fsyncK := pick 10 (r.u8 21) t.fsyncK }

/-- Configurations that wait for the boundary. -/
def Tim.applyCfg (t : Tim) : Tim := { (t.cfgPend.foldl (fun t r => t.configure r) t) with cfgPend := [] }

def timCfgBody (r : MbReq) (s : State) : Ans × State := (.ok, s.modTim fun t => { t with cfgPend := t.cfgPend ++ [r] })

def timCfgForm : Form := .fixed 22 timCfgFields

/-- Set the timing unit's parameters from the next boundary (R305). -/
def execTimCfg (r : MbReq) (s : State) : Result := mailboxRow 0x0901 timCfgForm timCfgBody r s

def timCandFields (r : MbReq) : Bool :=
  r.u8 0 < 40 && r.u8 1 ≤ 1 && r.u8 2 ≤ 15 && r.u8 3 ≤ 6 && r.u8 4 ≤ 7 && r.u8 5 ≤ 1 && r.u8 6 ≤ 60 &&
  (8 ≤ r.u8 0 || r.u8 1 = 0 || (1 ≤ r.u8 3 && r.u8 5 = 1))

def timCandCfgBody (r : MbReq) (s : State) : Ans × State :=
  let i := r.u8 0
  let lane := (i - 8) / 2 * 8 + r.u8 4
  if 8 ≤ i && (s.lane lane).role != .line then (.badState, s)
  else (.ok, s.modTim fun t => { t with candPend := tins t.candPend i r })

def timCandCfgForm : Form := .fixed 7 timCandFields

/-- Configure a candidate from the next boundary (R282, R286). -/
def execTimCandCfg (r : MbReq) (s : State) : Result := mailboxRow 0x0902 timCandCfgForm timCandCfgBody r s

def timSetQlBody (r : MbReq) (s : State) : Ans × State :=
  (.ok, s.modTim fun t => (t.modCand (r.u8 0) fun c =>
    { (c.setQl (BitVec.ofNat 4 (r.u8 1))) with qlAt := some s.tick, hostVal := some (BitVec.ofNat 4 (r.u8 1)) }).refreshQl)

def timSetQlForm : Form := {
    len := fun _ => 2, fields := fun r => r.u8 0 < 40,
    object := fun r s => qlNamed s.tim.qlOpt (r.u8 1) && s.hostSourced (r.u8 0) (s.tim.cand (r.u8 0)) }

/-- Set a host-sourced candidate's QL (R283, R284). -/
def execTimSetQl (r : MbReq) (s : State) : Result := mailboxRow 0x0903 timSetQlForm timSetQlBody r s

/-- Whole seconds left of `total` seconds that began at `start`, rounded up. -/
def secondsLeft (tick start : Cfn) (total : Nat) : Nat := ((secFrames total - since tick start) * 4 + 390624) / 390625

/-- The wait-to-restore time left: of the candidate whose WTR ends first. -/
def State.wtrLeft (s : State) : Nat :=
  let l := (s.tim.cands.filter fun e => e.2.state = .wtr).map fun e => secondsLeft s.tick e.2.since s.tim.wtr
  minOf l

def timStatusBody (_ : MbReq) (s : State) : Ans × State :=
  let p := s.draw 16
  let q := p.2.draw 16
  (⟨0, leBytes 4 s.tim.stat ++ leBytes 4 s.tim.selCtrl.toNat ++ leBytes 4 (toS 32 s.tim.estimate) ++
    leBytes 4 (if s.tim.state = .holdover then secondsLeft s.tick s.tim.since s.tim.hoLimit else 0) ++ leBytes 4 s.wtrLeft ++
    leBytes 4 (s.tuStat 0 p.1) ++ leBytes 4 (s.tuStat 1 q.1) ++
    (List.range 40).flatMap fun i => leBytes 4 (s.tim.candReg i) ++ leBytes 4 (toS 32 (s.tim.cand i).offset)⟩, q.2)

def timStatusForm : Form := .fixed 0

/-- Timing status (R305, R345). -/
def execTimStatus (r : MbReq) (s : State) : Result := mailboxRow 0x0904 timStatusForm timStatusBody r s

def TimHist.bytes (h : TimHist) : List Byte :=
  padTo 16 (cfnBytes h.cfn ++ [Config.histCode h.kind, BitVec.ofNat 8 h.old, BitVec.ofNat 8 h.new, Config.histCode (16 + h.cause)])

def timHistoryBody (_ : MbReq) (s : State) : Ans × State := (⟨0, padTo 512 (s.tim.hist.flatMap TimHist.bytes)⟩, s)

def timHistoryForm : Form := .fixed 0

/-- The last 32 timing events (R305). -/
def execTimHistory (r : MbReq) (s : State) : Result := mailboxRow 0x0905 timHistoryForm timHistoryBody r s

def timSwapBody (_ : MbReq) (s : State) : Ans × State :=
  if !s.tim.swapOk then (.busy, s) else if !s.tuAligned then (.badState, s)
  else (.ok, s.modTim fun t => { t with swapPend := true })

def timSwapForm : Form := .fixed 0

/-- Order a swap (R303, R305). -/
def execTimSwap (r : MbReq) (s : State) : Result := mailboxRow 0x0906 timSwapForm timSwapBody r s

end Sys2Proof.Machine
end

