-- ==== Sys2Proof/Machine/Units.lean ====
section
/-!
DEFINITION. The redundant CP and TU pairs: heartbeats and votes, fault counts, resynchronisation, role swaps, live update
and the DEV commands about them (chapters 14 and 19). Pair 0 is the TUs, pair 1 the CPs; unit 0 is A, unit 1 is B.
-/

namespace Sys2Proof.Machine

/-- The active unit of a pair. -/
def State.activeOf (s : State) (pair : Nat) : Nat := if pair = 0 then b2n s.tim.activeTu else b2n s.cps.active

def State.standbyOf (s : State) (pair : Nat) : Nat := 1 - s.activeOf pair

/-- The standby can take over: READY, and not halted through JTAG (R413, R428). -/
def State.coverReady (s : State) (pair : Nat) : Bool :=
  (s.cps.unit pair (s.standbyOf pair)).state = .ready && !(pair = 1 && s.rst.cpHalted.getLsbD (s.standbyOf 1))

/-- A fault event counted in the window; the third is permanent, and so is any of a readmitted unit that resynchronises
(R432, R433). -/
def UnitRun.fault (tick : Cfn) (u : UnitRun) : UnitRun :=
  { u with
    events := u.events + 1, window := some (u.window.getD tick), since := tick, unseen := false
    state := if 3 ≤ u.events + 1 || (u.readmitted && u.state = .resync) then .retired else .resync }

/-- A CP restarts in the boot ROM, with its REMAP bit clear (R366, R432). -/
def State.restartCp (unit : Nat) (s : State) : State := s.modGlb fun g => { g with remap := setBit g.remap unit false }

/-- A fault event of a unit, with its record, which is of a retirement where the fault is permanent (R432, R439). -/
def State.unitFault (pair unit cause cover : Nat) (s : State) : State :=
  let u := { (s.cps.unit pair unit).fault s.tick with fresh := s.coreRuns }
  let s := s.modCps (Cps.modUnit pair unit fun _ => u)
  let standby := unit = s.standbyOf 0
  let s := if pair = 0 then s.modTim fun t => { t with
      aligned := false, stbReady := t.stbReady && !standby, stbEst := if standby then 0 else t.stbEst
      faultA := t.faultA || unit = 0, faultB := t.faultB || unit = 1 } else s.restartCp unit
  s.unitRecord pair (if u.state = .retired then 2 else 1) unit cause u.events cover

/-- A load that runs at a takeover restarts from its first descriptor (R330). -/
def Sch.restartLoad (c : Sch) : Sch := { c with load := c.load.map fun l => { l with undef := false, again := true } }

/-- CP_SWAP: the referee exchanges the roles (R330, R344). -/
def State.cpFlip (cause : Nat) (s : State) : State :=
  let new := 1 - b2n s.cps.active
  let s := s.modSch Sch.restartLoad
  let s := s.modCps fun c => { (c.modUnit 1 new fun u => { u with state := .active }) with
    active := !c.active, lastSwap := s.tick, swapDue := false, applied := c.applied + s.mbx.journal.length }
  let s := s.modMbx fun m => { m with journal := [] }
  s.event 0x4102 new [BitVec.ofNat 8 cause]

/-- A swap of the CP pair: the former active CP is the READY standby (R434). -/
def State.cpSwap (cause : Nat) (s : State) : State :=
  (s.modCps (Cps.modUnit 1 (s.activeOf 1) fun u => { u with state := .ready })).cpFlip cause

/-- A live update ends (R334, R438). -/
def State.endUpdate (status : Nat) (s : State) : State :=
  match s.cps.update with
  | none => s
  | some (_, mb, seq) =>
    (s.modCps fun c => { c with update := none, updated := false, checkpoint := false }).complete (mb, seq) 0x0C04 status (b2n s.cps.active) []

/-- The new slot runs from the swap on. -/
def State.runSlot (k : Nat) (s : State) : State :=
  let f := s.cps.image k
  s.modCps fun c => { c with running := k, version := f.version, jVersion := f.journal, updated := true }

/-- The standby of a live update takes over on the new slot: in the update's own swap, or because the active CP is lost
after the checkpoint (R334, R438). The former active CP restarts on that slot unless its fault retired it. -/
def State.updateSwap (s : State) : State :=
  match s.cps.update with
  | some (k, _, _) =>
    (((s.restartCp (s.activeOf 1)).modCps (Cps.modUnit 1 (s.activeOf 1) fun u => if u.state = .retired then u else { u with state := .resync, since := s.tick })).cpFlip
      3).runSlot k
  | none => s

/-- The active CP of a live update is lost after the checkpoint: the standby takes over on the new slot, and the update ends at once
where the former active CP is retired and does not restart (R432, R438). -/
def State.updateLost (a cause : Nat) (s : State) : State :=
  let s := (s.unitFault 1 a cause (1 - a)).updateSwap
  let s := s.unitRecord 1 3 a cause (s.cps.unit 1 a).events (1 - a)
  if (s.cps.unit 1 a).state = .retired then s.endUpdate 0 else s

/-- The active CP is lost (R428, R429). -/
def State.cpLost (cause : Nat) (reset : Nat) (s : State) : State :=
  let a := s.activeOf 1
  if s.coverReady 1 then
    (((s.unitFault 1 a cause (1 - a)).cpFlip 2).unitRecord 1 3 a cause (s.cps.unit 1 a).events (1 - a))
  else if s.cps.update.isSome && s.cps.checkpoint && !s.cps.updated && s.rst.cpHalted = 0 then
    s.updateLost a cause
  else s.faultReset false reset

/-- The active TU is lost: the standby continues, or LOCAL_OSC drives the core PLL (R302, R429). -/
def State.tuLost (cause : Nat) (s : State) : State :=
  let a := s.activeOf 0
  let ok := s.coverReady 0
  let s := s.unitFault 0 a cause (if ok then 1 - a else 0xFFFF)
  if ok then
    ((((s.modCps (Cps.modUnit 0 (1 - a) fun u => { u with state := .active })).tuFlip 1).modTim fun t => { t with stbReady := false, stbEst := 0 }).unitRecord
      0 3 a cause (s.cps.unit 0 a).events (1 - a))
  else s.modTim fun t => { t with localOsc := true }

/-- The standby of a pair is lost, and with it a live update before its swap (R428, R438); after its swap, where the former active CP is
retired. -/
def State.standbyLost (pair cause : Nat) (s : State) : State :=
  let b := s.standbyOf pair
  let s' := s.unitFault pair b cause 0xFFFF
  if pair = 1 && s.cps.update.isSome && (!s.cps.updated || (s'.cps.unit 1 b).state = .retired) then s'.endUpdate 0x8003 else s'

/-- A member that works: it serves, stands by or is isolated. -/
def UnitRun.works (u : UnitRun) : Bool := u.state = .active || u.state = .ready || u.state = .isolated

/-- Nganas runs on the CPs: from its start in the boot sequence on (R389, R427). -/
def State.nganasRuns (s : State) : Bool := s.rst.phase = .nganas || s.rst.bootOkSeen

/-- A unit sends heartbeats that count: it works, no CP is halted where it is a CP, and no scan has stopped its clock (R413). -/
def State.voted (s : State) (pair unit : Nat) : Bool :=
  pair < 2 && unit < 2 && !s.rst.scanDirty && (if pair = 0 then s.rst.phase = .started else s.nganasRuns && s.rst.cpHalted = 0) &&
  (s.cps.unit pair unit).works

/-- Whether the referee sees a unit. -/
def State.refereeSees (pair unit : Nat) (sees : Bool) (s : State) : State :=
  s.modCps (Cps.modUnit pair unit fun u => { u with unseen := !sees })

/-- The partner of `unit` does not see it: the standby of the pair is isolated (R428). -/
def State.isolate (pair : Nat) (s : State) : State :=
  let b := s.standbyOf pair
  let s := (s.count 767 1).unitRecord pair 6 b 1 (s.cps.unit pair b).events 0xFFFF
  s.modCps (Cps.modUnit pair b fun u => if u.state = .ready then { u with state := .isolated } else u)

/-- The referee has lost the heartbeats of both CPs: a warm reset (R429). -/
def State.bothUnseen (s : State) : Bool := s.voted 1 0 && s.voted 1 1 && s.cps.cpA.unseen && s.cps.cpB.unseen

/-- The outcome of a vote on a unit (R428, R429). -/
def State.vote (pair unit : Nat) (partnerSees refereeSees : Bool) (s : State) : State :=
  if !s.voted pair unit then s
  else match partnerSees, refereeSees with
    | true, true => s.refereeSees pair unit true
    | false, true => (s.refereeSees pair unit true).isolate pair
    | true, false =>
      let s := ((s.count 767 1).unitRecord pair 6 unit 1 (s.cps.unit pair unit).events 0xFFFF).refereeSees pair unit false
      if pair = 1 && s.bothUnseen then s.faultReset false 7 else s
    | false, false =>
      if unit != s.activeOf pair then s.standbyLost pair 1
      else if pair = 1 then s.cpLost 1 7
      else s.tuLost 1

/-- The unit of a pair whose heartbeats PERT.HB suppresses: CP-A, CP-B, TU-A, TU-B (R451). -/
def Pert.hbUnit (p : Pert) : Nat × Nat := (if fld p.hb.toNat 28 3 < 2 then 1 else 0, fld p.hb.toNat 28 3 % 2)

/-- PERT.HB suppresses the heartbeats of a unit of a pair in this frame. -/
def Pert.hbMutes (p : Pert) : Bool := p.hb.getLsbD 31 && fld p.hb.toNat 0 16 != 0 && fld p.hb.toNat 28 3 < 4

/-- The loss time of R427 in frames: 400 us of a CP, 2 frames of a TU. -/
def hbLossFrames (pair : Nat) : Nat := if pair = 1 then 39 else 2

/-- PERT.HB has suppressed a unit's heartbeats toward the partner (path 0) or the referee (1) for the loss time: that observer has lost
them, as with a real loss (R427, R452; log entry 38). -/
def Pert.mutes (pair unit path : Nat) (p : Pert) : Bool :=
  p.hbMutes && p.hbUnit = (pair, unit) && p.hb.getLsbD (26 + path) && hbLossFrames pair ≤ p.hbRun

/-- A heartbeat is lost at the partner, the referee or both (R428). -/
def execHeartbeatLoss (pair unit : Nat) (partnerSees refereeSees : Bool) (s : State) : Result :=
  done (s.vote pair unit (partnerSees && !s.pert.mutes pair unit 0) (refereeSees && !s.pert.mutes pair unit 1))

/-- The active TU's output edge is missing (R431, R432). -/
def execTuEdgeMissing (s : State) : Result :=
  done (if s.rst.phase = .started && !s.rst.scanDirty && !s.tim.localOsc then s.tuLost 3 else s)

/-- ALIGNED follows the measured phase of a standby that works (R302). -/
def Tim.measure (works : Bool) (phase : Option Int) (t : Tim) : Tim :=
  { t with
    aligned := match phase with
      | some p => works && p.natAbs ≤ 50
      | none => t.aligned
    phaseRun := if phase.any fun p => 500 < p.natAbs then t.phaseRun + 1 else 0 }

/-- The TU monitors at a boundary (R431, R432): a failed loop self-check is a fault event of its unit, and a phase disagreement of 16
frames without one is the standby's. The standby's own event comes first, so that two failures in one frame leave no unit. -/
def State.tuBoundary (fails : List Nat) (phase : Option Int) (s : State) : State :=
  let a := s.activeOf 0
  let b := s.standbyOf 0
  let works := (s.cps.unit 0 b).works
  let s := s.modTim (Tim.measure works phase)
  let late := 16 ≤ s.tim.phaseRun
  let s := if late then s.modTim fun t => { t with phaseRun := 0 } else s
  let s := if works && fails.contains b then s.standbyLost 0 4
    else if works && late && !fails.contains a then s.standbyLost 0 5 else s
  if fails.contains a && !s.tim.localOsc then s.tuLost 4 else s

/-- A CP that runs finds an uncorrectable error in its own working SRAM bank (R432, R386). -/
def State.cpBankError (unit : Nat) (s : State) : State :=
  if unit ≥ 2 || !(s.nganasRuns || s.rst.phase = .romBoot) || s.rst.cpHalted.getLsbD unit || s.rst.scanDirty then s
  else if unit = s.activeOf 1 then s.cpLost 2 8
  else if (s.cps.unit 1 unit).state = .retired then s
  else s.standbyLost 1 2

/-- The error counts in the memory (R373), and is a fault event of the CP (R432). -/
def execCpBankUncorrectableError (unit : Nat) (s : State) : Result :=
  done (if 2 ≤ unit then s else (s.modMemRun unit (MemRun.note false)).cpBankError unit)

/-- A member has resynchronised (R436): it is READY, a CP with its REMAP bit that the ROM set (R366); the standby of a live update takes over, and the former active CP's
return ends the update (R334). A TU that returns has copied the active unit's estimate (R436), and becomes active while LOCAL_OSC is
passed (R429). While a CP is halted through JTAG no roles move: the swap of an update waits (R413). -/
def execUnitReady (pair unit : Nat) (s : State) : Result :=
  let u := s.cps.unit pair unit
  done (if pair ≥ 2 || unit ≥ 2 || (u.state != .resync && u.state != .isolated) then s
    else
      let s := (s.modCps (Cps.modUnit pair unit fun u => { u with state := .ready, readmitted := false })).unitRecord pair 7 unit 7 u.events 0xFFFF
      if pair = 0 then
        let s := s.modTim fun t => { t with
          aligned := true, stbReady := if u.state = .resync then t.hoReady else t.stbReady, stbEst := if u.state = .resync then t.estimate else t.stbEst }
        if s.tim.localOsc then
          let s := (s.modCps (Cps.modUnit 0 unit fun u => { u with state := .active })).modTim fun t => { t with localOsc := false }
          if s.activeOf 0 = unit then s else s.tuFlip 1
        else s
      else
        let s := if u.state = .resync then s.modGlb fun g => { g with remap := setBit g.remap unit true } else s
        if s.cps.update.isNone then s else if s.cps.updated then s.endUpdate 0 else if s.rst.cpHalted = 0 then s.updateSwap else s)

/-- Resynchronisation takes too long: 30 s for a CP, 120 s for a TU (R432). -/
def execResyncTimeout (pair unit : Nat) (s : State) : Result :=
  let u := s.cps.unit pair unit
  let limit := if pair = 0 then 11718750 else 2929688
  done (if pair ≥ 2 || unit ≥ 2 || u.state != .resync || since s.tick u.since < limit then s
    else
      let s := (s.modCps (Cps.modUnit pair unit fun u => { u with state := .retired })).unitRecord pair 2 unit 6 u.events 0xFFFF
      if pair = 1 && s.cps.update.isSome then s.endUpdate 0x8003 else s)

/-- The 24 h window ends (R432). -/
def execUnitWindowEnd (pair unit : Nat) (s : State) : Result :=
  done (if pair ≥ 2 || unit ≥ 2 then s
    else s.modCps (Cps.modUnit pair unit fun u => match u.window with
      | some w => if 8437500000 ≤ since s.tick w && u.state != .retired then { u with events := 0, window := none } else u
      | none => u))

/-- A CP swap may be made: the standby is READY, no live update runs, and no CP is halted through JTAG (R413, R434). -/
def State.cpSwapReady (s : State) : Bool := s.coverReady 1 && s.cps.update.isNone && s.rst.cpHalted = 0 && s.rst.phase = .started

/-- CP_SWAP_PERIOD has run since the last swap of any cause (R434). -/
def State.cpSwapDue (s : State) : Bool := s.cps.swapH != 0 && hourFrames s.cps.swapH ≤ since s.tick s.cps.lastSwap

/-- CP_SWAP_PERIOD falls due: the roles swap, or the swap waits until they can (R434). -/
def execCpPeriodicSwap (s : State) : Result :=
  done (if !s.cpSwapDue then s else if s.cpSwapReady then s.cpSwap 0 else s.modCps fun c => { c with swapDue := true })

/-- The standby applies one journal record (R329); in a live update that is after the checkpoint (R334). -/
def execJournalRecord (s : State) : Result :=
  done (if (s.cps.unit 1 (s.standbyOf 1)).state = .retired then s
    else (s.modCps fun c => { c with
      applied := c.applied + min 1 s.mbx.journal.length, checkpoint := c.checkpoint || c.update.isSome }).modMbx fun m => { m with
      journal := m.journal.drop 1 })

/-- A live update's swap that waited for the end of a halt (R413). -/
def State.resumeUpdate (s : State) : State :=
  if s.cps.update.isSome && !s.cps.updated && s.rst.cpHalted = 0 && (s.cps.unit 1 (s.standbyOf 1)).state = .ready then s.updateSwap else s

/-- At a boundary, role changes that waited are made: the swap of a live update, and a periodic swap that is still due (R334, R413,
R434). -/
def State.cpBoundary (s : State) : State :=
  let s := s.modCps fun c => { c with
    cpA := { c.cpA with fresh := false }, cpB := { c.cpB with fresh := false }, tuA := { c.tuA with fresh := false }, tuB := { c.tuB with fresh := false } }
  let s := s.resumeUpdate
  if s.cps.swapDue && s.cpSwapDue && s.cpSwapReady then s.cpSwap 0 else s

/-- A CP is halted or resumed through JTAG at D2 or above; in Operational only the standby can be halted (R412, R413,
R417). -/
def execJtagCpHalt (unit : Nat) (halt : Bool) (s : State) : Result :=
  done (if unit < 2 && 2 ≤ s.rst.dbgLevel.toNat && (!halt || s.rst.lc != .operational || unit = s.standbyOf 1) then
      (s.modRst fun r => { r with cpHalted := setBit r.cpHalted unit halt }).resumeUpdate
    else s)

/-! ### Commands -/

def devCpSwapBody (r : MbReq) (s : State) : Ans × State :=
  if !s.coverReady 1 then (.badState, s)
  else
    let s' := s.cpSwap 1
    (s.accepted, s'.complete r.origin 0x0103 0 (b2n s'.cps.active) [])

def devCpSwapForm : Form := .fixed 0

/-- Order a CP swap (R434). -/
def execDevCpSwap (r : MbReq) (s : State) : Result := mailboxRow 0x0103 devCpSwapForm devCpSwapBody r s

def devRedCfgBody (r : MbReq) (s : State) : Ans × State := (.ok, s.modCps fun c => { c with swapH := r.u16 0 })

def devRedCfgForm : Form := .fixed 2 fun r => r.u16 0 ≤ 2160

/-- Set CP_SWAP_PERIOD (R441). -/
def execDevRedCfg (r : MbReq) (s : State) : Result := mailboxRow 0x0108 devRedCfgForm devRedCfgBody r s

/-- The record ring oldest slot first: record n of the device lies at index n mod 64. -/
def Cps.ringAt (c : Cps) (i : Nat) : List Byte :=
  let newest := (c.recTotal + 63) % 64
  padTo 16 ((c.records[(newest + 64 - i) % 64]?).getD [])

def devUnitStatusBody (r : MbReq) (s : State) : Ans × State :=
  let us := [s.cps.cpA, s.cps.cpB, s.cps.tuA, s.cps.tuB]
  let held := s.cps.records.length
  let first := r.u8 0
  let n := held - first
  (⟨0, us.map (fun u => BitVec.ofNat 8 u.state.code) ++ us.map (fun u => BitVec.ofNat 8 u.events) ++
    [BitVec.ofNat 8 held, BitVec.ofNat 8 (if held = 0 then 0 else (s.cps.recTotal + 63) % 64), 0, 0, 0, 0, 0, 0] ++
    (List.range n).flatMap fun i => s.cps.ringAt (first + i)⟩, s)

def devUnitStatusForm : Form := .fixed 1 fun r => r.u8 0 < 64

/-- States, window events and unit records (R441). -/
def execDevUnitStatus (r : MbReq) (s : State) : Result := mailboxRow 0x0109 devUnitStatusForm devUnitStatusBody r s

def devUnitReadmitBody (r : MbReq) (s : State) : Ans × State :=
  let p := r.u8 0
  let u := r.u8 1
  if (s.cps.unit p u).state != .retired || (s.cps.unit p u).fresh then (.badState, s)
  else (.ok, ((if p = 1 then s.restartCp u else s).modCps (Cps.modUnit p u fun x => { x with state := .resync, events := 0, window := none, since := s.tick, readmitted := true })).unitRecord
    p 5 u 8 0 0xFFFF)

def devUnitReadmitForm : Form := .fixed 2 fun r => r.u8 0 < 2 && r.u8 1 < 2

/-- Readmit a retired CP or TU (R433, R441). In the frame of a fault event the unit does not count as retired yet (R438). -/
def execDevUnitReadmit (r : MbReq) (s : State) : Result := mailboxRow 0x010A devUnitReadmitForm devUnitReadmitBody r s

def fwLiveUpdateBody (r : MbReq) (s : State) : Ans × State :=
  let k := r.u8 0
  let f := s.cps.image k
  if s.cps.update.isSome then (.busy, s)
  else if !s.coverReady 1 || f.ucodeId != s.eng.ucodeId || f.journal != s.cps.jVersion then (.badState, s)
  else if !f.valid then (.invalid, s)
  else (s.accepted, ((s.restartCp (s.standbyOf 1)).modCps fun c => { c with update := some (k, r.mb, r.seq), updated := false, checkpoint := false }).modCps
    (Cps.modUnit 1 (s.standbyOf 1) fun u => { u with state := .resync, since := s.tick }))

def fwLiveUpdateForm : Form := .fixed 1 fun r => r.u8 0 < 2

/-- Replace the running firmware through the standby (R334). -/
def execFwLiveUpdate (r : MbReq) (s : State) : Result := mailboxRow 0x0C04 fwLiveUpdateForm fwLiveUpdateBody r s

end Sys2Proof.Machine
end

