-- ==== Sys2Proof/Machine/Memory.lean ====
section
/-!
DEFINITION. Ponds, errors, change-overs and spares (chapter 05), and the march tests and repairs of
every memory (chapter 16). The scrub stands in Scrub.lean.
-/

namespace Sys2Proof.Machine

/-! ### Pond words (R107, R125) -/

def Pond.base (p : Pond) (half : Nat) : Option Nat := if half = 0 then p.base0 else p.base1
def Pond.cells (p : Pond) (half : Nat) : Tbl W64 := if half = 0 then p.h0 else p.h1

def maskWord (b : Option Nat) (k : Nat) : W64 := match b with
  | some n => Config.undefMem n k
  | none => 0

/-- The stored word of a column, before error correction. -/
def Pond.raw (p : Pond) (half col : Nat) : W64 := tget 0 (p.cells half) col ^^^ maskWord (p.base half) col

def Pond.setWord (half col : Nat) (v : W64) (p : Pond) : Pond :=
  let x := v ^^^ maskWord (p.base half) col
  let p := { p with bad := tdel p.bad (half * 16384 + col) }
  if half = 0 then { p with h0 := tput 0 p.h0 col x } else { p with h1 := tput 0 p.h1 col x }

/-- Replace a whole half (R107). -/
def Pond.setHalf (half : Nat) (w : Tbl W64) (p : Pond) : Pond :=
  let p := { p with bad := p.bad.filter fun e => e.1 / 16384 != half }
  if half = 0 then { p with h0 := w, base0 := none } else { p with h1 := w, base1 := none }

/-- How a read finds a word: 0 good, 1 corrected, 2 uncorrectable (R125). DESIGN CHOICE, log entry 42: three or more wrong bits, of
which SECDED says nothing, are uncorrectable. -/
def errClass (mask : BitVec 72) : Nat := min 2 (popc 72 mask.toNat)

def Pond.err (p : Pond) (half col : Nat) : Nat := errClass (tget 0 p.bad (half * 16384 + col))

/-- The word a port delivers: corrected, or idle fill (R125, R126). -/
def Pond.read (p : Pond) (half col : Nat) : W64 := if p.err half col = 2 then 0 else p.raw half col

/-- How a crossbar read in core cycle `cycle` finds a word, and what it delivers: what stood there before the maintenance writes of
that cycle and of later ones (R109). -/
def Pond.readAt (p : Pond) (half col cycle : Nat) : Nat × W64 :=
  match p.olds.find? fun o => o.col = col && cycle ≤ o.cycle with
  | some o => (errClass o.bad, if errClass o.bad = 2 then 0 else o.word)
  | none => (p.err half col, p.read half col)

/-- A maintenance write into the half that the crossbar reads, in core cycle `cycle`. -/
def Pond.replace (half col cycle : Nat) (v : W64) (p : Pond) : Pond :=
  { p.setWord half col v with olds := p.olds ++ [⟨col, cycle, p.raw half col, tget 0 p.bad (half * 16384 + col)⟩] }

/-- The frame's replaced words are forgotten. -/
def Pnd.endFrame (p : Pnd) : Pnd :=
  (p.ponds.filter fun e => !e.2.olds.isEmpty).foldl (fun p e => p.modPond e.1 fun q => { q with olds := [] }) p

/-! ### Which pond serves what (R110, R128, R132) -/

def Pnd.phys (p : Pnd) (n : Nat) : Nat := tget n p.map n

/-- The logical pond a physical one serves. -/
def Pnd.logicalOf (p : Pnd) (phys : Nat) : Option Nat := (List.range 128).find? fun n => p.phys n = phys

def Pnd.moveOf (p : Pnd) (n : Nat) : Option PondMove := p.moves.find? (·.logical = n)

/-- The ponds that the ingress stream of logical pond `n` is written into in frame `now` (R128). -/
def Pnd.written (p : Pnd) (now : Cfn) (n : Nat) : List Nat :=
  p.phys n :: (p.moves.filter fun m => m.logical = n && cfnGe now m.k).map (·.dst)

/-- A move as it starts. -/
def PondMove.of (n src dst : Nat) (k : Cfn) (kind : Nat) : PondMove := { logical := n, src := src, dst := dst, k := k, kind := kind }

/-- A destructive march runs on a pond. -/
def State.pondMarched (s : State) (phys : Nat) : Bool := s.mem.marches.any fun m => m.destr && m.memory = 0x40 + phys

/-- The lowest-numbered idle spare that passed its march, and is neither a target of a move nor under a march (R128, R379). -/
def State.idleSpare (s : State) : Option Nat :=
  [128, 129, 130, 131].find? fun p =>
    (s.pond p).role = 2 && !(s.pond p).retired && !(s.pnd.moves.any (·.dst = p)) && !s.pondMarched p

/-- Start the move of logical pond `n` from `src` to a spare, with the next frame as k. -/
def State.startChangeOver (n src : Nat) (s : State) : State :=
  match s.idleSpare with
  | none => s
  | some sp => s.modPnd fun p => { p with moves := p.moves ++ [PondMove.of n src sp (cfnAdd s.tick 1) 0] }

def Pnd.modMoves (f : PondMove → PondMove) (p : Pnd) : Pnd := { p with moves := p.moves.map f }

/-- The return of a home pond that waits for the end of move `m` of its logical pond. -/
def Pnd.returnAfter (m : PondMove) (p : Pnd) : Option PondMove :=
  p.moves.find? fun x => x.logical = m.logical && x.kind = 1 && x != m && !x.abandon

/-- A change-over starts anew from its source; where no spare is idle the source stays in service, and is no longer forced out of it. -/
def State.moveAgain (m : PondMove) (s : State) : State :=
  match s.pnd.returnAfter m, s.idleSpare with
  | some r, _ => s.modPnd (Pnd.modMoves fun x => if x = r then { x with src := m.src, srcBad := true } else x)
  | none, some _ => s.startChangeOver m.logical m.src
  | none, none => s.modPond m.src fun p => { p with forced := false }

/-- A permanent fault is declared in the target of a move: from the next boundary the target is out of service, and a change-over
starts anew from its source, at once; where the home pond is about to return, it returns from that source. A return is given up; where
its source is faulty too, that moves to the next spare (R129). R129 starts anew from a faulty source; a forced change-over (R131), whose
source is not faulty, starts anew too (DESIGN CHOICE, log entry 27). -/
def State.abandonMove (m : PondMove) (s : State) : State :=
  if m.abandon then s
  else
    let s := s.modPnd (Pnd.modMoves fun x => if x = m then { x with abandon := true } else x)
    if m.kind = 0 then s.moveAgain m else if m.srcBad then s.startChangeOver m.logical m.src else s

/-- A permanent fault is declared in the source of a move: the move completes (R129). A spare that is the source of a return is out
of service after it (R127). -/
def State.spoilSource (phys : Nat) (s : State) : State :=
  let again := (s.pnd.moves.find? fun m => m.src = phys && m.kind = 1 && m.abandon && !m.srcBad)
  let s := (s.modPond phys fun p => { p with forced := false }).modPnd
    (Pnd.modMoves fun m => if m.src = phys && m.kind = 1 then { m with srcBad := true } else m)
  match again with
  | some m => s.startChangeOver m.logical phys
  | none => s

/-- The repair march of a pond that is out of service starts in frame `now` (R382). -/
def Pond.march (now : Cfn) (p : Pond) : Pond := { p with marchAt := some now, again := false, repair := [] }

/-- A fault event counts in the 60 s window that the first one opens (R432). -/
def Pond.noteFault (tick : Cfn) (p : Pond) : Pond :=
  match p.window with
  | some w => if since tick w < 5859375 then { p with events := p.events + 1 } else { p with events := 1, window := some tick }
  | none => { p with events := 1, window := some tick }

/-- The fault events of the current window. -/
def Pond.eventsNow (tick : Cfn) (p : Pond) : Nat := if p.window.any fun w => since tick w < 5859375 then p.events else 0

/-- A permanent fault of a physical pond is declared in this frame (R127-R131). An idle spare is out of service at once: the spec dates no
boundary for it (DESIGN CHOICE, log entry 27). -/
def State.pondFault (phys : Nat) (s : State) : State :=
  let s := s.modPond phys fun p => { p.noteFault s.tick with fault := false }
  let p := s.pond phys
  let s := s.unitRecord 4 1 phys 7 p.events 0xFFFF
  match s.pnd.moves.find? (·.dst = phys) with
  | some m => s.abandonMove m
  | none =>
    if s.pnd.moves.any (·.src = phys) then s.spoilSource phys
    else match s.pnd.logicalOf phys with
      | some n => s.startChangeOver n phys
      | none =>
        if p.role = 2 then s.modPond phys fun p => { p.march (cfnAdd s.tick 1) with role := 1 }
        else if p.forced && !p.retired then s.modPond phys fun p => { p.march (cfnAdd s.tick 1) with forced := false }
        else s

/-- Correctable errors within 60 s, and whether they make the fault permanent (R127). -/
def Pond.noteCe (tick : Cfn) (addr : Nat) (p : Pond) : Pond :=
  let l := (p.ces.filter fun e => since tick e.1 < 5859375) ++ [(tick, addr)]
  let frames := ((l.filter fun e => e.2 = addr).map Prod.fst).eraseDups.length
  { p with ceCnt := satAdd p.ceCnt 1, ces := l, fault := p.fault || 3 ≤ frames || 64 ≤ l.length }

/-- A read of a pond word found `err` (R125-R127): it counts in the pond and in its memory (R373), and a condition of R127 declares the
fault. -/
def State.pondError (phys half col err : Nat) (s : State) : State :=
  if err = 0 then s
  else
    let s := if err = 1
      then ((s.modPond phys (Pond.noteCe s.tick (half * 16384 + col))).pondFlag phys 1).count 600 1
      else (((s.modPond phys fun p => { p with fault := true }).pondFlag phys 2).count 601 1).raise 22
    s.modMemRun (0x40 + phys) (MemRun.note (err = 1))

/-- Declare the faults whose condition of R127 holds. -/
def State.declareFaults (s : State) : State :=
  (s.pnd.ponds.filter (·.2.fault)).foldl (fun s e => s.pondFault e.1) s

/-- A condition of R127 has been found and its fault becomes permanent (R128). -/
def execPondPermanentFault (phys : Nat) (s : State) : Result :=
  done (if (s.pond phys).fault then s.pondFault phys else s)

/-- A pond leaves service; its repair march starts unless the host forced it out (R131, R382). -/
def Pond.leave (now : Cfn) (p : Pond) : Pond := if p.forced then { p with role := 1, marchAt := none } else { p.march now with role := 1 }

/-- The moves at the boundary that starts frame `now` (R128-R131, R382). A serving spare that was declared faulty while no other was idle,
and whose home pond then returns, is idle again, as R130 has every spare; R127 would take it out of service (DESIGN CHOICE, log entry
27). -/
def State.movePond (now : Cfn) (m : PondMove) (s : State) : State :=
  if m.abandon then
    (s.modPnd fun p => { p with moves := p.moves.filter (· != m) }).modPond m.dst fun p => { p.march now with role := 1, forced := false }
  else if now = m.k then
    if m.dst ≥ 128 then s.modPond m.dst fun p => { p with role := 3, logical := m.logical } else s
  else if now = cfnAdd m.k 1 then
    let s := s.modPnd fun p => { p with map := tput m.logical p.map m.logical m.dst, moves := p.moves.filter (· != m) }
    let s := s.modPond m.src fun p =>
      if m.kind = 1 && !m.srcBad then { p with role := 2, logical := 0 } else p.leave now
    let s := if m.kind = 1 then (s.modPond m.dst fun p => { p with role := 0, logical := m.logical, forced := false, marchAt := none }).unitRecord 4 4 m.dst 7 ((s.pond m.dst).eventsNow now) 0xFFFF
      else s.unitRecord 4 3 m.src 7 ((s.pond m.src).eventsNow now) m.dst
    s.event 0x4B01 0 [BitVec.ofNat 8 m.logical, BitVec.ofNat 8 m.src, BitVec.ofNat 8 m.dst]
  else s

/-- The return of home pond `n`, which is written from the next frame on; where its logical pond is moving from one spare to another,
it follows that move (R130, R131). -/
def Pnd.returnHome (now : Cfn) (n : Nat) (p : Pnd) : Pnd :=
  let r := match p.moves.find? fun m => m.logical = n && !m.abandon with
    | some m => PondMove.of n m.dst n (cfnAdd m.k 1) 1
    | none => PondMove.of n (p.phys n) n (cfnAdd now 1) 1
  { p with moves := p.moves ++ [r] }

/-- Start the return of a repaired pond at the next frame boundary: a home pond takes its logical pond back, a spare is idle
again (R130, R382). -/
def State.startReturn (phys : Nat) (s : State) : State :=
  let s := s.modPond phys fun p => { p with marchAt := none, again := false, forced := false }
  if phys < 128 then s.modPnd (Pnd.returnHome s.tick phys)
  else s.modPond phys fun p => { p with role := 2, logical := 0 }

/-! ### March algorithms (R374, R375) -/

/-- One element of March C-: whether the addresses fall (none: either order), and its operations in order, each a write or a read of the
background (false) or of its complement (true). -/
structure MarchElement where
  down : Option Bool
  ops  : List (Bool × Bool)

/-- March C-: writes are true in the first component of an operation. -/
def marchC : List MarchElement :=
  [⟨none, [(true, false)]⟩, ⟨some false, [(false, false), (true, true)]⟩, ⟨some false, [(false, true), (true, false)]⟩,
   ⟨some true, [(false, false), (true, true)]⟩, ⟨some true, [(false, true), (true, false)]⟩, ⟨none, [(false, false)]⟩]

/-- Operations per word of one run under one background. -/
def marchOps : Nat := (marchC.map fun e => e.ops.length).sum

/-- The 72 bits of a background word: solid, or a checkerboard by bit and by row; `v` is the value written. -/
def background (checker : Bool) (row bit : Nat) (v : Bool) : Bool := v != (checker && (row + bit) % 2 = 1)

/-- The frames of a destructive march of a pond: both backgrounds over both halves, one operation in a core cycle (R382). -/
def pondMarchFrames : Nat := 2 * marchOps * 32768 / 16384

/-- The rows of a pond half that are tested in place: they hold scrub columns (R375). -/
def scrubRows (row : Nat) : Bool := 2032 ≤ row && row < 2040

/-! ### Repairs (R380, R381, R383) -/

/-- Mismatches as (row, column) of one array. -/
abbrev Cells := List (Nat × Nat)

/-- Columns that fail in 3 or more rows. -/
def badCols (l : Cells) : List Nat :=
  (l.map Prod.snd).eraseDups.filter fun c => 3 ≤ ((l.filter (·.2 = c)).map Prod.fst).eraseDups.length

/-- Failing rows that no column repair covers. -/
def badRows (l : Cells) : List Nat :=
  let cols := badCols l
  ((l.filter fun x => !cols.contains x.2).map Prod.fst).eraseDups

/-- MEM_REPAIR (R383). -/
def State.memRepair (kind m arr n : Nat) (s : State) : State :=
  s.event 0x4B02 kind (BitVec.ofNat 8 m :: (leBytes 2 arr ++ leBytes 2 n))

/-- Array `arr` cannot be repaired: the memory is unrepairable from here on (R380, R383). -/
def State.unrepairable (m arr n : Nat) (s : State) : State :=
  (((s.modMemRun m fun u => { u with unrep := true }).modMem fun x => { x with worn := true }).memRepair 4 m arr n).unitRecord
    5 2 (m * 256 + arr % 256) 7 0 0xFFFF

/-- Repair an array with rows and columns, or find it unrepairable. The repair registers hold what each spare replaces (R380). -/
def State.repairArray (m arr : Nat) (rows cols : List Nat) (s : State) : State × Bool :=
  let u := s.memRun m
  let r := tget [] u.rows arr ++ rows
  let c := tget [] u.cols arr ++ cols
  if rows.isEmpty && cols.isEmpty then (s, true)
  else if r.length > 4 || c.length > 2 then (s.unrepairable m arr ((rows ++ cols).headD 0), false)
  else
    let s := s.modMemRun m fun u => { u with
      rows := tput [] u.rows arr r, cols := tput [] u.cols arr c, soft := satAdd u.soft (rows.length + cols.length) }
    let s := rows.foldl (fun s n => s.memRepair 1 m arr n) s
    let s := cols.foldl (fun s n => s.memRepair 2 m arr n) s
    let s := s.unitRecord 5 3 (m * 256 + arr % 256) 7 0 0xFFFF
    if (r.length = 4 && !rows.isEmpty) || (c.length = 2 && !cols.isEmpty) then
      ((s.modMem fun x => { x with worn := true }).memRepair 3 m arr ((cols ++ rows).headD 0), true)
    else (s, true)

/-- The arrays of a memory that show mismatches, with their cells. -/
def arraysOf (m : Nat) (l : List Mismatch) : List (Nat × Cells) :=
  let l := l.filter (·.memory = m)
  (l.map (·.array)).eraseDups.map fun a => (a, (l.filter (·.array = a)).map fun x => (x.row, x.col))

/-- Record every mismatch with its memory, array, row and bit-column (R374); the last one of a memory is what R384 reports. -/
def State.noteMismatches (l : List Mismatch) (s : State) : State :=
  l.foldl (fun s x => s.modMemRun x.memory fun u => { u with row := x.row, cfn := s.recCfn, found := u.found ++ [(x.array, x.row, x.col)] }) s

/-- Repair every failing array of a memory (R380), with the arrays that are unrepairable. -/
def State.repairMemory (m : Nat) (l : List Mismatch) (s : State) : State × List Nat :=
  (arraysOf m l).foldl (fun (p : State × List Nat) a =>
    let q := p.1.repairArray m a.1 (badRows a.2) (badCols a.2)
    (q.1, if q.2 then p.2 else p.2 ++ [a.1])) (s, [])

/-- The arrays of a memory that fail again after their repair are unrepairable (R377, R382). -/
def State.failAgain (m : Nat) (l : List Mismatch) (s : State) : State :=
  (arraysOf m l).foldl (fun s a => s.unrepairable m a.1 ((a.2.map Prod.fst).headD 0)) s

/-- The array of a word and its row in it: the engine scratchpads are arrays of 2,048 words; every other memory is taken as arrays of
65,536 rows, the most that the u16 row of R383 numbers (DESIGN CHOICE, log entry 39). -/
def scrubRow (m w : Nat) : Nat × Nat :=
  if 0x06 ≤ m && m ≤ 0x09 then (w / 2048, w % 2048 / 8) else (w / 8 / 65536, w / 8 % 65536)

/-- A word of a connection map is rewritten corrected. -/
def State.freshWord (m w : Nat) (s : State) : State :=
  if 0x12 ≤ m && m ≤ 0x14 then s.modSch (Sch.modBank (m - 0x12) fun b => { b with mapBad := tdel b.mapBad w }) else s

/-- Words that hold one wrong bit are rewritten corrected, among those of which `which` holds. -/
def freshBits (which : Nat → Bool) (t : Tbl (BitVec 72)) : Tbl (BitVec 72) := t.filter fun e => !(which e.1 && errClass e.2 = 1)

/-- The 8 words of the row of word `w` are rewritten corrected (R367, R381). -/
def State.freshRow (m w : Nat) (s : State) : State :=
  if 0x12 ≤ m && m ≤ 0x14 then s.modSch (Sch.modBank (m - 0x12) fun b => { b with mapBad := freshBits (fun k => k / 8 = w / 8) b.mapBad }) else s

/-- A whole memory is rewritten row by row, its correctable words corrected: a preserving march (R375). -/
def State.freshMemory (m : Nat) (s : State) : State :=
  if 0x12 ≤ m && m ≤ 0x14 then s.modSch (Sch.modBank (m - 0x12) fun b => { b with mapBad := freshBits (fun _ => true) b.mapBad })
  else if 0x20 ≤ m && m ≤ 0x2F then s.modDp fun d => { d with ebBad := freshBits (fun k => k % 2097152 / 131072 = m - 0x20) d.ebBad }
  else if 0x40 ≤ m then s.modPond (m - 0x40) fun p => { p with bad := (freshBits (fun _ => true) p.bad).filter fun e => !scrubRows (e.1 % 16384 / 8) }
  else s

/-- A correctable error of a memory that is no pond, found by scrub or by a master: it counts, and the row is repaired where the address
showed errors in 3 frames within 60 s, which copies the row corrected (R373, R381). -/
def State.memCorrect (m w : Nat) (s : State) : State :=
  let l := ((s.memRun m).ces.filter fun e => since s.tick e.1 < 5859375) ++ [(s.tick, w)]
  let three := 3 ≤ ((l.filter fun e => e.2 = w).map Prod.fst).eraseDups.length
  let s := s.modMemRun m fun u => { u with ce := satAdd u.ce 1, ces := if three then l.filter (fun e => e.2 != w) else l }
  if !three then s
  else
    let q := s.repairArray m (scrubRow m w).1 [(scrubRow m w).2] []
    if q.2 then (q.1.freshWord m w).freshRow m w else q.1

/-! ### Background march (R376) -/

/-- The ponds the background march tests: all but those out of service. -/
def State.marched (s : State) : List Nat := (List.range 132).filter fun p => (s.pond p).role != 1

/-- The row that frame `m` tests, and its half. -/
def marchRow (m : Cfn) : Option (Nat × Nat) :=
  if m.toNat % 16 ≤ 1 then some (m.toNat / 16 % 2048, (m.toNat + 1) % 2) else none

/-- What one step of the march leaves in a pond: the tested row is written back with its one-bit errors corrected, after the staging row
2,032 of the half took its words; a scrub row is tested in place, and its words are new (R375). The redirection of the row begins and
ends within the step. -/
def Pond.marchRow (half row : Nat) (p : Pond) : Pond :=
  let inRow (r k : Nat) : Bool := k / 16384 = half && k % 16384 / 8 = r
  if scrubRows row then { p with bad := p.bad.filter fun e => !inRow row e.1 }
  else { p with bad := (freshBits (inRow row) p.bad).filter fun e => !inRow 2032 e.1 }

/-- The background changes at the end of a pass over both halves (R374, R376). -/
def Mem.endRow (row half : Nat) (m : Mem) : Mem := if row = 2047 && half = 0 then { m with checker := !m.checker } else m

/-- One step of the background march; each mismatch is a pond and the bit-column of its tested row. -/
def execMarchStep (mismatch : List (Nat × Nat)) (s : State) : Result :=
  done (if !s.coreRuns || s.glb.mode = .hold then s
    else match marchRow s.cfn with
      | none => s
      | some (row, half) =>
        let tested := s.marched
        let found := mismatch.filter fun e => tested.contains e.1
        let s := { s.count 603 tested.length with pnd := { s.pnd with
          ponds := tmap (fun n (p : Pond) => if tested.contains n then p.marchRow half row else p) s.pnd.ponds } }
        let s := (s.modMem (Mem.endRow row half)).noteMismatches (found.map fun e => ⟨0x40 + e.1, half, row, e.2⟩)
        ((found.map Prod.fst).eraseDups).foldl (fun s p => (s.pondFlag p 3).pondFault p) s)

/-! ### Repair march of a pond (R382) -/

/-- Retire a pond that cannot be repaired. -/
def State.retirePond (phys : Nat) (s : State) : State :=
  (s.modPond phys fun p => { p with retired := true, marchAt := none, again := false, repair := [] }).unitRecord 4 2 phys 7 ((s.pond phys).eventsNow s.tick) 0xFFFF

/-- A pond after a destructive march: every word zero. -/
def Pond.wipe (p : Pond) : Pond := { p with h0 := [], h1 := [], base0 := none, base1 := none, bad := [] }

/-- A repair march ends in its last frame, the 40th: the first with the mismatches `first`, the one after repairs with `second`. Without a
mismatch the return starts at the next boundary, where the repairs are made otherwise; a pond that fails again is retired (R131, R382). -/
def execPondRepairMarchDone (phys : Nat) (first second : List Mismatch) (s : State) : Result :=
  let p := s.pond phys
  let m := 0x40 + phys
  let found := (if p.again then second else first).filter (·.memory = m)
  done (match p.marchAt with
    | none => s
    | some at_ =>
      if p.role != 1 || p.forced || p.retired || !cfnGe s.tick at_ || since s.tick at_ + 1 < pondMarchFrames || !p.repair.isEmpty then s
      else
        let s := (s.modPond phys Pond.wipe).noteMismatches found
        if found.isEmpty then s.startReturn phys
        else
          let s := s.pondFlag phys 3
          if p.again then (s.failAgain m found).retirePond phys
          else s.modPond phys fun p => { p with repair := found })

/-- The repairs of a pond at the boundary after its first march, and the start of the second (R380, R382). -/
def State.pondRepair (now : Cfn) (phys : Nat) (l : List Mismatch) (s : State) : State :=
  let q := s.repairMemory (0x40 + phys) l
  if q.2.isEmpty then q.1.modPond phys fun p => { p.march now with again := true } else q.1.retirePond phys

/-- Moves and repairs at the boundary that starts frame `now`. -/
def State.pondsBoundary (now : Cfn) (s : State) : State :=
  let s := s.pnd.moves.foldl (fun s m => s.movePond now m) s
  (s.pnd.ponds.filter fun e => !e.2.repair.isEmpty).foldl (fun s e => s.pondRepair now e.1 e.2.repair) s

/-! ### Bring-up march (R377, R378) -/

/-- Memories whose loss fails the start (R367). -/
def startCritical (m : Nat) : Bool := m ≤ 5 || (0x0A ≤ m && m ≤ 0x18)

/-- Put a home pond out of service from the start (R378). -/
def State.loseHome (n : Nat) (s : State) : State :=
  let s := s.modPond n fun p => { p with role := 1, retired := true }
  match s.idleSpare with
  | some sp => (s.modPond sp fun p => { p with role := 3, logical := n }).modPnd fun p => { p with map := tput n p.map n sp }
  | none => s.modPnd fun p => { p with unusable := addNew p.unusable n }

/-- The outcome of a memory that the Bring-up march cannot repair (R367). -/
def State.loseMemory (m : Nat) (arrays : List Nat) (s : State) : State :=
  if 0x06 ≤ m && m ≤ 0x09 then
    s.modEng fun e => { e with engs := arrays.foldl (fun t a => tmod {} t (256 * (m - 6) + a % 256) fun r => { r with state := .retired }) e.engs }
  else if 0x20 ≤ m && m ≤ 0x2F then
    s.modPnd fun p => { p with unusable := (List.range 8).foldl (fun l i => addNew l (8 * (m - 0x20) + i)) p.unusable }
  else if 0xC0 ≤ m && m ≤ 0xC3 then s.modPond (m - 0x40) fun p => { p with role := 1, retired := true }
  else s

/-- A destructive march leaves the memories of the CP island and of the engines all zero (R374, R377). -/
def Bus.zeroed (b : Bus) : Bus := { b with sram := [], sramBase := [], secPad := [], secBase := none, engPad := [], engBase := [] }

/-- The Bring-up march ends: `first` are the mismatches of the first run, and `e` those after the repairs and the wires that spare
wires replace (R20). The SLG9128-N has no slot-state table to march (R367). -/
def execBringUpMarchDone (first : List Mismatch) (e : MarchEnd) (s : State) : Result :=
  let tested (x : Mismatch) : Bool := !(x.memory = 0x18 && s.rst.variant = 2)
  let first := first.filter tested
  let second := e.second.filter tested
  done (if s.rst.phase != .march then s
    else
      let s := (s.modBus Bus.zeroed).noteMismatches (first ++ second)
      let mems := ((first ++ second).map (·.memory)).eraseDups
      let r := mems.foldl (fun (p : State × List (Nat × List Nat)) m =>
        let q := p.1.repairMemory m first
        let again := ((arraysOf m second).map Prod.fst).filter fun a => !q.2.contains a
        let bad := q.2 ++ again
        (q.1.failAgain m (second.filter fun x => !q.2.contains x.array), if bad.isEmpty then p.2 else p.2 ++ [(m, bad)])) (s, [])
      let lost := r.2
      if lost.any fun x => startCritical x.1 then r.1.startFail 3
      else
        let spares := lost.filter fun x => 0xC0 ≤ x.1 && x.1 ≤ 0xC3
        let homes := lost.filter fun x => 0x40 ≤ x.1 && x.1 < 0xC0
        let s := (spares ++ lost.filter fun x => x.1 < 0x40).foldl (fun s x => s.loseMemory x.1 x.2) r.1
        let s := homes.foldl (fun s x => s.loseHome (x.1 - 0x40)) s
        (s.modMem fun x => { x with wires := e.wires }).modRst fun r => { r with marchOk := true, phase := .romBoot })

/-! ### Engine scratchpads (R370) -/

/-- Byte `a` of engine `e`'s scratchpad, taken modulo 16,384. -/
def Bus.engByte (e a : Nat) (b : Bus) : Byte :=
  tget 0 (tget [] b.engPad e) (a % 16384) ^^^ (maskWord (tfind b.engBase (e / 256)) (e * 16384 + a % 16384)).setWidth 8

def Bus.setEngByte (e a : Nat) (v : Byte) (b : Bus) : Bus :=
  { b with engPad := tmod [] b.engPad e fun t => tput 0 t (a % 16384) (v ^^^ (maskWord (tfind b.engBase (e / 256)) (e * 16384 + a % 16384)).setWidth 8) }

/-- An engine reads `w` bytes from byte address `a`: byte a + i in lane i, lane 0 in bits [7:0]. -/
def Bus.engRead (e a w : Nat) (b : Bus) : W64 := BitVec.ofNat 64 (leNat ((List.range w).map fun i => b.engByte e (a + i)))

/-- An engine writes the `w` lanes of `v` from byte address `a`. -/
def Bus.engWrite (e a w : Nat) (v : W64) (b : Bus) : Bus :=
  (List.range w).foldl (fun b i => b.setEngByte e (a + i) (BitVec.ofNat 8 (v.toNat / 256 ^ i))) b

/-- Engine cycles of an access: a read takes one for each word it touches, and a write is a read-modify-write of each. -/
def engCycles (write : Bool) (a w : Nat) : Nat :=
  let words := if a % 8 + w ≤ 8 then 1 else 2
  if write then words + 1 else words

/-! ### DIAG_MARCH (R379) -/

def memNumber (m : Nat) : Bool := m ≤ 0x18 || (0x20 ≤ m && m ≤ 0x2F) || (0x40 ≤ m && m ≤ 0xC3)

/-- DMA-S reads an image (R360). -/
def State.dmaSBusy (s : State) : Bool := s.sch.load.isSome

/-- A microcode transfer through W2 runs: an engine island's instruction store is to be loaded (R367, R398). -/
def State.ucodeRuns (s : State) : Bool := (List.range 4).any fun q => (tfind s.eng.istore q).isNone

/-- A destructive march is allowed (R367). -/
def State.destructiveOk (s : State) (m : Nat) : Bool :=
  if m = 0x02 then !s.dmaSBusy && !s.ucodeRuns
  else if m = 0x03 then true
  else if (0x06 ≤ m && m ≤ 0x0D) || (0x20 ≤ m && m ≤ 0x2F) then !s.sch.dataEnable
  else if 0x12 ≤ m && m ≤ 0x17 then (m - 0x12) % 3 = s.sch.future && s.sch.futState = .opened
  else if 0x40 ≤ m then (s.pond (m - 0x40)).role = 1 || (s.pond (m - 0x40)).role = 2 || !s.sch.dataEnable
  else false

def diagMarchBody (r : MbReq) (s : State) : Ans × State :=
  let m := r.u8 0
  if s.mem.marches.any (·.memory = m) then (.busy, s)
  else if m = 0x18 && s.rst.variant = 2 then (.badState, s)
  else if r.u8 1 = 1 && !s.destructiveOk m then (.badState, s)
  else (s.accepted, s.modMem fun x => { x with marches := x.marches ++ [⟨m, r.u8 1 = 1, r.mb, r.seq⟩] })

def diagMarchForm : Form := .fixed 2 fun r => memNumber (r.u8 0) && r.u8 1 < 2

/-- Start a march of one memory (R379). The SLG9128-N has no slot-state table to march (R367); the spec gives the refusal no status
(DESIGN CHOICE, log entry 41). -/
def execDiagMarch (r : MbReq) (s : State) : Result := mailboxRow 0x0B01 diagMarchForm diagMarchBody r s

def keepIsland {α : Type} (i width : Nat) (t : Tbl α) : Tbl α := t.filter fun e => e.1 / width != i

/-- A key half whose key and salt words are undefined (R379). -/
def Half.undefKey (u k : Nat) (h : Half) : Half :=
  if h.state = .empty then h
  else { h with key := Config.undefMem u k ++ Config.undefMem u (k + 1) ++ Config.undefMem u (k + 2) ++ Config.undefMem u (k + 3) }

/-- A half whose state, limit and usage are undefined (R379). -/
def Half.undefState (u k : Nat) (h : Half) : Half :=
  let w := Config.undefMem u k
  { h with
    state := if w.getLsbD 0 then (if w.getLsbD 1 then .retiring else .current) else if w.getLsbD 1 then .next else .empty
    limit := fld w.toNat 2 8, usage := (Config.undefMem u (k + 1)).toNat
    salt := BitVec.setWidth 48 (Config.undefMem u (k + 2)) }

def Slot.undefKeys (u n : Nat) (x : Slot) : Slot := { x with h0 := x.h0.undefKey u (8 * n), h1 := x.h1.undefKey u (8 * n + 4) }

def Slot.undefState (u n : Nat) (x : Slot) : Slot :=
  { x with
    h0 := x.h0.undefState u (8 * n), h1 := x.h1.undefState u (8 * n + 3)
    ki := (Config.undefMem u (8 * n + 6)).getLsbD 0, inv := BitVec.setWidth 48 (Config.undefMem u (8 * n + 7)) }

/-- The content that a complete destructive march leaves: every word zero, and a Future bank empty with schedule ID 0 (R374, R379). -/
def State.marchZero (m : Nat) (s : State) : State :=
  if m ≤ 0x03 then s.modBus fun b => { b with sram := tdel b.sram m, sramBase := tdel b.sramBase m }
  else if 0x06 ≤ m && m ≤ 0x09 then s.modBus fun b => { b with engPad := keepIsland (m - 6) 256 b.engPad, engBase := tdel b.engBase (m - 6) }
  else if 0x0A ≤ m && m ≤ 0x0D then s.modEng fun e => { e with
      eps := keepIsland (m - 0x0A) 65536 e.eps, descs := keepIsland (m - 0x0A) 65536 e.descs, fill := tins e.fill (m - 0x0A) 0 }
  else if 0x12 ≤ m && m ≤ 0x17 then s.modSch (Sch.modBank ((m - 0x12) % 3) fun _ => {})
  else if 0x20 ≤ m && m ≤ 0x2F then s.modDp fun d => { d with
      eb0 := keepIsland (m - 0x20) 131072 d.eb0, eb1 := keepIsland (m - 0x20) 131072 d.eb1
      ebBad := d.ebBad.filter fun e => e.1 % 2097152 / 131072 != m - 0x20 }
  else if 0x40 ≤ m then s.modPond (m - 0x40) Pond.wipe
  else s

/-- A march that is ended early leaves the memory's content undefined, under draw `u` (R379). The words of egress buffers need no mask:
their written-marks go, and a word without its mark is not read (R112). -/
def State.marchUndefined (m u : Nat) (s : State) : State :=
  if m ≤ 0x03 then s.modBus fun b => { b with sram := tdel b.sram m, sramBase := tins b.sramBase m u }
  else if m = 0x04 then s.modBus fun b => { b with secPad := [], secBase := some u }
  else if m = 0x05 then s.modKey fun k => { k with slots := tmap (fun n x => Slot.undefKeys u n x) k.slots }
  else if m ≤ 0x09 then s.modBus fun b => { b with engPad := keepIsland (m - 6) 256 b.engPad, engBase := tins b.engBase (m - 6) u }
  else if m ≤ 0x0D then s.modEng fun e => { e with
      eps := keepIsland (m - 0x0A) 65536 e.eps, descs := keepIsland (m - 0x0A) 65536 e.descs, fill := tins e.fill (m - 0x0A) (u + 1) }
  else if m ≤ 0x11 then s.modEng fun e => { e with istore := tins e.istore (m - 0x0E) (Config.freeValue 32 u) }
  else if m ≤ 0x14 then s.modSch (Sch.modBank (m - 0x12) (Bank.undefMap u))
  else if m ≤ 0x17 then s.modSch (Sch.modBank (m - 0x15) (Bank.undefTables u))
  else if m = 0x18 then s.modKey fun k => { k with slots := (List.range 16384).map fun n => (n, (tget {} k.slots n).undefState u n) }
  else if m ≤ 0x2F then s.marchZero m
  else s.modPond (m - 0x40) fun p => { p.wipe with base0 := some u, base1 := some u }

/-- A requested march is ended early (R379). -/
def State.abortMarch (r : MarchRun) (s : State) : State :=
  let s := { s.marchUndefined r.memory s.drawn with drawn := s.drawn + 1 }
  (s.modMem fun x => { x with marches := x.marches.filter (· != r) }).complete (r.mb, r.seq) 0x0B01 0x8003 0 []

def State.abortMarches (which : MarchRun → Bool) (s : State) : State :=
  (s.mem.marches.filter which).foldl (fun s r => s.abortMarch r) s

/-- The march requested first ends with the mismatches it found (R379-R381). A preserving march repairs rows only: a column fault in a
memory in use is left to a destructive march (R381). -/
def execDiagMarchDone (found : List Mismatch) (s : State) : Result :=
  done (match s.mem.marches with
    | [] => s
    | r :: rest =>
      let l := found.filter (·.memory = r.memory)
      let s := (s.modMem fun x => { x with marches := rest }).noteMismatches l
      let s := if r.destr then s.marchZero r.memory else s.freshMemory r.memory
      let pond := 0x40 ≤ r.memory
      let s := if pond && !l.isEmpty then (s.pondFlag (r.memory - 0x40) 3).pondFault (r.memory - 0x40)
        else if pond then s
        else if r.destr then (s.repairMemory r.memory l).1
        else (arraysOf r.memory l).foldl (fun s a => (s.repairArray r.memory a.1 (badRows a.2) []).1) s
      s.complete (r.mb, r.seq) 0x0B01 0 0 (leBytes 4 l.length))

def diagMemStatusBody (r : MbReq) (s : State) : Ans × State :=
  let m := r.u8 0
  let u := s.memRun m
  let pondRun := 0x40 ≤ m && (s.pond (m - 0x40)).marchAt.isSome
  let st := if u.unrep then 2 else if pondRun || s.mem.marches.any (·.memory = m) then 1 else 0
  (⟨0, [BitVec.ofNat 8 st, BitVec.ofNat 8 (4 - maxOf (u.rows.map (·.2.length))), BitVec.ofNat 8 (2 - maxOf (u.cols.map (·.2.length))), 0] ++
    leBytes 4 u.ce.toNat ++ leBytes 4 u.ue.toNat ++ leBytes 4 u.soft.toNat ++ leBytes 4 u.row ++ leBytes 4 0 ++ cfnBytes u.cfn⟩, s)

def diagMemStatusForm : Form := .fixed 1 fun r => memNumber (r.u8 0)

/-- A memory's state (R384). -/
def execDiagMemStatus (r : MbReq) (s : State) : Result := mailboxRow 0x0B03 diagMemStatusForm diagMemStatusBody r s

/-! ### Forced change-overs (R131) -/

def diagPondSpareBody (r : MbReq) (s : State) : Ans × State :=
  let n := r.u8 0
  if (s.pond n).role = 1 || (s.pnd.moveOf n).isSome then (.badState, s)
  else match s.idleSpare with
    | none => (.noResource, s)
    | some _ => (.ok, (s.modPond n fun p => { p with forced := true }).startChangeOver n n)

def diagPondSpareForm : Form := .fixed 1 fun r => r.u8 0 < 128

/-- Force a change-over to a spare. -/
def execDiagPondSpare (r : MbReq) (s : State) : Result := mailboxRow 0x0B20 diagPondSpareForm diagPondSpareBody r s

def diagPondRestoreBody (r : MbReq) (s : State) : Ans × State :=
  let n := r.u8 0
  let p := s.pond n
  if p.role != 1 || p.retired || !p.forced || s.pnd.moves.any (fun m => m.logical = n && m.kind = 1) then (.badState, s)
  else (.ok, s.modPnd (Pnd.returnHome s.tick n))

def diagPondRestoreForm : Form := .fixed 1 fun r => r.u8 0 < 128

/-- Return a forced-out pond to service. A second command while the return runs is refused with BAD_STATE: R131 does not name it (DESIGN
CHOICE, log entry 27). -/
def execDiagPondRestore (r : MbReq) (s : State) : Result := mailboxRow 0x0B21 diagPondRestoreForm diagPondRestoreBody r s

/-! ### Flips (R452) -/

/-- An armed `PERT.POND` flips bits of the half that the crossbar reads in its target frame (R452). -/
def execPondFlip (s : State) : Result :=
  let v := s.pert.pond.toNat
  let phys := fld v 21 8
  let bit := fld v 0 7 % 72
  let mask : BitVec 72 := BitVec.ofNat 72 (2 ^ bit + (if bitOf v 30 then 2 ^ ((bit + 1) % 72) else 0))
  let half := (s.cfn.toNat + 1) % 2
  done (if !bitOf v 31 || !s.glb.released || s.cfn != s.pert.pondCfn then s
    else
      let s := s.modPert fun p => { p with pond := setBit p.pond 31 false }
      let s := if phys < 132 then s.modPond phys fun p => { p with bad := tmod 0 p.bad (half * 16384 + fld v 7 14) (· ^^^ mask) } else s
      s.count 743 1)

end Sys2Proof.Machine
end

