-- ==== Sys2Proof/Machine/Tributaries.lean ====
section
/-!
DEFINITION. Tributary contexts in force, their status, open state, dFCMOVF and ODUflex resize (chapter 04).
-/

namespace Sys2Proof.Machine

/-! ### Contexts in force (R100, R184-R186, R195) -/

/-- The conjugation index in force for each group with a paradigm. -/
def State.idxNow (s : State) (g : Nat) : Option Nat := (s.grp g).map (·.cur)

/-- The index in force two frames ago, by which the mappers run. -/
def State.idx2 (s : State) (g : Nat) : Option Nat := (s.grp g).map (·.cur2)

def State.bank2 (s : State) : Bank := s.sch.bank s.sch.present2

/-- The ingress context `t` in this frame. -/
def State.ingCtx (s : State) (t : Nat) : CtxCfg := s.presentBank.ctx (s.presentBank.sets s.idxNow) 0 t

/-- The egress context `t` of the Present schedule and the conjugation in force. -/
def State.egCtx (s : State) (t : Nat) : CtxCfg := s.presentBank.ctx (s.presentBank.sets s.idxNow) 1 t

def State.ctxOf (s : State) (dir t : Nat) : CtxCfg := if dir = 0 then s.ingCtx t else s.egCtx t

/-! ### TRB_STATUS (R103, R171, R345) -/

/-- A context as a MUXC record (R171). -/
def CtxCfg.record (dir t : Nat) (c : CtxCfg) : List Byte :=
  [BitVec.ofNat 8 (dir + 1), BitVec.ofNat 8 (b2n c.active)] ++ leBytes 2 t ++ [0, 0] ++
  [BitVec.ofNat 8 c.group, BitVec.setWidth 8 c.type, BitVec.setWidth 8 c.stream, BitVec.setWidth 8 c.idx, c.tpn, BitVec.setWidth 8 c.resize] ++
  leBytes 2 c.n ++ [c.evictRank, 0] ++ leBytes 10 c.qsMask.toNat ++ leBytes 6 0 ++ leBytes 10 c.lineTs.toNat ++ leBytes 22 0

/-- The phase of the resize that runs on a context: 0 idle, 1 LCR, 2 ramp. -/
def Dp.phaseOf (d : Dp) (dir t : Nat) : Nat :=
  match d.resizes.find? fun z => (if dir = 0 then z.ing else z.eg) = t with
  | some z => z.phase
  | none => 0

/-- Four frame counts by MAINT code. -/
def maintBytes (t : Tbl W32) : List Byte := (List.range 4).flatMap fun i => leBytes 4 (tget 0 t i).toNat

def trbStatusBody (r : MbReq) (s : State) : Ans × State :=
  let dir := r.u8 0
  let t := r.u16 2
  let c := s.ctxOf dir t
  let phase := s.dp.phaseOf dir t
  (⟨0, c.record dir t ++ (if dir = 0 then
      let x := tget {} s.dp.ing t
      [BitVec.ofNat 8 phase, 0] ++ leBytes 2 x.lastC ++ [BitVec.ofNat 8 x.cnd, BitVec.setWidth 8 c.idx, 0, 0] ++
        leBytes 4 0 ++ leBytes 4 x.fcCnt.toNat ++ maintBytes x.maintCnt
    else
      let x := tget {} s.dp.eg t
      [BitVec.ofNat 8 phase, BitVec.ofNat 8 (b2n x.openNow)] ++ leBytes 2 x.lastC ++ [BitVec.ofNat 8 x.lastCnd, BitVec.setWidth 8 x.srcIdx, 0, 0] ++
        leBytes 4 x.justErr.toNat ++ leBytes 4 0 ++ maintBytes x.maintCnt)⟩, s)

def trbStatusForm : Form := {
    len := fun _ => 4, fields := fun r => r.u8 0 < 2 && r.zero [(1, 1)] && r.u16 2 < 16384,
    object := fun r s => (s.ctxOf (r.u8 0) (r.u16 2)).active }

/-- Status of an active context (R103). -/
def execTrbStatus (r : MbReq) (s : State) : Result := mailboxRow 0x0301 trbStatusForm trbStatusBody r s

/-! ### Open state and dFCMOVF (R97, R98) -/

/-- Eight consecutive invalid justification words declare the context open. -/
def execTribOpen (tnum : Nat) (s : State) : Result :=
  let x := tget {} s.dp.eg tnum
  done (if x.bad < 8 || x.openNow then s
    else (s.modDp fun d => { d with eg := tput {} d.eg tnum { x with openNow := true } }).event 0x4301 1 (leBytes 2 tnum))

/-- Words were discarded from a full buffer. -/
def execDfcmovfDeclare (tnum : Nat) (s : State) : Result :=
  done (s.modDp fun d => { d with ing := tmod {} d.ing tnum fun x => if x.discard then { x with fcmovf := true } else x })

/-- Eight consecutive frames without a discarded word. -/
def execDfcmovfClear (tnum : Nat) (s : State) : Result :=
  done (s.modDp fun d => { d with ing := tmod {} d.ing tnum fun x => if 8 ≤ x.clean then { x with fcmovf := false } else x })

/-! ### Resize (R103-R106) -/

/-- The line slots in use after a commit: with RESIZE 0b01 those of the outgoing record until the handshake, with RESIZE 0b00 those of
LINE_TS (R104, R105). -/
def slotsAfter (old new : CtxCfg) (x : Option (BitVec 80)) : Option (BitVec 80) :=
  if new.resize = 0 then none else x.or (if new.resize = 1 && old.active then some old.lineTs else none)

def Dp.running (d : Dp) (ing eg : Nat) : Option Resize := d.resizes.find? fun z => z.ing = ing && z.eg = eg

def Dp.endResize (ing eg : Nat) (d : Dp) : Dp := { d with resizes := d.resizes.filter fun z => !(z.ing = ing && z.eg = eg) }

/-- A resize ends, with 0 for success or the cause of R345. -/
def State.finishResize (ing eg cause : Nat) (s : State) : State :=
  match s.dp.running ing eg with
  | none => s
  | some z => (s.modDp (Dp.endResize ing eg)).complete (z.mb, z.seq) 0x0302 (if cause = 0 then 0 else 0x8003) cause []

def trbResizeBody (r : MbReq) (s : State) : Ans × State :=
  let i := r.u16 0
  let e := r.u16 2
  let ci := tget {} s.presentBank.ing i
  let ce := tget {} s.presentBank.eg e
  if ci.type != 7 || ce.type != 7 then (.denied, s)
  else if ci.resize = 0 || ce.resize = 0 || (s.dp.running i e).isSome then (.badState, s)
  else (s.accepted, s.modDp fun d => { d with resizes := d.resizes ++ [⟨i, e, 1, r.mb, r.seq⟩] })

def pairFields (r : MbReq) : Bool := r.u16 0 < 16384 && r.u16 2 < 16384

def trbResizeForm : Form := .fixed 4 pairFields

/-- Start the LCR phase of a resize (R103, R104). -/
def execTrbResize (r : MbReq) (s : State) : Result := mailboxRow 0x0302 trbResizeForm trbResizeBody r s

def trbResizeAbortBody (r : MbReq) (s : State) : Ans × State :=
  if (s.dp.running (r.u16 0) (r.u16 2)).isNone then (.badState, s)
  else (s.accepted, (s.finishResize (r.u16 0) (r.u16 2) 3).complete r.origin 0x0303 0 0 [])

def trbResizeAbortForm : Form := .fixed 4 pairFields

/-- End a running resize as failed (R106): the resize completes with cause 3, and the abort itself with OK. -/
def execTrbResizeAbort (r : MbReq) (s : State) : Result := mailboxRow 0x0303 trbResizeAbortForm trbResizeAbortBody r s

/-- The handshake and ramp end: 0 success, 1 timeout, 2 refused (R104-R106, R345). -/
def execResizeComplete (ing eg cause : Nat) (s : State) : Result :=
  done (if cause ≤ 2 then s.finishResize ing eg cause else s)

/-- Resizes on contexts that a conjugation evicts or moves fail with cause 4 (R106). -/
def State.failResizes (hit : Resize → Bool) (s : State) : State :=
  (s.dp.resizes.filter hit).foldl (fun s z => s.finishResize z.ing z.eg 4) s

end Sys2Proof.Machine
end

