-- ==== Sys2Proof/Machine/Conj.lean ====
section
/-!
DEFINITION. Paradigms and conjugations: deciding, applying and carrying the index, notices from the host and from pins, and
the CONJ commands (chapter 08).
-/

namespace Sys2Proof.Machine

/-! ### Paradigms (R184, R194) -/

/-- A conjugation needs a slice that is not usable. -/
def Para.short (p : Para) (u : BitVec 16) (i : Nat) : Bool := (p.conjs[i]?).any fun c => (c.sliceMask &&& ~~~u) != 0

/-- The highest index at or below `i` whose slices are usable, or 0. -/
def Para.limit (p : Para) (u : BitVec 16) : Nat → Nat
  | 0 => 0
  | i + 1 => if p.short u (i + 1) then p.limit u i else i + 1

/-- The index keyed by `m`. -/
def Para.keyed (p : Para) (m : Nat) : Option Nat := p.conjs.findIdx? fun c => c.m = m

/-- The index an `m` carries over to: the one it keys, else the highest whose M is at or below it, else 0 (R202). -/
def Para.carry (p : Para) (m : Nat) : Nat :=
  (p.keyed m).getD (((List.range p.conjs.length).filter fun i => (p.conjs[i]?).any fun c => c.m ≤ m).getLast?.getD 0)

def Para.mAt (p : Para) (i : Nat) : Nat := ((p.conjs[i]?).map (·.m)).getD 0

def State.para (s : State) (g : Nat) : Option Para := tfind s.presentBank.para g

/-- U: the slices whose member lane is usable, which are those of the expected PHY map (R85, R194). -/
def Grp.usableSlices (r : Grp) : BitVec 16 := BitVec.ofNat 16 (maskOf (r.expMap.map (· - 1)))

/-- The index of a group at a commit at F that replaces paradigm `po` by `p`: by the M of the index in force or of the notice applied, and
limited by `u`, the U of boundary F-1 (R153, R194, R202). -/
def Grp.carryIdx (r : Grp) (u : BitVec 16) (p po : Para) : Nat × Nat :=
  let i := p.carry (((r.next.bind (·.notice)).map (·.m)).getD (po.mAt r.cur))
  (i, p.limit u i)

/-- A notice has been distributed and not yet applied (R198). -/
def Grp.distributed (r : Grp) : Bool := r.next.any (·.notice.isSome)

/-! ### Records (R196) -/

/-- A CONJ event with the mailbox and sequence of the notice it concerns. -/
def State.conjEvent (code b6 : Nat) (n : Option Notice) (g old new m : Nat) (s : State) : State :=
  s.event code b6 ([BitVec.ofNat 8 ((n.map (·.mb)).getD 0xFF)] ++ leBytes 2 ((n.map (·.seq.toNat)).getD 0) ++
    [BitVec.ofNat 8 g, BitVec.ofNat 8 old, BitVec.ofNat 8 new] ++ leBytes 2 m)

/-- A pending notice is dropped: cause 1 absent, 2 Hold (R200). -/
def State.dropNotice (g cause : Nat) (s : State) : State :=
  match s.grp g with
  | some r => match r.notice with
    | some n => (s.modGrp g fun r => { (r.conjFlag 4) with notice := none }).conjEvent 0x4503 cause (some n) g r.cur n.idx n.m
    | none => s
  | none => s

/-- Entry into Hold drops every notice that has not been distributed (R200). -/
def State.dropNotices (s : State) : State :=
  (s.grps.filter fun e => !e.2.distributed).foldl (fun s e => s.dropNotice e.1 2) s

/-! ### Stale islands (R18) -/

/-- Islands whose clock was stopped at the token of a switch never apply it: they are stale until their reset. -/
def State.markStale (which : Nat → Bool) (s : State) : State :=
  let l := s.glb.stopped.filter which
  if l.isEmpty then s else (s.modRst fun r => { r with stale := l.foldl addNew r.stale }).raise 24

/-- A cluster holds a configuration of group `g`: it carries the group, or a stream that one of the group's records names. -/
def State.holdsGroup (s : State) (i g : Nat) : Bool :=
  let b := s.presentBank
  i < 16 && (((s.grp g).any fun r => (groupStreams g r).any fun st => st / 8 = i) ||
    (b.ing ++ b.eg).any (fun e => e.2.group = g && e.2.stream.toNat / 8 = i) ||
    b.alt.any fun e => e.2.group = g && e.2.stream.toNat / 8 = i)

/-- The group and the fallback groups into which its tributaries are evicted (R174). -/
def Bank.fallbacks (b : Bank) (g : Nat) : List Nat := g :: (b.shdw.filter (·.homeG = g)).map (·.fallG)

/-- A cluster holds a configuration of the group or of one of its fallback groups (R195). -/
def State.holdsConj (s : State) (g i : Nat) : Bool := (s.presentBank.fallbacks g).any (s.holdsGroup i)

/-! ### Deciding (R194, R195) -/

/-- The decision at boundary b-1 for boundary b, made in the frame that starts at b-1. -/
def State.conjDecide (g : Nat) (s : State) : State :=
  match s.grp g, s.para g with
  | some r, some p =>
    let due := r.notice.filter fun n => n.target = cfnAdd s.cfn 1
    let from_ := (due.map (·.now)).getD r.cur
    let u := r.usableSlices
    let cand := p.limit u from_
    if due.isNone && cand = r.cur then (if p.short u cand && s.traffic then s.modGrp g (Grp.conjFlag 3) else s)
    else
      let s := s.modGrp g fun r =>
        let r := if p.short u cand then r.conjFlag 3 else r
        let r := if cand < from_ && due.isSome then r.conjFlag 5 else r
        { r with next := some ⟨cand, if due.isSome then 1 else 2, due⟩ }
      let s := if cand = r.cur then s else s.markStale (s.holdsConj g)
      if s.twin.role = .leader && cand != r.cur then s.modTwin fun t => { t with conjOut := t.conjOut ++ [(g, cand)] } else s
  | _, _ => s

/-- Every group's decision; a follower takes its steps from its partner (R203). -/
def State.conjDecideAll (s : State) : State :=
  if s.glb.mode = .mateFollow then s else (tkeys s.grps).foldl (fun s g => s.conjDecide g) s

/-! ### Applying (R193, R196, R106) -/

/-- The contexts of direction `dir` whose record two indices of group `g` give differently. -/
def State.changedCtxs (s : State) (dir g old new : Nat) : List Nat :=
  let b := s.presentBank
  let idx (i : Nat) (x : Nat) : Option Nat := if x = g then some i else s.idxNow x
  let so := b.sets (idx old)
  let sn := b.sets (idx new)
  (tkeys (if dir = 0 then b.ing else b.eg)).filter fun t => b.ctx so dir t != b.ctx sn dir t

/-- Rank-0 egress contexts of the home group that a step deactivates (R193). -/
def State.rank0Hit (s : State) (g old new : Nat) : List Nat :=
  let b := s.presentBank
  let idx (i : Nat) (x : Nat) : Option Nat := if x = g then some i else s.idxNow x
  (s.changedCtxs 1 g old new).filter fun t =>
    let c := b.ctx (b.sets (idx old)) 1 t
    c.group = g && c.active && c.evictRank = 0 && !(b.ctx (b.sets (idx new)) 1 t).active

/-- The same at a commit that replaced bank `old` with indices `before`. -/
def State.rank0Commit (s : State) (old : Bank) (before : Nat → Option Nat) (g : Nat) : List Nat :=
  let b := s.presentBank
  (tkeys old.eg).filter fun t =>
    let c := old.ctx (old.sets before) 1 t
    c.group = g && c.active && c.evictRank = 0 && (tget {} b.eg t).group = g && b.everActive 1 t && !(b.ctx (b.sets s.idxNow) 1 t).active

/-- The index of a group changes to `new`, with what R196 records. -/
def State.conjApplied (g old new m cause : Nat) (n : Option Notice) (s : State) : State :=
  let h : ConjHist := ⟨s.cfn, old, new, m, cause⟩
  (s.modGrp g fun r => { r with
    cur := new, hasConj := true, cause := cause, next := none
    notice := if n.isSome then none else r.notice
    hist := (r.hist ++ [h]).drop (r.hist.length + 1 - 16) }).conjEvent 0x4501 cause n g old new m |>.count 598 (b2n (old != new && old != 0xFF))

/-- The index distributed one boundary ago takes effect. -/
def State.conjApply (g : Nat) (s : State) : State :=
  match s.grp g with
  | some r => match r.next with
    | some x =>
      let hit := s.rank0Hit g r.cur x.idx
      let ci := s.changedCtxs 0 g r.cur x.idx
      let ce := s.changedCtxs 1 g r.cur x.idx
      let m := ((s.para g).map (·.mAt x.idx)).getD 0
      let s := s.failResizes fun z => ci.contains z.ing || ce.contains z.eg
      let s := s.conjApplied g r.cur x.idx m x.cause x.notice
      if hit.isEmpty then s
      else (s.modGrp g (Grp.conjFlag 2)).event 0x4504 hit.length ((hit.take 16).flatMap (leBytes 2))
    | none => s
  | none => s

def State.conjApplyAll (s : State) : State := (tkeys s.grps).foldl (fun s g => s.conjApply g) s

/-- The indices in force one and two frames ago move on (R195), and the U by which an index that takes effect now is limited (R194). -/
def Grp.shiftIdx (r : Grp) : Grp := { r with cur2 := r.cur1, cur1 := r.cur, usable1 := r.usableSlices }

/-- The slices and slots a conjugation marks unavailable, and whether too few could be marked (R187). -/
def State.unavailable (s : State) (g : Nat) (r : Grp) : List (Nat × Nat) × Bool :=
  let b := s.bank2
  match (tfind b.para g).bind (·.conjs[r.cur2]?) with
  | none => ([], false)
  | some c =>
    let eg := b.ctxs (b.sets s.idx2) 1
    let held (i slot : Nat) : Bool := (onStream eg ((groupStreams g r).getD i 0)).any fun x => x.lineTs.getLsbD slot
    let slices := List.range r.n
    let off := (slices.filter fun i => !c.sliceMask.getLsbD i).flatMap fun i => (List.range 20).map fun k => (i, k)
    let free := (slices.filter fun i => c.sliceMask.getLsbD i).reverse.flatMap fun i =>
      ((List.range 20).reverse.filter fun k => !held i k).map fun k => (i, k)
    let l := (off ++ free).take (20 * r.n - c.m)
    (l, l.length < 20 * r.n - c.m)

/-- Mark the slots of every group whose mapper configuration changed at this boundary. -/
def State.markSlots (g : Nat) (s : State) : State :=
  match s.grp g with
  | some r =>
    let x := s.unavailable g r
    s.modGrp g fun r => if x.2 then { (r.conjFlag 1) with unavail := x.1 } else { r with unavail := x.1 }
  | none => s

/-! ### Crossing a commit (R152, R200, R202) -/

/-- A notice that is still pending when a paradigm comes in: it names the index its M keys there, or is dropped. -/
def State.carryNotice (g : Nat) (p : Option Para) (s : State) : State :=
  match s.grp g with
  | some r => match r.notice with
    | some n => match p.bind (·.keyed n.m) with
      | some i => s.modGrp g fun r => { r with notice := some { n with now := i } }
      | none => s.dropNotice g 1
    | none => s
  | none => s

/-- The index of a group at a commit or rollback that replaced bank `old`. A change of the index, a notice, or an index whose
conjugation is another one is recorded with cause 3; contexts that the coinciding step evicts or moves end their resizes, and
rank-0 contexts it deactivates are reported (R106, R193, R202). -/
def State.conjCarry (old : Bank) (before : Nat → Option Nat) (g : Nat) (s : State) : State :=
  match s.grp g with
  | none => s
  | some r => match s.para g, tfind old.para g with
    | none, _ => (s.dropNotice g 1).modGrp g fun r => { r with cur := 0, hasConj := false, next := none }
    | some p, none => (s.conjApplied g 0xFF p.init (p.mAt p.init) 3 none).carryNotice g (some p)
    | some p, some po =>
      let n := r.next.bind (·.notice)
      let x := r.carryIdx r.usable1 p po
      let i := x.1
      let j := x.2
      let s := s.modGrp g fun r =>
        let r := if p.short r.usable1 j then r.conjFlag 3 else r
        let r := if j < i && n.isSome then r.conjFlag 5 else r
        { r with next := none }
      let step := po.mAt r.cur != p.mAt j
      let s := if n.isSome || j != r.cur || step then s.conjApplied g r.cur j (p.mAt j) 3 n else s
      let hit := if step then s.rank0Commit old before g else []
      let s := if hit.isEmpty then s else (s.modGrp g (Grp.conjFlag 2)).event 0x4504 hit.length ((hit.take 16).flatMap (leBytes 2))
      s.carryNotice g (some p)

/-- Resizes of contexts that a step coinciding with a commit evicts or moves fail (R106, R202): those inactive from F, on another stream, or
with other line slots under an unchanged RESIZE. A commit without a step does the same to a resizing context that it makes inactive or
moves: R106 names conjugations alone and does not say what such a commit does; the model ends the resize with the same cause 4 (DESIGN
CHOICE, log entry 35). -/
def State.failCarried (old : Bank) (before : Nat → Option Nat) (s : State) : State :=
  let b := s.presentBank
  let hit (dir t : Nat) : Bool :=
    let o := old.ctx (old.sets before) dir t
    let n := b.ctx (b.sets s.idxNow) dir t
    o.active && (!n.active || (n.resize != 0 && n.resize = o.resize && n.lineTs != o.lineTs) || n.stream != o.stream)
  s.failResizes fun z => hit 0 z.ing || hit 1 z.eg

/-! ### Notices (R197-R199) -/

/-- The device mode and DATA_ENABLE allow a notice (R197). -/
def State.noticeMode (s : State) : Bool :=
  (s.glb.mode = .provisioning && s.sch.dataEnable) || s.glb.mode = .service || s.glb.mode = .degraded

/-- A notice as accepted: `idx` is the index its M keys then, and `now` the one it names after commits (R196). -/
def Notice.of (target : Cfn) (i m : Nat) (pin : Bool) (mb : Nat) (seq : W16) : Notice := ⟨target, i, i, m, pin, mb, seq⟩

/-- A notice becomes the pending one; an earlier one is replaced (R198). -/
def State.setNotice (g : Nat) (n : Notice) (s : State) : State :=
  match s.grp g with
  | none => s
  | some r =>
    let s' := s.modGrp g fun r => { r with notice := some n }
    match r.notice with
    | some o => s'.conjEvent 0x4502 0 (some o) g r.cur o.idx o.m
    | none => s'

def conjNoticeBody (r : MbReq) (s : State) : Ans × State :=
  let g := r.u8 0
  let t := r.cfn 8
  let d := t - s.cfn
  if s.glb.mode = .mateFollow then (.denied, s)
  else if (s.grp g).any (·.distributed) then (.busy, s)
  else if !s.noticeMode || d.toNat < 2 || 2 ^ 47 ≤ d.toNat then (.badState, s)
  else (s.accepted, s.setNotice g
    (Notice.of t (((s.para g).bind (·.keyed (r.u16 2))).getD 0) (r.u16 2) false r.mb r.seq))

def conjNoticeForm : Form := {
    len := fun _ => 16, fields := fun r => r.u8 0 < 128 && r.zero [(1, 1), (4, 4)] && r.cfnOk 8,
    object := fun r s => (s.grp (r.u8 0)).isSome && ((s.para (r.u8 0)).bind (·.keyed (r.u16 2))).isSome }

/-- Name a conjugation by its M for frame T (R197). -/
def execConjNotice (r : MbReq) (s : State) : Result := mailboxRow 0x0501 conjNoticeForm conjNoticeBody r s

/-- The cancelled notice has its outcome event, NOTICE_DROPPED (R342), with a cause that R344 does not list: a free value (DEDUCED, log
entry 35). -/
def conjCancelBody (r : MbReq) (s : State) : Ans × State :=
  match s.grp (r.u8 0) with
  | none => (.badState, s)
  | some x =>
    if x.distributed then (.busy, s)
    else if x.notice.isNone then (.badState, s)
    else
      let d := s.draw 8
      (.ok, (d.2.modGrp (r.u8 0) fun g => { g with notice := none }).conjEvent 0x4503 d.1.toNat x.notice (r.u8 0) x.cur
        ((x.notice.map (·.idx)).getD 0) ((x.notice.map (·.m)).getD 0))

def conjCancelForm : Form := .fixed 1 fun r => r.u8 0 < 128

/-- Remove a pending notice (R198). -/
def execConjCancel (r : MbReq) (s : State) : Result := mailboxRow 0x0502 conjCancelForm conjCancelBody r s

/-- An edge of a bound pin reaches the core in this frame: a notice for the next but one frame, or PIN_IGNORED (R199). -/
def execConjPinEdge (pin : Nat) (rising : Bool) (s : State) : Result :=
  done (match tfind s.pwr.binds pin with
    | none => s
    | some (g, mode, preset, falling) =>
      if rising = falling || !s.glb.released then s
      else match s.grp g with
        | none => s
        | some r =>
          let idx : Option Nat := (s.para g).bind fun p =>
            if !s.noticeMode || r.distributed then none
            else if mode = 1 then (if preset < p.conjs.length then some preset else none)
            else if r.cur = 0 then none else some (r.cur - 1)
          match idx, s.para g with
          | some i, some p => s.setNotice g (Notice.of (cfnAdd s.cfn 2) i (p.mAt i) true 0xFF 0)
          | _, _ => s.modGrp g (Grp.conjFlag 0))

def conjPinCfgBody (r : MbReq) (s : State) : Ans × State :=
  let p := r.u8 0
  let g := r.u8 1
  let mode := r.u8 2
  let own := (tfind s.pwr.binds p).map (·.1)
  let v : Nat × Nat × Nat × Bool := (g, mode, r.u8 3, r.u8 4 = 1)
  if own.any (· != g) || tget 0 s.pwr.gpioFn p != 0 || s.pwr.pinsTaken.contains (p, false) || (mode != 0 && s.pwr.binds.any fun e => e.1 != p && e.2.1 = g) then (.noResource, s)
  else (.ok, s.modPwr fun w =>
    let w := { w with pinsTaken := if s.coreRuns then addNew w.pinsTaken (p, true) else w.pinsTaken }
    if mode = 0 then { w with binds := tdel w.binds p, bindPend := w.bindPend.filter fun e => e.1 != p }
    else if own.isSome then { w with bindPend := w.bindPend ++ [(p, v)] }
    else { w with binds := tins w.binds p v })

def conjPinCfgForm : Form := .fixed 5 fun r => r.u8 0 < 64 && r.u8 1 < 128 && r.u8 2 < 3 && r.u8 3 < 16 && r.u8 4 < 2

/-- Bind a GPIO pin to a group (R199); of this and DEV_GPIO_CFG for one pin in one frame the second is refused (R472). -/
def execConjPinCfg (r : MbReq) (s : State) : Result := mailboxRow 0x0503 conjPinCfgForm conjPinCfgBody r s

/-- Replaced bindings take effect (R199), and the pins taken in the frame are forgotten (R472). -/
def Pwr.bindBoundary (w : Pwr) : Pwr := { w with binds := w.bindPend.foldl (fun t e => tins t e.1 e.2) w.binds, bindPend := [], pinsTaken := [] }

def Conj.bytes (c : Conj) : List Byte :=
  leBytes 2 c.m ++ leBytes 2 c.sliceMask.toNat ++ [BitVec.ofNat 8 c.sets.length, 0, 0, 0] ++ padTo 24 (c.sets.flatMap (leBytes 2))

def ConjHist.bytes (h : ConjHist) : List Byte :=
  padTo 16 (cfnBytes h.cfn ++ [BitVec.ofNat 8 h.old, BitVec.ofNat 8 h.new] ++ leBytes 2 h.m ++ [BitVec.ofNat 8 h.cause])

def conjStatusBody (r : MbReq) (s : State) : Ans × State :=
  let g := r.u8 0
  match s.grp g with
  | none => (.badCmd, s)
  | some x =>
    (⟨0, leBytes 4 x.conj ++ leBytes 2 x.usableSlices.toNat ++ [0, 0] ++ cfnBytes ((x.notice.map (·.target)).getD 0) ++
      padTo 512 (((s.para g).map (·.conjs.flatMap Conj.bytes)).getD []) ++ padTo 256 (x.hist.flatMap ConjHist.bytes)⟩, s)

def conjStatusForm : Form := { len := fun _ => 1, fields := fun r => r.u8 0 < 128, object := fun r s => (s.grp (r.u8 0)).isSome }

/-- The conjugation table, the pending notice and the last 16 changes (R203). -/
def execConjStatus (r : MbReq) (s : State) : Result := mailboxRow 0x0504 conjStatusForm conjStatusBody r s

end Sys2Proof.Machine
end

