-- ==== Sys2Proof/Machine/Twin.lean ====
section
/-!
DEFINITION. Stitch lanes, tokens, CFN alignment, twin roles and the referee, and the TWIN, DOM and STC commands (chapter 13).
The tokens of a commit domain are acted on in TakeEffect.lean.
-/

namespace Sys2Proof.Machine

/-! ### Lanes (R313, R317, R319) -/

def State.stitchMask (s : State) (m : BitVec 128) : List Nat := (ones 128 m.toNat).filter fun n => s.stitch n

def State.twinLanes (s : State) : List Nat := s.stitchMask s.twin.twinLanes

def Twin.paired (t : Twin) : Bool := t.role = .leader || t.role = .follower

/-- The domain stitch lanes; a joined pair is a domain over its twin lanes too (R319). -/
def State.domainLanes (s : State) : List Nat :=
  s.stitchMask (s.twin.domLanes ||| (if s.twin.paired then s.twin.twinLanes else 0))

def State.lockedStitch (s : State) (n : Nat) : Bool := s.stitch n && (s.lane n).state = .locked

def State.twinLinked (s : State) : Bool := s.twinLanes.any s.lockedStitch

/-! ### Lane frames (R307-R310, R327) -/

/-- The columns of a received lane frame that the next frame writes: an invalid block gives the all-zero word, and columns
16,128 to 16,255 are the receiver's own. -/
def stitchWords (f : StitchRx) : Tbl W64 :=
  (tof (f.columns.filter fun e => e.1 < 16384)).filter fun e =>
    e.2 != 0 && !(f.invalid.contains e.1) && (e.1 < 16128 || 16256 ≤ e.1)

/-- The marker at the accepted offset. -/
def markerAt (f : StitchRx) (l : Lane) : Bool := f.markerOk && f.offset = (l.align 0).offset

/-- A lane frame is received in HUNT: the CFN stands for the multiframe indicator (R307). -/
def Lane.stitchHunt (f : StitchRx) (l : Lane) : Lane :=
  let step := l.stCfn.any fun c => f.cfn = cfnAdd c 1
  let l := if step then l else l.modAlign 0 fun a => { a with trackers := [] }
  { (l.hunt 0 (if f.markerOk then [(f.offset, f.cfn.toNat % 256)] else [])) with
    stCfn := if f.markerOk then some f.cfn else none
    stPeer := if f.markerOk then BitVec.ofNat 6 f.index else l.stPeer
    stDelay := if f.markerOk then min 16383 f.delayNs else l.stDelay
    stPhase := if f.markerOk then f.phaseNs else l.stPhase
    stRun := if !f.markerOk then 0 else if step then l.stRun + 1 else 1 }

/-- A lane frame is received in LOCKED: the columns are good where the frame came in time and with the local CFN. -/
def Lane.stitchTake (f : StitchRx) (cfn : Cfn) (joining : Bool) (l : Lane) : Lane :=
  if !(markerAt f l) then
    { (l.modAlign 0 fun a => { a with mismatch := a.mismatch + 1 }) with stRun := 0, stWords := none, stCfn := l.stCfn.map (cfnAdd · 1) }
  else
    let late := 9500 < f.delayNs
    let wrong := f.cfn != cfn
    let l := { (l.modAlign 0 fun a => { a with mismatch := 0 }) with
      stPeer := BitVec.ofNat 6 f.index, stDelay := min 16383 f.delayNs, stPhase := f.phaseNs, stCfn := some f.cfn, stRun := l.stRun + 1
      stWords := if late || wrong || joining then none else some (stitchWords f) }
    let l := if late then l.stFlag 3 else l
    let l := if wrong && !joining then l.stFlag 2 else l
    if f.invalid.isEmpty then l else l.stFlag 1

/-- The device waits for CFN alignment (R316). -/
def Twin.aligning (t : Twin) : Bool := (t.joinAs != 0 && !t.joined) || t.domAlign

/-- A stitch lane frame arrives (R307-R310). A marker whose CFN does not follow the one before is a failure event. -/
def execStitchFrame (lane : Nat) (f : StitchRx) (s : State) : Result :=
  done (if !s.stitch lane || !s.receiving lane then s
    else
      let l := s.lane lane
      match l.state with
      | .hunt => s.modLane lane (Lane.stitchHunt f)
      | .locked =>
        let broken := markerAt f l && l.stCfn.any fun c => f.cfn != cfnAdd c 1
        let s := s.modLane lane (Lane.stitchTake f s.cfn s.twin.aligning)
        let s := if markerAt f l && s.twin.twinLanes.getLsbD lane then s.modTwin fun t => { t with peer := BitVec.ofNat 6 f.index } else s
        if broken then (s.modLane lane fun l => { l with stWords := none }).failureEvent lane else s
      | _ => s)

/-! ### Tokens (R311, R312) -/

abbrev Token := BitVec 168

def Token.kind (t : Token) : Nat := fld t.toNat 164 4
def Token.origin (t : Token) : Nat := fld t.toNat 158 6
def Token.hops (t : Token) : Nat := fld t.toNat 152 6
def Token.tag (t : Token) : Nat := fld t.toNat 136 16
def Token.body (t : Token) : Nat := fld t.toNat 16 120

/-- The CRC over bits [167:16], most significant bit first. -/
def tokenCrc (v : Nat) : Nat := crc16 (beBytes 19 v)

def Token.crcOk (t : Token) : Bool := tokenCrc (t.toNat / 65536) = t.toNat % 65536

def mkToken (kind origin hops tag body : Nat) : Token :=
  let v := kind % 16 * 2 ^ 148 + origin % 64 * 2 ^ 142 + hops % 64 * 2 ^ 136 + tag % 65536 * 2 ^ 120 + body % 2 ^ 120
  BitVec.ofNat 168 (v * 65536 + tokenCrc v)

def Token.relayed (t : Token) : Token := mkToken t.kind t.origin (t.hops + 1) t.tag t.body

/-- Bits [hi:lo] of a token, read from its body. -/
def Token.bits (t : Token) (hi lo : Nat) : Nat := fld t.toNat lo (hi - lo + 1)

def State.token (s : State) (kind body : Nat) : Token := mkToken kind s.twin.index.toNat 0 (s.cfn.toNat % 65536) body

/-- The HB token of this frame; YIELD goes out through frame y (R311, R325). -/
def State.hbToken (s : State) : Token :=
  s.token 1 (b2n (s.twin.yielding.any fun y => cfnGe y s.tick) * 2 ^ 119 + s.twin.role.code * 2 ^ 116 + s.presentBank.id.toNat * 2 ^ 52)

/-- A VOTE or ARM token for an armed operation; vote 1 GO, 2 VETO, 0 for ARM. -/
def State.voteToken (s : State) (kind vote : Nat) (a : Armed) : Token :=
  s.token kind (vote * 2 ^ 118 + b2n a.rollback * 2 ^ 117 + a.target.toNat * 2 ^ 69 + a.id.toNat * 2 ^ 5)

/-- CONJ tokens: ten entries each, at most 13 tokens (R320). -/
def State.conjTokens (s : State) : List Token :=
  let l := s.twin.conjOut.take 130
  (List.range ((l.length + 9) / 10)).map fun k =>
    s.token 4 ((((l.drop (10 * k)).take 10).zipIdx).foldl (fun a e => a + (2048 + e.1.1 % 128 * 16 + e.1.2 % 16) * 2 ^ (108 - 12 * e.2)) 0)

/-- VETOs to relay on these lanes. -/
def Twin.send (lanes : List Nat) (t : Token) (w : Twin) : Twin :=
  { w with relay := lanes.foldl (fun m n => tins m n (tget [] m n ++ [t])) w.relay }

/-- PERT.HB suppresses the twin heartbeat, tokens and pin (R451). -/
def State.hbMuted (s : State) : Bool := s.pert.hb.getLsbD 31 && fld s.pert.hb.toNat 28 3 = 4 && fld s.pert.hb.toNat 0 16 != 0

/-- The ARM token of a leader, from acceptance to F-5 (R319). -/
def State.armToken (s : State) : Option Token :=
  s.sch.armed.bind fun a =>
    if s.twin.role = .leader && (s.sch.armState = .commitArmed || s.sch.armState = .rollbackArmed) && 5 ≤ (a.target - s.cfn).toNat
    then some (s.voteToken 5 0 a) else none

/-- The ID token of frame F+1 (R160). -/
def State.idToken (s : State) : Option Token :=
  if s.twin.domCommit.any fun f => s.cfn = cfnAdd f 1 then some (s.token 3 (s.presentBank.id.toNat * 2 ^ 56)) else none

/-- The CONJ tokens of lane `n`, the first of its slots. -/
def State.conjSlots (s : State) (n : Nat) : List Token := if s.twinLanes.contains n then s.conjTokens else []

/-- What lane `n` carries in the 16 slots of the frame in progress (R312): CONJ tokens first, HB in slot 15, and in every other slot a VETO
to relay, else the VOTE, ID or ARM of the frame, else HB. From D no HB is sent, and its slots stay empty (R323). Where in the frame a
VETO came, the commands do not tell: it takes the first free slot (log entry 31). -/
def State.slots (s : State) (n : Nat) : Tbl Token :=
  let dom := s.domainLanes.contains n
  let hb := if s.twin.lossAt.isSome || s.hbMuted then none else some s.hbToken
  let own := (if dom then s.twin.vote.or s.idToken else none).or (if s.twinLanes.contains n then s.armToken else none)
  let conj := s.conjSlots n
  let room := 15 - conj.length
  let veto := (tget [] s.twin.relay n).take room
  let l : List (Option Token) := (conj ++ veto).map some ++ List.replicate (room - veto.length) (own.or hb) ++ [hb]
  l.zipIdx.filterMap fun e => e.1.map fun t => (e.2, t)

/-- PERT.STITCH drops an outgoing token (R451). -/
def State.dropped (s : State) (n : Nat) (t : Token) : Bool :=
  let p := s.pert.stitch.toNat
  bitOf p 31 && fld p 0 16 != 0 && fld p 16 7 = n && 1 ≤ t.kind && t.kind ≤ 5 && bitOf p (25 + t.kind)

/-- The frame that ends has sent its tokens: those of every stitch lane but an idle one. A VETO that found no slot waits for the next
frame. -/
def State.sendTokens (s : State) : State :=
  let lanes := (List.range 128).filter fun n => s.stitch n && !(s.lane n).txIdle
  let all := lanes.map fun n => (n, s.slots n)
  let drops := (all.map fun e => (e.2.filter fun k => s.dropped e.1 k.2).length).sum
  (s.count 745 drops).modTwin fun t => { t with
    tx := all.map fun e => (e.1, e.2.filter fun k => !s.dropped e.1 k.2)
    relay := (t.relay.map fun e => (e.1, e.2.drop (15 - (s.conjSlots e.1).length))).filter fun e => !e.2.isEmpty
    vote := none, conjOut := [], idSeen := [] }

/-! ### Roles (R324-R327) -/

def Twin.senior (t : Twin) : Bool := if t.seniorCfg = 0 then t.index = 0 else t.seniorCfg = 1

/-- A join is in progress (R324). -/
def Twin.joining (t : Twin) : Bool := t.joinAs != 0

/-- Heartbeat loss is to be detected at this boundary (R323). -/
def Twin.lossDue (t : Twin) : Bool :=
  t.role != .solo && t.role != .joining && !t.joining && t.lossAt.isNone && t.hbLoss ≤ t.hbMiss

/-- Whether the role asks for TWIN_ACT_OUT high (R318). -/
def TwinRole.wantsAct : TwinRole → Bool
  | .leader | .activeAlone => true
  | _ => false

def Twin.drive (t : Twin) : Twin := { t with act := t.role.wantsAct && !t.peerAct }

/-- `TWIN.STAT` (R327). SENIOR holds its reset value until a DOM_CFG or TWIN_CFG gives the device its index or its seniority (DEDUCED, log
entry 31). -/
def Twin.stat (t : Twin) : Nat :=
  t.role.code * 2 ^ 29 + b2n (t.seniorSet && t.senior) * 2 ^ 28 + b2n t.act * 2 ^ 27 + b2n t.peerAct * 2 ^ 26 + b2n t.hbOk * 2 ^ 25 +
  b2n t.identical * 2 ^ 24 + t.sticky.toNat * 2 ^ 21 + t.index.toNat * 2 ^ 15

/-- Set HB_LOSS (2), DIVERGED (1) or ROLE_CHG (0) of `TWIN.STAT`, which raises MODE_CHG (R327). -/
def State.twinFlag (b : Nat) (s : State) : State := (s.modTwin fun t => { t with sticky := setBit t.sticky b true }).raise 23

/-- The referee moves the role. -/
def State.setRole (new : TwinRole) (cause : Nat) (s : State) : State :=
  let old := s.twin.role
  let h : RoleHist := ⟨s.recCfn, old.code, new.code, cause⟩
  let s := s.modTwin fun t => ({ t with
    role := new, since := s.tick, hist := (t.hist ++ [h]).drop (t.hist.length + 1 - 16), identical := false
    yielding := none, peerYield := none, leave := false }).drive
  (s.twinFlag 0).event 0x4D01 new.code [BitVec.ofNat 8 old.code]

/-- The mode leaves Mate-follow at the next boundary (R23). -/
def State.leaveMate (s : State) : State := if s.glb.mode = .mateFollow then s.trigger .leaveMate else s

/-- Become the active device (R324). -/
def State.goActive (cause : Nat) (s : State) : State := (s.setRole .activeAlone cause).leaveMate

/-- Heartbeat loss at D (R323, R324). -/
def execTwinHbLoss (s : State) : Result :=
  let t := s.twin
  done (if !t.lossDue || !s.glb.released then s
    else
      let s := (s.modTwin fun t => { t with lossAt := some s.tick, actLow := !t.peerAct, hbOk := false }).twinFlag 2
      match t.role, t.senior with
      | .leader, true => s.setRole .activeAlone 1
      | .leader, false => s.setRole .standbyAlone 1
      | .follower, false => s.setRole .standbyAlone 1
      | _, _ => s)

/-- A senior follower takes over at D + HB_LOSS + 2 (R324). -/
def execTwinActivate (s : State) : Result :=
  let t := s.twin
  done (if t.role = .follower && t.senior && t.lossAt.any (fun d => t.hbLoss + 2 ≤ since s.tick d) then s.goActive 1 else s)

/-- A device that stands by alone takes over at D + 2 × HB_LOSS + 8 (R324). -/
def execTwinStandbyTakeover (s : State) : Result :=
  let t := s.twin
  done (if t.role = .standbyAlone && t.actLow && t.lossAt.any (fun d => 2 * t.hbLoss + 8 ≤ since s.tick d) then s.goActive 2 else s)

/-- A leader hands over: YIELD goes out through the next frame (R325). -/
def State.startYield (s : State) : State :=
  if s.twin.role = .leader && s.twin.yielding.isNone then s.modTwin fun t => { t with yielding := some (cfnAdd s.tick 1) } else s

/-- The steps of a hand-over: the leader's at y+1, the follower's at y+2; on a leader that does not yield yet, a fault of
R325 starts it. -/
def execTwinHandover (cause : Nat) (s : State) : Result :=
  let t := s.twin
  done (match t.role with
    | .leader => match t.yielding with
      | none => if s.glb.released then s.startYield else s
      | some y => if cfnGe s.tick (cfnAdd y 1) then s.setRole .standbyAlone cause else s
    | .follower => if t.peerYield.any fun y => cfnGe s.tick (cfnAdd y 2) then s.goActive cause else s
    | _ => s)

/-- A quadrant die or its link fails (R19, R20): its lanes retire, and a leader hands over. -/
def execQuadrantFailure (q : Nat) (s : State) : Result :=
  done (if 4 ≤ q || s.rst.phase != .started || s.glb.quadFail.getLsbD q then s
    else
      let s := { s with lanes := tmap (fun n (l : Lane) =>
        if n / 32 = q && l.role != LaneRole.off && !l.retired && !l.retiring then { l with pend := some (.toRetired s.cfn) } else l) s.lanes }
      ((s.modGlb fun g => { g with quadFail := setBit g.quadFail q true }).unitRecord 7 2 q 7 0 0xFFFF).startYield)

/-! ### Joining (R316) -/

/-- A join in progress ends unfinished: its completion says BAD_STATE (R342). -/
def State.endJoin (s : State) : State :=
  let s' := s.modTwin fun t => { t with joinAs := 0, joinFrom := none }
  match s.twin.joinFrom with
  | some o => s'.complete o 0x0D01 0x8003 0 []
  | none => s'

/-- The boundary at which the device takes over its partner's CFN; the second goes on from it. -/
def State.takeCfn (c : Cfn) (s : State) : State :=
  let n := c.toNat * 16384 / 1600000000
  s.modGlb fun g => { g with
    cfn := c, tick := cfnAdd g.tick 1, sec := BitVec.ofNat 32 n, bNext := (n + 1) * 1600000000 - c.toNat * 16384, ppsCorr := 0, ppsNow := 0 }

/-- Three markers have been accepted, and the frame in progress is adjusted to end at the partner's boundary: the one after the frame whose
marker was accepted last (DEDUCED, log entry 31). -/
def execTwinJoinAligned (partnerCfn : Cfn) (s : State) : Result :=
  let lanes := if s.twin.domAlign then s.domainLanes else s.twinLanes
  done (if !s.twin.aligning || s.sch.dataEnable || !s.glb.released || !(lanes.any fun n => s.lockedStitch n && 3 ≤ (s.lane n).stRun && (s.lane n).stCfn.any fun c => partnerCfn = cfnAdd c 1) then s
    else (s.takeCfn partnerCfn).modTwin fun t => { t with joined := t.joined || t.joining, domAlign := false, secSuspect := true })

/-- A commit takes effect in this frame (R150). -/
def State.commitDue (s : State) : Bool := s.sch.armState = .commitGo && s.sch.armed.any (fun a => a.effect = s.cfn) && s.traffic

/-- Alignment is done and heartbeats were present for 100 frames (R324). -/
def Twin.joinReady (t : Twin) : Bool := t.joining && t.joined && 100 ≤ t.hbRun

/-- The change to Mate-follow waits for the next boundary: a trigger of higher precedence stands, the mode changed in this frame, a commit
of this frame ends `Provisioning` in `Degraded`, or the change is not legal from the mode (R24). -/
def State.mateFollowWaits (s : State) : Bool :=
  s.glb.triggers.contains .hold || s.glb.triggers.contains .decommission || !s.glb.mode.arms ||
  ((s.glb.mode = .service || (s.glb.mode = .provisioning && s.commitDue)) && s.redundancyLost) || s.glb.modeAt = some s.tick

/-- A join is complete (R324). -/
def execTwinJoinDone (s : State) : Result :=
  let t := s.twin
  done (if !t.joinReady then s
    else
      let role := if t.joinAs = 2 then TwinRole.leader else .follower
      let s := (s.setRole role 3).modTwin fun t => { t with
        joinAs := 0, joinFrom := none, sweep := if role = .leader then 0 else 8192, swept := 0, diverged := false, unlinked := false }
      let s := match t.joinFrom with
        | some o => s.complete o 0x0D01 0 role.code []
        | none => s
      if role != .follower then s
      else if s.mateFollowWaits then s.trigger .mateFollow
      else s.setMode .mateFollow 3)

/-- The partner's markers on some of these lanes are in step with the local frame, and none is out of step: CFNs equal and phases within
1 µs (R316). -/
def State.inStep (s : State) (lanes : List Nat) : Bool :=
  let heard := lanes.filter fun n => s.lockedStitch n && (s.lane n).stCfn.isSome
  !heard.isEmpty && heard.all fun n =>
    (s.lane n).stPhase.natAbs ≤ 1000 && (s.lane n).stCfn.any fun c => c = s.cfn || cfnAdd c 1 = s.cfn

/-- A commit, a rollback or a conjugation notice is pending. -/
def State.changePending (s : State) : Bool :=
  s.sch.armState != .idle || s.grps.any fun e => e.2.notice.isSome || e.2.next.isSome

/-- The role from which a join to role `r` starts (R324). -/
def TwinRole.joins : TwinRole → Nat → Bool
  | .solo, _ => true
  | .activeAlone, _ => true
  | .standbyAlone, r => r = 3
  | _, _ => false

/-- A device that is SOLO goes to JOINING at acceptance; one that is alone keeps its role, and TWIN_ACT_OUT with it, until the join is
complete (R324). A second TWIN_JOIN meanwhile is answered BAD_STATE (DESIGN CHOICE, log entry 31). -/
def twinJoinBody (r : MbReq) (s : State) : Ans × State :=
  let locked := s.twinLanes.any s.lockedStitch
  if !s.twin.role.joins (r.u8 0) || s.twin.joining || s.changePending || (s.sch.dataEnable && locked && !s.inStep s.twinLanes) then (.badState, s)
  else if !locked then (.noResource, s)
  else (s.accepted, (if s.twin.role = .solo then s.setRole .joining 4 else s).modTwin fun t => { t with
    joinAs := r.u8 0, joinFrom := some r.origin, joined := s.sch.dataEnable, lossAt := none, hbRun := 0, hbMiss := 0 })

def twinJoinForm : Form := .fixed 1 fun r => r.u8 0 = 2 || r.u8 0 = 3

/-- Start joining as leader or follower (R316, R324). -/
def execTwinJoin (r : MbReq) (s : State) : Result := mailboxRow 0x0D01 twinJoinForm twinJoinBody r s

def twinLeaveBody (_ : MbReq) (s : State) : Ans × State :=
  if s.twin.role = .solo then (.badState, s) else (.ok, (s.modTwin fun t => { t with leave := true }).leaveMate)

def twinLeaveForm : Form := .fixed 0

/-- Return to SOLO at the next boundary (R324). -/
def execTwinLeave (r : MbReq) (s : State) : Result := mailboxRow 0x0D02 twinLeaveForm twinLeaveBody r s

def RoleHist.bytes (h : RoleHist) : List Byte :=
  padTo 16 (cfnBytes h.cfn ++ [BitVec.ofNat 8 h.old, BitVec.ofNat 8 h.new, Config.histCode (32 + h.cause)])

def twinStatusBody (_ : MbReq) (s : State) : Ans × State :=
  (⟨0, leBytes 4 s.twin.stat ++ [BitVec.setWidth 8 s.twin.peer, BitVec.setWidth 8 s.twin.paths, 0, 0] ++ padTo 256 (s.twin.hist.flatMap RoleHist.bytes)⟩, s)

def twinStatusForm : Form := .fixed 0

/-- Roles, heartbeat paths and the last 16 role changes (R326). -/
def execTwinStatus (r : MbReq) (s : State) : Result := mailboxRow 0x0D03 twinStatusForm twinStatusBody r s

def twinCfgBody (r : MbReq) (s : State) : Ans × State :=
  if s.twin.role != .solo then (.badState, s)
  else (.ok, s.modTwin fun t => { t with
    twinLanes := BitVec.ofNat 128 (r.fld 0 16), seniorCfg := r.u8 16, seniorSet := true, hbLoss := r.u8 17, fsyncUse := r.u8 18 = 1, compPs := r.s32 20 })

def twinCfgForm : Form := .fixed 24 fun r => r.u8 16 < 3 && 1 ≤ r.u8 17 && r.u8 17 ≤ 64 && r.u8 18 < 2 && r.zero [(19, 1)]

/-- Configure the twin (R326). -/
def execTwinCfg (r : MbReq) (s : State) : Result := mailboxRow 0x0D04 twinCfgForm twinCfgBody r s

def twinYieldBody (_ : MbReq) (s : State) : Ans × State :=
  if s.twin.role != .leader then (.badState, s) else (.ok, s.startYield)

def twinYieldForm : Form := .fixed 0

/-- Hand over (R325). -/
def execTwinYield (r : MbReq) (s : State) : Result := mailboxRow 0x0D05 twinYieldForm twinYieldBody r s

def domCfgBody (r : MbReq) (s : State) : Ans × State :=
  let m : BitVec 128 := BitVec.ofNat 128 (r.fld 8 16)
  let added := s.stitchMask (m &&& ~~~s.twin.domLanes)
  if s.sch.armState != .idle then (.busy, s)
  else if !added.isEmpty && s.sch.dataEnable && (s.changePending || !s.inStep added) then (.badState, s)
  else (.ok, s.modTwin fun t => { t with
    index := BitVec.ofNat 6 (r.u8 0), seniorSet := true, domLanes := m, domAlign := !added.isEmpty && !s.sch.dataEnable })

def domCfgForm : Form := .fixed 24 fun r => r.u8 0 < 64 && r.zero [(1, 7)]

/-- Set the device index and the domain stitch lanes (R313, R316). -/
def execDomCfg (r : MbReq) (s : State) : Result := mailboxRow 0x0D10 domCfgForm domCfgBody r s

def domStatusBody (_ : MbReq) (s : State) : Ans × State :=
  let l := s.domainLanes
  (⟨0, [BitVec.ofNat 8 l.length, 0, 0, 0, 0, 0, 0, 0] ++ l.flatMap fun n =>
    let d := tget {} s.twin.domLast n
    [BitVec.ofNat 8 n, BitVec.setWidth 8 (s.lane n).stPeer] ++ leBytes 2 (s.lane n).stDelay ++ [BitVec.ofNat 8 d.kind, BitVec.ofNat 8 d.vote, 0, 0] ++
      cfnBytes s.sch.last⟩, s)

def domStatusForm : Form := .fixed 0

/-- Per-lane delays, last tokens and outcomes (R326). -/
def execDomStatus (r : MbReq) (s : State) : Result := mailboxRow 0x0D11 domStatusForm domStatusBody r s

/-! ### Stitch lanes (R307, R326) -/

def laneMask (r : MbReq) : List Nat := ones 128 (r.fld 0 16)

def stcLaneSetBody (r : MbReq) (s : State) : Ans × State :=
  let l := laneMask r
  let new := l.filter fun n => (s.lane n).role = .off
  if l.any fun n => (s.lane n).role = .line || s.pnd.unusable.contains n then (.noResource, s)
  else
    let s := s.ungate (new.foldl (fun m n => m ||| laneIslands n) 0)
    (.ok, { s with lanes := new.foldl (fun t n => tmod {} t n (Lane.start .stitch 2 s.tick)) s.lanes }.modSch (Sch.streamsChanged new))

def stcLaneSetForm : Form := .fixed 16

/-- Set lanes to the Stitch role. -/
def execStcLaneSet (r : MbReq) (s : State) : Result := mailboxRow 0x0D20 stcLaneSetForm stcLaneSetBody r s

/-- An armed domain operation whose readiness is not yet fixed: from F-4 on a local change defers a member only through cause 0x7 (R149,
R158). -/
def State.domainOpen (s : State) : Bool := s.undecided && s.sch.armed.any fun a => a.domain && a.ready.isNone

def stcLaneReleaseBody (r : MbReq) (s : State) : Ans × State :=
  let l := laneMask r
  if l.any fun n => !s.stitch n || s.presentBank.names n || s.futureBank.names n then (.badState, s)
  else
    let dom := s.domainOpen && l.any s.domainLanes.contains
    let s := { s with lanes := l.foldl (fun t n => tmod {} t n Lane.toOff) s.lanes }.modSch (Sch.streamsChanged l)
    (.ok, if dom then s.deferArmed 5 else s)

def stcLaneReleaseForm : Form := .fixed 16

/-- Set stitch lanes to Off (R326); a change of the domain stitch lanes while armed defers (R315). -/
def execStcLaneRelease (r : MbReq) (s : State) : Result := mailboxRow 0x0D21 stcLaneReleaseForm stcLaneReleaseBody r s

/-! ### Mirror (R319, R321, R322) -/

/-- The four entries of a record of type 1: group and state. -/
def mirrorEntries (w : W64) : List (Nat × Nat) :=
  ([45, 30, 15, 0].map fun lo => fld w.toNat lo 15).filterMap fun e => if e = 0x7FFF then none else some (e / 4, e % 4)

/-- A mirror record that the leader sent in frame m reaches the follower in its frame m+1: selector states for ingress frame m+1, or a key
activation for the boundary that follows. -/
def execMirrorRecord (word : W64) (s : State) : Result :=
  done (if s.twin.role != .follower then s
    else match fld word.toNat 60 4 with
      | 1 => s.modTwin fun t => { t with
          mirrorIn := (mirrorEntries word).foldl (fun m e => tins m e.1 e.2) t.mirrorIn
          swept := (mirrorEntries word).foldl (fun b e => setBit b e.1 true) t.swept }
      | 2 => s.modKey fun k => { k with slots := tmod {} k.slots (fld word.toNat 46 14) fun x => { x with actPend := some (cfnAdd s.tick 1) } }
      | _ => s)

/-- Records of four entries each. -/
def mirrorRecords (l : List (Nat × Nat)) : List W64 :=
  (List.range ((l.length + 3) / 4)).map fun k =>
    let at_ (i : Nat) : Nat := match l[4 * k + i]? with
      | some e => e.1 % 8192 * 4 + e.2 % 4
      | none => 0x7FFF
    BitVec.ofNat 64 (2 ^ 60 + at_ 0 * 2 ^ 45 + at_ 1 * 2 ^ 30 + at_ 2 * 2 ^ 15 + at_ 3)

/-- The most key activations whose records one frame carries (R321). -/
def mirrorRoom : Nat := 124

/-- What the leader sends in the columns of the frame that ends: selector changes, its sweep and key activations. -/
def Twin.mirror (changes : List (Nat × Nat)) (stateOf : Nat → Nat) (t : Twin) : Twin :=
  if t.role != .leader then { t with mirrorOut := [], keyOut := [] }
  else
    let keys := t.keyOut.take mirrorRoom
    let room := 496 - changes.length - 4 * keys.length
    let n := min room (8192 - t.sweep)
    let sweep := (List.range n).map fun i => (t.sweep + i, stateOf (t.sweep + i))
    { t with
      mirrorOut := mirrorRecords (changes ++ sweep) ++ keys.map fun k => BitVec.ofNat 64 (2 * 2 ^ 60 + k % 16384 * 2 ^ 46)
      keyOut := t.keyOut.drop mirrorRoom, sweep := t.sweep + n }

/-- The part of the twin that every boundary moves on: heartbeats, TWIN_ACT_IN, leaving, IDENTICAL and DIVERGED
(R322-R324). At the boundary D at which heartbeat loss is detected, TWIN_HB_OUT no longer toggles (R323). -/
def State.twinBoundary (pin actIn : Bool) (s : State) : State :=
  let present := s.presentBank.id
  let s := s.modTwin fun t =>
    let got := t.hbTok || pin
    let miss := if got then 0 else t.hbMiss + 1
    let t := { t with hbMiss := miss }
    ({ t with
      hbTok := false, paths := BitVec.ofNat 2 (b2n t.hbTok + 2 * b2n pin), hbRun := if got then t.hbRun + 1 else 0
      hbOk := (got || (t.hbOk && miss < t.hbLoss)) && t.lossAt.isNone, peerAct := actIn, actLow := t.actLow && !actIn
      hbOut := if t.lossAt.isSome || t.lossDue || s.hbMuted then t.hbOut else !t.hbOut
      identical := t.identical || (t.paired && !t.diverged && t.peerId = some present &&
        (if t.role = TwinRole.leader then t.sweep = 8192 else t.swept = BitVec.allOnes 8192)) }).drive
  let lost := s.twin.paired && !s.twinLinked && (pin || s.twin.unlinked)
  let s := if lost && !s.twin.unlinked then (s.modTwin fun t => { t with diverged := true, identical := false }).twinFlag 1 else s
  let s := s.modTwin fun t => { t with unlinked := lost }
  if s.twin.leave then s.endJoin.setRole .solo 5 else s

end Sys2Proof.Machine
end

