-- ==== Sys2Proof/Machine/Engines.lean ====
section
/-!
DEFINITION. Overhead engines, endpoints, defects and second counters, harvest, and the EP and ENG commands (chapter 09).
-/

namespace Sys2Proof.Machine

/-! ### Stores -/

/-- The bank that the engines read: the one Present in the frame before (R137). -/
def State.bank1 (s : State) : Bank := s.sch.bank s.sch.present1

/-! ### Items (R209, R210) -/

/-- An item's context as a bank gives it under the indices in force. -/
def Item.ctx (i : Item) (b : Bank) (idx : Nat → Option Nat) : Option CtxCfg :=
  if i.kind = 2 || i.kind = 4 then some (b.ctx (b.sets idx) 0 i.obj) else if i.kind = 3 then some (b.ctx (b.sets idx) 1 i.obj) else none

def Item.inactive (i : Item) (b : Bank) (idx : Nat → Option Nat) : Bool := (i.ctx b idx).any fun c => !c.active

/-- OBJ_REMOTE: the stream of the item's context, where the schedule has the context, lies outside the island (R211). -/
def Item.remote (i : Item) (b : Bank) (idx : Nat → Option Nat) : Bool :=
  (tfind (if i.kind = 3 then b.eg else b.ing) i.obj).isSome && (i.ctx b idx).any fun c => c.stream.toNat / 32 != i.island

/-- The index in force one frame ago. -/
def State.idx1 (s : State) (g : Nat) : Option Nat := (s.grp g).map (·.cur1)

/-- An item as the counting of this frame takes it (R222, R225). -/
def State.itemInactive (s : State) (i : Item) : Bool := i.inactive s.presentBank s.idxNow
def State.itemRemote (s : State) (i : Item) : Bool := i.remote s.presentBank s.idxNow

/-- An item as its engine executes it in this frame, on the overhead of the frame before: it reads nothing of a remote context, and
declares nothing while its context is inactive (R137, R202, R206, R211). -/
def State.itemBlind (s : State) (i : Item) : Bool := s.itemInactive i || i.inactive s.bank1 s.idx1 || i.remote s.bank1 s.idx1

/-- The engine that executes a list in the frame: its own, or one that covers it; none in an island that missed a tense switch, which
takes up no list until its reset (R18, R214). -/
def State.executor (s : State) (e : Nat) : Option Nat :=
  if s.rst.stale.contains (16 + e / 256) then none
  else if (s.eng.run e).state = .inService then some e
  else (s.eng.engs.find? fun x => x.2.covering = some e).map Prod.fst

def State.served (s : State) (e : Nat) : Bool := (s.executor e).isSome

/-- The frame's self-check of the engine that executed a list passed, so that its writes are released (R213). -/
def State.released (s : State) (e : Nat) : Bool := (s.executor e).any fun u => !(s.eng.run u).faulted

/-! ### Defects (R220, R223, R235) -/

def defAIS : Nat := 23
def defLCK : Nat := 22
def defOCI : Nat := 21
def defTIM : Nat := 25
def defDEG : Nat := 26
def defBDI : Nat := 24
def defLTC : Nat := 20

/-- The slice that carries a stream carries line data (R71). -/
def State.streamLive (s : State) (st : Nat) : Bool :=
  match s.streamSlice st with
  | some (g, i) => (s.grp g).any fun r => r.carrying.getLsbD i
  | none => false

/-- AUTH_ACTION of a context's active decrypt binding (R176). -/
def State.authAction (s : State) (t : Nat) : Nat := match tfind s.presentBank.ckey t with
  | some b => if b.active then b.auth.toNat else 0
  | none => 0

/-- The causes of server SF of an ingress context, but the inactive context (R235), as a mask: no line data, failed
quadrant, dMSIM, dFCMOVF, dLOFLOM, fail-closed, dUNTRUST. -/
def State.serverCauses (s : State) (t : Nat) : Nat :=
  let c := s.ingCtx t
  let x := tget {} s.dp.ing t
  b2n (!s.streamLive c.stream.toNat) + 2 * b2n (s.glb.quadDown.getLsbD (c.stream.toNat / 32)) + 4 * b2n x.msim + 8 * b2n x.fcmovf +
  16 * b2n x.loflom + 32 * b2n x.lck + 64 * b2n (x.untrust.isSome && s.authAction t = 2)

/-- The defects that other blocks report on an ingress context (R220): UNTRUST 14, LOFLOM 15, MSIM 17, FCMOVF 13. -/
def IngRun.defects (x : IngRun) : W32 :=
  BitVec.ofNat 32 (b2n x.fcmovf * 2 ^ 13 + b2n x.untrust.isSome * 2 ^ 14 + b2n x.loflom * 2 ^ 15 + b2n x.msim * 2 ^ 17)

/-- A defect word raises signal fail for its endpoint (R234): dAIS, dLCK, dOCI, dLTC, or dTIM with TIM_MODE not 0. -/
def sfDefects (d : W32) (m : Desc) : Bool :=
  d.getLsbD defAIS || d.getLsbD defLCK || d.getLsbD defOCI || d.getLsbD defLTC || (d.getLsbD defTIM && m.timMode != 0)

/-- aTSF of an endpoint: the signal fail of its own level, of the lane or group below it, of its slice, or of its ingress context but
for dUNTRUST, on which only R235 acts (R246). -/
def State.atsf (s : State) (i : Item) : Bool :=
  let d := (s.eng.ep i.ep).defects
  sfDefects d (s.eng.desc i.ep) || d.getLsbD 10 || d.getLsbD 11 || d.getLsbD 12 || (i.kind = 1 && !s.streamLive (32 * i.island + i.obj)) ||
  i.ingress.any fun t => s.serverCauses t % 64 != 0

/-- The defects that a function finds in the overhead it reads (R220). -/
def Item.found (i : Item) : W32 :=
  if i.func = 0x10 || i.func = 0x11 then 0x010C_0000
  else if i.func = 0x12 || i.func = 0x20 || i.func = 0x21 then
    0x01E0_0000 ||| (if 1 ≤ i.level then 0x001C_0000 else 0) ||| (if i.func = 0x20 && i.ingress.isSome then 0x0001_0000 else 0)
  else 0

/-- dTIM: the accepted trail trace differs from the expected one in the identifiers that TIM_MODE compares. G.709, which the spec
names, puts the SAPI in bytes 0 to 15 of the TTI and the DAPI in bytes 16 to 31 (PRESUMED, log entry 32). -/
def Desc.tim (m : Desc) (tti : List Byte) : Bool :=
  let off (k : Nat) : Bool := slice (padTo 32 tti) k 16 != slice (padTo 32 m.ttiExp) k 16
  !tti.isEmpty && ((m.timMode.getLsbD 0 && off 0) || (m.timMode.getLsbD 1 && off 16))

/-- The defects that an item's object reports, as captured in the frame before (R206, R220): of a lane; of the lanes of the group that a
slice belongs to; and of an ingress context, to ODU_PM. -/
def State.reported (s : State) (i : Item) : W32 :=
  let n := 32 * i.island + i.obj
  if i.func = 1 then (s.lane n).seen
  else if i.func = 0x10 || i.func = 0x11 then
    match s.streamSlice n with
    | some (g, _) => match s.grp g with
      | some r => ((s.members g r).filter fun m => m.2.expected).foldl (fun d m => d ||| (m.2.seen &&& 0x1800)) 0
      | none => 0
    | none => 0
  else if i.func = 0x20 then (i.ingress.map fun t => (tget {} s.dp.ing t).seen).getD 0
  else 0

/-- The defects an item declares in a frame, `x` being its endpoint with the trail trace and dDEG of the frame (R211, R220). -/
def State.itemDefects (s : State) (i : Item) (met : W32) (x : EpRun) : W32 :=
  let m := s.eng.desc i.ep
  if s.itemBlind i || (i.monitor && 1 ≤ i.level && m.tcmMode = 1) then 0
  else
    let d := (met &&& i.found) ||| s.reported i
    if i.path then setBit (setBit d defDEG (x.deg && m.degMode != 0)) defTIM (m.tim x.tti) else d

/-- What an APS endpoint counts of a frame: received changes, mismatch, transmitted changes, selector switches (R222). -/
structure ApsCounts where
  rx       : Nat := 0
  bad      : Bool := false
  tx       : Bool := false
  switches : Nat := 0
  deriving DecidableEq, Repr

/-- The counts of a frame for an endpoint (R222, R223). A remote item reads no overhead (R211). The commands that show a lane's events
count those themselves. -/
def State.countEp (s : State) (i : Item) (ev : Option EpEvents) (aps : ApsCounts) (x : EpRun) : EpRun :=
  let served := s.served (i.ep / 256)
  let c (k : Nat) : Nat := (ev.bind (·.counts[k]?)).getD 0
  let sf := s.atsf i
  let gaps := b2n (s.itemInactive i) * 4 + b2n (!served) * 2 + b2n (s.itemRemote i)
  let status := b2n served * 2 ^ 31 + b2n (gaps != 0) * 2 ^ 30 + gaps * 2 ^ 27 + (x.defects &&& 0x07FF_FC00).toNat
  let t := orIn x.cnt 7 status
  if s.itemInactive i || s.itemRemote i then { x with cnt := t }
  else
    let l : List (Nat × Nat) :=
      if i.func = 1 then [(6, b2n ((s.lane (32 * i.island + i.obj)).state != .locked))]
      else if i.func = 0x30 then [(0, aps.rx), (1, b2n aps.bad), (2, b2n aps.tx), (3, aps.switches)]
      else if i.path then [(0, c 0), (1, c 1), (2, b2n sf), (3, b2n (x.defects.getLsbD defBDI)), (4, c 4), (5, c 5)]
      else []
    { x with cnt := l.foldl (fun t k => bump t k.1 k.2) t, tsf := x.tsf || sf }

/-- The results of a served item are released: the accepted trail trace, dDEG of the second that ended, defects and BDI (R206, R213,
R221, R246). -/
def State.releaseEp (s : State) (i : Item) (ev : Option EpEvents) (x : EpRun) : EpRun :=
  let y := { x with
    tti := if i.remote s.bank1 s.idx1 || !i.path then x.tti else (ev.bind (·.tti)).getD x.tti, deg := x.degNext.getD x.deg, degNext := none }
  let d := s.itemDefects i ((ev.map (·.defects)).getD x.defects) y
  { y with
    defects := d, bdi := !i.monitor && (s.eng.desc i.ep).bdiBei = 1 && s.atsf i
    cnt := if i.path && !s.itemInactive i then bump x.cnt 6 (popc 32 (x.defects ^^^ d).toNat) else x.cnt }

/-- Everything endpoints do in the frame that ends. -/
def State.endpointFrame (evs : List EpEvents) (aps : Nat → ApsCounts) (s : State) : State :=
  let ev (ep : Nat) : Option EpEvents := evs.find? (·.ep = ep)
  let e1 := s.presentBank.items.foldl (fun e i => Eng.modEp i.ep (s.countEp i (ev i.ep) (aps i.ep)) e) s.eng
  let e2 := s.eng.orphans.foldl (fun e p => Eng.modEp p (fun x => { x with cnt := orIn x.cnt 7 (2 ^ 30 + 2 ^ 28) }) e) e1
  let live := s.bank1.items.filter fun i => s.released (i.ep / 256)
  let e3 := live.foldl (fun e i => Eng.modEp i.ep (s.releaseEp i (ev i.ep)) e) e2
  let un := (s.bank1.epwl.filter fun b => !b.2.items.isEmpty && !s.served b.1).map (·.1 / 256)
  un.eraseDups.foldl (fun s q => s.count (548 + q) 1) { s with eng := e3 }

/-! ### Fault events and cover (R212-R217) -/

/-- An engine can take a list: it serves, covers nobody and did not fault (R215). -/
def Eng.available (e : Eng) (u : Nat) : Bool := (e.run u).state = .inService && (e.run u).covering.isNone && !(e.run u).faulted

/-- A fault event of an engine; `cause` is the finding by its place in the list of R212. -/
def State.engineFault (e cause : Nat) (s : State) : State :=
  let r := s.eng.run e
  if 1024 ≤ e || cause = 0 || 5 < cause || !s.glb.released || r.faulted || (r.state != .inService && r.state != .selfTest) then s
  else
    let s := (s.modEng (Eng.modRun e fun r => { r with
      events := r.events + 1, window := some (r.window.getD s.tick), cause := cause, faulted := r.state = .inService, testBad := r.state = .selfTest })).count
      (544 + e / 256) 1
    if r.state = .inService then s.count (552 + e / 256) 1 else s.unitRecord 2 1 e 4 (r.events + 1) 0xFFFF

/-- An engine's self-check fails; an uncorrectable error of its scratchpad counts in that memory (R212, R373). -/
def execEngineFaultEvent (e cause : Nat) (s : State) : Result :=
  done ((if cause = 4 && e < 1024 then s.modMemRun (6 + e / 256) (MemRun.note false) else s).engineFault e cause)

/-- Give a list to its understudy, or leave it unserved (R214, R215). -/
def State.coverList (e : Nat) (s : State) : State × Option Nat :=
  match tfind s.bank1.epwl e with
  | none => (s, none)
  | some b =>
    if b.items.isEmpty then (s, none)
    else if b.understudy != e && s.eng.available b.understudy then
      (s.modEng (Eng.modRun b.understudy fun r => { r with covering := some e }), some b.understudy)
    else (s.event 0x4601 0 (leBytes 2 e), none)

/-- The lists of a bank name work for an engine. -/
def Bank.hasWork (b : Bank) (e : Nat) : Bool := (tfind b.epwl e).any fun x => !x.items.isEmpty

/-- An engine's fault event of the last frame takes effect at the boundary that starts frame `now` (R214-R216). -/
def State.engineDown (now : Cfn) (e : Nat) (s : State) : State :=
  let r := s.eng.run e
  let q := s.coverList e
  let st : EngState := if 3 ≤ r.events then .retired else if !s.bank1.hasWork e || q.2.isSome then .covered else .uncovered
  let s := (q.1.modEng (Eng.modRun e fun r => { r with state := st, since := now, covering := none, faulted := false })).unitRecord
    2 (if st = .retired then 2 else 1) e 4 r.events (q.2.getD 0xFFFF)
  let s := match q.2 with
    | some u => s.unitRecord 2 3 e 4 r.events u
    | none => s
  match r.covering with
  | some o => (s.modEng (Eng.modRun o fun x => if x.state = .covered then { x with state := .uncovered } else x)).event 0x4601 0 (leBytes 2 o)
  | none => s

/-- A list returns to its engine. -/
def Eng.returnList (e : Nat) (x : Eng) : Eng := { x with engs := tmap (fun _ r => if r.covering = some e then { r with covering := none } else r) x.engs }

/-- Some engine covers this one. -/
def Eng.covered (x : Eng) (e : Nat) : Bool := x.engs.any fun u => u.2.covering = some e

/-- A cover goes on under a bank whose block of the covered engine names the same understudy. -/
def Bank.keepsCover (b : Bank) (u : Nat) (r : EngRun) : EngRun :=
  match r.covering with
  | some e => if b.hasWork e && (tfind b.epwl e).any (fun x => x.understudy = u) then r else { r with covering := none }
  | none => r

/-- The incoming lists of engines out of service go to the understudies that the incoming blocks name (R217, log entry 32). A
list that was unserved before is not reported again. -/
def State.recover (old : Bank) (s : State) : State :=
  let out := (s.eng.engs.filter fun e => e.2.state != .inService).map Prod.fst
  let before := s.eng
  out.foldl (fun s e =>
      if !s.bank1.hasWork e || s.eng.covered e then s
      else
        let q := s.coverList e
        if q.2.isNone && old.hasWork e && !before.covered e then s else q.1)
    (s.modEng fun x => { x with engs := tmap (fun u r => s.bank1.keepsCover u r) x.engs })

/-- The second in progress is SUSPECT for the endpoint. -/
def EpRun.suspect (x : EpRun) : EpRun := { x with cnt := orIn x.cnt 7 (2 ^ 30) }

/-- Endpoints that an outgoing schedule served and the incoming one drops lose descriptor and state; those that enter start with the
defaults of R218, but for a descriptor that an EP_CONFIG left for them, and both are SUSPECT (R218, R219, R223). -/
def State.dropEndpoints (old : Bank) (s : State) : State :=
  let was := old.items.map (·.ep)
  let is := s.bank1.items.map (·.ep)
  let gone := was.filter fun e => !is.contains e
  let come := is.filter fun e => !was.contains e
  s.modEng fun e =>
    let fresh := come.filter fun k => (tfind e.fill (k / 65536)).isSome && (tfind e.descs k).isNone
    let e := { e with
      descs := fresh.foldl (fun t k => tins t k {}) (e.descs.filter fun x => !gone.contains x.1), orphans := [], eps := tmap (fun k (x : EpRun) =>
        if gone.contains k then ({ latched := x.latched, cnt := tput 0 [] 7 (tget 0 x.cnt 7 ||| 0x4000_0000) } : EpRun) else x) e.eps }
    come.foldl (fun e k => Eng.modEp k EpRun.suspect e) e

/-- Everything engines and descriptors do at the boundary that starts frame `now`; `old` is the bank they read before. A descriptor that
changes at the boundary that starts a second makes that second SUSPECT (R225). -/
def State.enginesBoundary (now : Cfn) (old : Bank) (changed : Bool) (s : State) : State :=
  let s := if changed then s.dropEndpoints old else s
  let s := s.modEng fun e =>
    let mark (e : Eng) (ep : Nat) : Eng := if s.glb.secDue then e else e.modEp ep EpRun.suspect
    let e := e.pendDescs.foldl (fun e p => mark { e with descs := tins e.descs p.1 p.2 } p.1) e
    { e with
      suspectNext := if s.glb.secDue then tkeys e.pendDescs else [], pendDescs := []
      engs := tmap (fun _ (r : EngRun) => if r.readmit then { r with state := .selfTest, readmit := false, testBad := false, since := now } else r) e.engs }
  let s := if changed then s.recover old else s
  ((s.eng.engs.filter fun e => e.2.faulted).map Prod.fst).foldl (fun s e => s.engineDown now e) s

/-- A covered or uncovered engine restarts, at boundary k+2 (R216). -/
def execEngineRestart (e : Nat) (s : State) : Result :=
  let r := s.eng.run e
  done (if (r.state = .covered || r.state = .uncovered) && 1 ≤ since s.tick r.since then
      s.modEng (Eng.modRun e fun r => { r with state := .selfTest, since := s.tick, testBad := false })
    else s)

/-- The self-test ends after 64 frames (R216). -/
def execEngineSelfTestDone (e : Nat) (pass : Bool) (s : State) : Result :=
  let r := s.eng.run e
  let cover := ((s.eng.engs.find? fun x => x.2.covering = some e).map Prod.fst).getD 0xFFFF
  done (if r.state != .selfTest || since s.tick r.since < 64 then s
    else if pass && !r.testBad then
      (s.modEng fun x => (x.modRun e fun r => { r with state := .inService, testBad := false, since := s.tick }).returnList e).unitRecord 2 4 e 4 r.events cover
    else (s.modEng (Eng.modRun e fun r => { r with state := .retired, testBad := false, since := s.tick })).unitRecord 2 2 e 4 r.events cover)

/-- The 60 s window ends without a third event (R216). -/
def execEngineWindowEnd (e : Nat) (s : State) : Result :=
  done (s.modEng (Eng.modRun e fun r => match r.window with
    | some w => if 5859375 ≤ since s.tick w && r.events < 3 then { r with events := 0, window := none } else r
    | none => r))

/-! ### Seconds (R221-R226) -/

/-- dDEG of the second that ended, which takes effect with the next release of the endpoint (R221). -/
def EpRun.degrade (m : Desc) (x : EpRun) : EpRun :=
  if m.degMode = 0 then { x with badRun := 0, goodRun := 0, degNext := some false }
  else if x.tsf then x
  else
    let c0 := (tget 0 x.cnt 0).toNat
    let c5 := (tget 0 x.cnt 5).toNat
    let deg := x.degNext.getD x.deg
    let thr := if m.degMode = 2 then (m.degThr.toNat * c5 + 99) / 100 else m.degThr.toNat
    if thr ≤ c0 then
      { x with badRun := x.badRun + 1, goodRun := 0, degNext := some (deg || m.degM.toNat ≤ x.badRun + 1) }
    else { x with goodRun := x.goodRun + 1, badRun := 0, degNext := some (deg && x.goodRun + 1 < m.degM.toNat) }

/-- The banks of second registers swap (R224). -/
def EpRun.latch (x : EpRun) : EpRun := { x with latched := x.cnt, cnt := [], tsf := false }

def Eng.latchSecond (suspect : Bool) (e : Eng) : Eng :=
  let e' := { e with suspectAll := suspect, eps := (tmap (fun k (x : EpRun) => (x.degrade (e.desc k)).latch) e.eps), suspectNext := [] }
  e.suspectNext.foldl (fun e k => e.modEp k EpRun.suspect) e'

/-! ### Harvest (R228-R230) -/

def Harvest.islands (h : Harvest) : List Nat := ones 4 h.mask.toNat

/-- STRIDE (R230). -/
def Harvest.stride (h : Harvest) : Nat := (64 + 2097152 * h.islands.length + 4095) / 4096 * 4096

/-- The endpoints of an island with a word that is not zero in the window, among others: all of them where the second is SUSPECT for
every endpoint or the store is undefined. -/
def Eng.listed (e : Eng) (q : Nat) : List Nat :=
  if e.suspectAll || (tfind e.fill q).isSome then (List.range 65536).map (q * 65536 + ·)
  else (e.eps.map Prod.fst).filter fun k => k / 65536 = q

/-- The latched counters of the selected islands as words of the record, laid out as in the window (R228). -/
def Eng.harvestWords (e : Eng) : Tbl W32 :=
  (e.harvest.islands.zipIdx).flatMap fun q => (e.listed q.1).flatMap fun k =>
    ((List.range 8).map fun i => (q.2 * 524288 + k % 65536 * 8 + i, e.latched k i)).filter fun w => w.2 != 0

def harvestCrc (words : Tbl W32) (length : Nat) : Nat := crc32c ((List.range (length / 4)).flatMap fun i => leBytes 4 (tget 0 words i).toNat)

/-- The header but DONE (R228). -/
def Eng.harvestHeader (e : Eng) (words : Tbl W32) : List Byte :=
  let length := 2097152 * e.harvest.islands.length
  [0x53, 0x4C, 0x47, 0x48] ++ leBytes 4 e.harvest.seq.toNat ++ leBytes 4 e.latchSec.toNat ++ leBytes 4 e.latchInfo.toNat ++
  cfnBytes e.firstCfn ++ leBytes 8 e.schedId.toNat ++ [e.harvest.mask.setWidth 8, 0, 0, 0] ++ leBytes 4 length ++
  leBytes 4 (harvestCrc words length) ++ leBytes 16 0

/-- DMA-P starts a record at the boundary of the second frame of a second; the entry's old record gives way (R228). -/
def execHarvestStart (s : State) : Result :=
  let h := s.eng.harvest
  done (if !h.enable || h.running || !s.glb.bme || h.startAt != some s.tick then s
    else
      let addr := h.base.toNat + h.seq.toNat % h.entries * h.stride
      let w := s.eng.harvestWords
      (s.modEng fun e => { e with
        harvest := { h with running := true, startAt := none, recSeq := h.seq, renewed := false }
        records := (e.records.filter fun r => r.addr != addr) ++ [⟨addr, e.harvestHeader w, w, none⟩] }).modGlb fun g => { g with dmaPBusy := true })

/-- The record in progress is over: SEQ goes on, unless a new ring was configured under it, which starts at 0 (R228, R230). -/
def Harvest.over (h : Harvest) : Harvest :=
  { h with running := false, seq := if h.renewed then h.seq else h.recSeq + 1, renewed := false }

/-- The record in progress ends: DONE is written, and PF1's message is sent (R228, R360). -/
def State.endHarvest (doneWord : W32) (s : State) : State :=
  (s.modEng fun e => { e with
    harvest := e.harvest.over
    records := match e.records.getLast? with
      | some r => e.records.dropLast ++ [{ r with done := some doneWord }]
      | none => [] }).modGlb fun g => { g.sendPf1 with dmaPBusy := false }

/-- A record is complete. -/
def execHarvestDone (s : State) : Result :=
  done (if s.eng.harvest.running then s.endHarvest s.eng.harvest.recSeq else s)

/-- A record not finished by the next second boundary is truncated (R229). -/
def execHarvestTruncate (s : State) : Result :=
  done (if s.eng.harvest.running && (s.glb.secStart = s.tick || s.glb.secDue) then
      (s.endHarvest (s.eng.harvest.recSeq ||| 0x8000_0000)).count 556 1
    else s)

/-! ### Commands (R231) -/

/-- The COST of a request (R209), with the allotment of the context it names. -/
def State.placeCost (s : State) (func : Nat) (a : List Byte) : Nat :=
  let kind := leAt a 0 1
  let n := (tget {} (if kind = 3 then s.presentBank.eg else s.presentBank.ing) (leAt a 1 2)).n
  let mon := leAt a 6 1 = 1
  match func with
  | 0x0001 => 12
  | 0x0010 | 0x0011 => 64
  | 0x0012 => if mon then 32 else 48
  | 0x0020 | 0x0021 => (if mon then 8 else 16) + (n + 399) / 400
  | 0x0030 => 24
  | _ => 0

/-- What EP_PLACE has given so far: engine, understudy, endpoint, cost. -/
abbrev Placed := List (Nat × Nat × Nat × Nat)

/-- An engine's load with what has been placed on it. -/
def State.loadWith (s : State) (p : Placed) (e : Nat) : Nat :=
  ((tfind s.presentBank.epwl e).map (·.load)).getD 0 + ((p.filter (·.1 = e)).map (·.2.2.2)).sum

/-- The understudy that the answer gives an engine, or the Present schedule. -/
def State.namedBy (s : State) (p : Placed) (e : Nat) : Option Nat :=
  ((p.find? (·.1 = e)).map (·.2.1)).or ((tfind s.presentBank.epwl e).map (·.understudy))

/-- An engine can take `cost` more as the understudy of those that name it (0x77). -/
def State.headroom (s : State) (p : Placed) (e cost : Nat) : Bool :=
  s.loadWith p e + cost ≤ 9728 && ((s.presentBank.epwl.map Prod.fst) ++ p.map (·.1)).all fun f =>
    f = e || s.namedBy p f != some e || s.loadWith p e + cost + s.loadWith p f ≤ 9728

/-- The one understudy an engine gets: that of an earlier placement of the answer; else the one of the Present schedule, or another
engine of its island, that can take its load (R231, 0x77). -/
def State.understudyFor (s : State) (p : Placed) (e : Nat) (cost : Nat) : Option Nat :=
  let fits (u : Nat) : Bool := u != e && (s.eng.run u).state != .retired && s.loadWith p u + s.loadWith p e + cost ≤ 9728
  match p.find? (·.1 = e) with
  | some x => if fits x.2.1 then some x.2.1 else none
  | none => (((tfind s.presentBank.epwl e).map (·.understudy)).toList ++ (List.range 256).map (e / 256 * 256 + ·)).find? fits

/-- The first free endpoint of an engine. -/
def State.freeEndpoint (s : State) (p : Placed) (e : Nat) : Option Nat :=
  let used := s.presentBank.items.map (·.ep) ++ p.map (·.2.2.1)
  ((List.range 256).map (e * 256 + ·)).find? fun x => !used.contains x

/-- The island an item must run in: the preferred one, that of the context's stream, or one the spec leaves open. -/
def State.placeIsland (s : State) (free pref : Nat) (a : List Byte) : Nat :=
  let kind := leAt a 0 1
  if pref != 0xFF then pref
  else if kind ≤ 1 then free % 4
  else (tget {} (if kind = 3 then s.presentBank.eg else s.presentBank.ing) (leAt a 1 2)).stream.toNat / 32

/-- Place one request: the search over an island's engines starts at an engine that the spec leaves open. -/
def State.placeOne (s : State) (free : Nat) (p : Placed) (r : List Byte) : Option (Placed × List Byte) :=
  let func := leAt r 0 2
  let a := slice r 4 8
  let cost := s.placeCost func a
  let q := s.placeIsland free (leAt r 2 1) a
  ((List.range 256).map fun k => q * 256 + (free + k) % 256).findSome? fun e =>
    if (s.eng.run e).state = .retired || !s.headroom p e cost then none
    else match s.understudyFor p e cost, s.freeEndpoint p e with
      | some u, some ep => some (p ++ [(e, u, ep, cost)], leBytes 2 e ++ leBytes 2 u ++ leBytes 4 ep ++ leBytes 2 cost ++ leBytes 6 0)
      | _, _ => none

/-- The requests of an EP_PLACE. -/
def placeRequests (r : MbReq) : List (List Byte) := (List.range (r.u16 0)).map fun i => r.bytes (8 + 16 * i) 16

/-- Place the requests one after another: what was given, and the answer's bytes; none where a request finds no place. -/
def State.placeAll (s : State) (free : Nat) (reqs : List (List Byte)) : Option (Placed × List Byte) :=
  reqs.foldl (fun (a : Option (Placed × List Byte)) q => a.bind fun x =>
    (s.placeOne free x.1 q).map fun y => (y.1, x.2 ++ y.2)) (some ([], []))

def epPlaceBody (r : MbReq) (s : State) : Ans × State :=
  let d := s.draw 32
  match s.placeAll d.1.toNat (placeRequests r) with
  | some x => (⟨0, x.2⟩, d.2)
  | none => (.noResource, d.2)

def placeFields (r : MbReq) : Bool :=
  r.zero [(2, 6)] && (List.range (r.u16 0)).all fun i =>
    let q := r.bytes (8 + 16 * i) 16
    itemOk (leAt q 0 2) (slice q 4 8) && (leAt q 2 1 < 4 || leAt q 2 1 = 0xFF) && leAt q 3 1 = 0 && leAt q 12 4 = 0

def epPlaceForm : Form := { count := fun r => 1 ≤ r.u16 0 && r.u16 0 ≤ 254, len := fun r => 8 + 16 * r.u16 0, fields := placeFields }

/-- Ask for engines and endpoints (R231); nothing changes. -/
def execEpPlace (r : MbReq) (s : State) : Result := mailboxRow 0x0601 epPlaceForm epPlaceBody r s

/-- A descriptor with the named fields of an EP_CONFIG. -/
def Desc.set (r : MbReq) (d : Desc) : Desc :=
  let on (b : Nat) : Bool := bitOf (r.u32 4) b
  { ttiTx := if on 0 then r.bytes 8 64 else d.ttiTx, ttiExp := if on 1 then r.bytes 72 32 else d.ttiExp
    timMode := if on 2 then BitVec.ofNat 8 (r.u8 104) else d.timMode, degMode := if on 3 then BitVec.ofNat 8 (r.u8 105) else d.degMode
    degThr := if on 4 then BitVec.ofNat 32 (r.u32 108) else d.degThr, degM := if on 5 then BitVec.ofNat 8 (r.u8 106) else d.degM
    tcmMode := if on 6 then BitVec.ofNat 8 (r.u8 107) else d.tcmMode, bdiBei := if on 7 then BitVec.ofNat 8 (r.u8 112) else d.bdiBei }

def Eng.nextDesc (e : Eng) (ep : Nat) : Desc := (tfind e.pendDescs ep).getD (e.desc ep)

def epConfigFields (r : MbReq) : Bool :=
  let ok (b : Nat) (c : Bool) : Bool := !bitOf (r.u32 4) b || c
  r.u32 0 < 262144 && r.u32 4 < 256 && ok 2 (r.u8 104 < 4) && ok 3 (r.u8 105 < 3) && ok 5 (2 ≤ r.u8 106 && r.u8 106 ≤ 10) && ok 6 (r.u8 107 < 2) &&
  ok 7 (r.u8 112 < 2)

/-- DEGTHR fits the mode that results, where either is named. -/
def thresholdOk (r : MbReq) (s : State) : Bool :=
  let d := (s.eng.nextDesc (r.u32 0)).set r
  !(bitOf (r.u32 4) 3 || bitOf (r.u32 4) 4) || (1 ≤ d.degThr.toNat && d.degThr.toNat ≤ (if d.degMode = 2 then 100 else 16777215))

def epConfigBody (r : MbReq) (s : State) : Ans × State :=
  (.ok, s.modEng fun e => { e with pendDescs := tins e.pendDescs (r.u32 0) ((e.nextDesc (r.u32 0)).set r) })

def epConfigForm : Form := { len := fun _ => 113, fields := epConfigFields, object := thresholdOk }

/-- Set descriptor fields from the next boundary (R218, R219). -/
def execEpConfig (r : MbReq) (s : State) : Result := mailboxRow 0x0602 epConfigForm epConfigBody r s

def epStatusBody (r : MbReq) (s : State) : Ans × State :=
  let ep := r.u32 0
  let d := s.eng.desc ep
  let x := s.eng.ep ep
  (⟨0, padTo 64 d.ttiTx ++ padTo 32 d.ttiExp ++ [d.timMode, d.degMode, d.degM, d.tcmMode] ++ leBytes 4 d.degThr.toNat ++ [d.bdiBei, 0, 0, 0] ++
    leBytes 4 x.defects.toNat ++ padTo 64 x.tti ++ ((List.range 8).flatMap fun i => leBytes 4 (s.eng.latched ep i).toNat) ++
    ((List.range 8).flatMap fun i => leBytes 4 (tget 0 x.cnt i).toNat) ++ leBytes 4 s.eng.latchSec.toNat⟩, s)

def epStatusForm : Form := .fixed 4 fun r => r.u32 0 < 262144

/-- Descriptor, defects, trail trace and counters of an endpoint (R231). -/
def execEpStatus (r : MbReq) (s : State) : Result := mailboxRow 0x0603 epStatusForm epStatusBody r s

def epHarvestCfgBody (r : MbReq) (s : State) : Ans × State :=
  if !s.glb.bme then (.denied, s)
  else (.ok, s.modEng fun e => { e with harvest := { e.harvest with
    pend := some (r.u8 10 = 1, BitVec.ofNat 64 (r.u64 0), r.u8 8, BitVec.ofNat 4 (r.u8 9)) } })

def epHarvestCfgForm : Form := .fixed 11 fun r => r.u64 0 % 4096 = 0 && 2 ≤ r.u8 8 && r.u8 8 ≤ 64 && r.u8 9 < 16 && r.u8 10 < 2

/-- Enable or disable harvest from the next second boundary (R230, R231). -/
def execEpHarvestCfg (r : MbReq) (s : State) : Result := mailboxRow 0x0604 epHarvestCfgForm epHarvestCfgBody r s

def EngState.code : EngState → Nat
  | .inService => 0 | .covered => 1 | .uncovered => 2 | .selfTest => 3 | .retired => 4

def State.engRecord (s : State) (e : Nat) : List Byte :=
  let r := s.eng.run e
  let b := tfind s.presentBank.epwl e
  padTo 16 ([BitVec.ofNat 8 r.state.code, BitVec.ofNat 8 r.events] ++ leBytes 2 ((b.map (·.understudy)).getD 0xFFFF) ++
    leBytes 2 (r.covering.getD 0xFFFF) ++ [0, 0] ++ leBytes 4 ((b.map (·.load)).getD 0) ++ [BitVec.ofNat 8 r.cause])

def engStatusBody (r : MbReq) (s : State) : Ans × State :=
  (⟨0, (List.range (r.u16 2)).flatMap fun i => s.engRecord (r.u16 0 + i)⟩, s)

def engStatusForm : Form :=
  { count := fun r => 1 ≤ r.u16 2 && r.u16 2 ≤ 254, len := fun _ => 4, fields := fun r => r.u16 0 + r.u16 2 ≤ 1024 }

/-- Engine states (R231). -/
def execEngStatus (r : MbReq) (s : State) : Result := mailboxRow 0x0605 engStatusForm engStatusBody r s

def engReadmitBody (r : MbReq) (s : State) : Ans × State :=
  let e := r.u16 0
  if (s.eng.run e).state != .retired || (s.eng.run e).readmit then (.badState, s)
  else (.ok, (s.modEng (Eng.modRun e fun r => { r with readmit := true, events := 0, window := none })).unitRecord 2 5 e 8 0 0xFFFF)

def engReadmitForm : Form := .fixed 2 fun r => r.u16 0 < 1024

/-- Start the self-test of a retired engine (R216). -/
def execEngReadmit (r : MbReq) (s : State) : Result := mailboxRow 0x0606 engReadmitForm engReadmitBody r s

end Sys2Proof.Machine
end

