-- ==== Sys2Proof/Machine/Protection.lean ====
section
/-!
DEFINITION. Protection groups: leg conditions, hold-off, requests, the selector, APS, and the PG commands (chapter 10).
-/

namespace Sys2Proof.Machine

def State.pg (s : State) (n : Nat) : Option Pg := (tfind s.presentBank.pgs n).bind fun p => if p.active then some p else none
def State.pgRun (s : State) (n : Nat) : PgRun := (tfind s.prot n).getD {}
def State.modPg (n : Nat) (f : PgRun → PgRun) (s : State) : State := { s with prot := tupd s.prot n f }

/-! ### Leg conditions (R234, R235) -/

/-- What a leg's conditions are in this frame: SF through hold-off, SF of an inactive context, SD, and all causes as a mask:
0-6 the server causes, 7 inactive context, 8 the endpoint's SF, 9 dDEG, 10 dUNTRUST. -/
structure Leg where
  sf     : Bool
  inact  : Bool
  sd     : Bool
  causes : Nat
  deriving DecidableEq, Repr

/-- The context is inactive under the indices distributed for the next boundary (R191, R237). -/
def State.inactiveNext (s : State) (t : Nat) : Bool :=
  let idx (g : Nat) : Option Nat := (s.grp g).map fun r => (r.next.map (·.idx)).getD r.cur
  !(s.presentBank.ctx (s.presentBank.sets idx) 0 t).active

def Pg.sncI (p : Pg) : Bool := p.type = 3 || p.type = 4

def State.leg (s : State) (p : Pg) (t ep : Nat) : Leg :=
  let srv := s.serverCauses t
  let d := (s.eng.ep ep).defects
  let own := !p.sncI && sfDefects d (s.eng.desc ep)
  let inact := s.inactiveNext t
  let deg := p.sd && d.getLsbD defDEG
  let unt := (tget {} s.dp.ing t).untrust.isSome && s.authAction t = 1
  ⟨srv != 0 || own, inact, deg || unt, srv + 128 * b2n inact + 256 * b2n own + 512 * b2n deg + 1024 * b2n unt⟩

/-! ### Hold-off (R236) -/

/-- H in core frames. -/
def Pg.hold (p : Pg) : Nat := (p.holdOff * 78125 + 7) / 8

/-- A condition through hold-off: whether it is raised, and the start of its timer. -/
def holdOff (h : Nat) (tick : Cfn) (cond raised : Bool) (timer : Option Cfn) : Bool × Option Cfn :=
  if h = 0 then (cond, none)
  else if cond && !raised && timer.isNone then (false, some tick)
  else (cond && raised, timer)

def PgRun.conditions (h : Nat) (tick : Cfn) (w p : Leg) (r : PgRun) : PgRun :=
  let a := holdOff h tick w.sf r.wSf r.tWSf
  let b := holdOff h tick w.sd r.wSd r.tWSd
  let c := holdOff h tick p.sf r.pSf r.tPSf
  let d := holdOff h tick p.sd r.pSd r.tPSd
  { r with wCause := w.causes, pCause := p.causes, wSf := a.1, tWSf := a.2, wSd := b.1, tWSd := b.2, pSf := c.1, tPSf := c.2
           pSd := d.1, tPSd := d.2 }

/-- A hold-off ends: a condition still in force is raised. -/
def execHoldOffExpire (pg : Nat) (protect sd : Bool) (s : State) : Result :=
  done (match s.pg pg with
    | none => s
    | some p =>
      let l := if protect then s.leg p p.pT p.pEp else s.leg p p.wT p.wEp
      s.modPg pg fun r =>
        let ended (t : Option Cfn) : Bool := t.any fun d => p.hold ≤ since s.tick d
        match protect, sd with
        | false, false => if ended r.tWSf then { r with wSf := l.sf, tWSf := none } else r
        | false, true => if ended r.tWSd then { r with wSd := l.sd, tWSd := none } else r
        | true, false => if ended r.tPSf then { r with pSf := l.sf, tPSf := none } else r
        | true, true => if ended r.tPSd then { r with pSd := l.sd, tPSd := none } else r)

/-! ### The top request and the selector (R238-R242) -/

def opLO : Nat := 0
def opFS : Nat := 1
def opMSP : Nat := 2
def opMSW : Nat := 3
def opEXER : Nat := 4

/-- The own top request and the selector state it asks for (R238). -/
def PgRun.own (p : Pg) (sfW sfP : Bool) (r : PgRun) : Nat × Nat :=
  let op (b : Nat) : Bool := r.ops.getLsbD b
  if op opLO then (2, 0)
  else if sfP then (3, 0)
  else if op opFS then (4, 1)
  else if sfW then (5, 1)
  else if r.wSd || r.pSd then (6, if r.wSd && r.pSd then r.state else if r.wSd then 1 else 0)
  else if op opMSP then (7, 1)
  else if op opMSW then (7, 0)
  else if r.wtr.isSome then (8, 1)
  else if op opEXER then (9, r.state)
  else if !p.revertive && r.state = 1 then (11, 1)
  else (12, 0)

/-- The selector state that the table of R238 gives the far end's request. -/
def farState (state : Nat) (q : Nat × Bool) : Nat :=
  match q.1 with
  | 4 | 5 | 8 | 11 => 1
  | 6 | 7 => b2n q.2
  | 9 | 10 => state
  | _ => 0

/-- The top request and the selector state it asks for. The far end's accepted request takes part by its priority, and while a failure of
protocol is declared as G.873.1 specifies (R238, R244). -/
def PgRun.request (p : Pg) (sfW sfP : Bool) (r : PgRun) : Nat × Nat :=
  let own := r.own p sfW sfP
  let rx := Config.apsRequest r.rxAps
  let far := (rx.1, farState r.state rx)
  if !p.aps then own
  else if r.fop != 0 then
    let q := Config.apsFailure r.fop own far
    (q.1, if q.2 < 2 then q.2 else r.state)
  else if 2 ≤ far.1 && far.1 < own.1 then far else own

/-- The wait-to-restore timer: it starts when the conditions that hold the state at protect have cleared, and a returning one
stops it (R240). -/
def PgRun.restore (p : Pg) (tick : Cfn) (sfW : Bool) (r : PgRun) : PgRun :=
  if sfW || r.wSd then { r with wtr := none }
  else if r.byCond then { r with byCond := false, wtr := if p.revertive && r.state = 1 && p.wtr != 0 then some tick else none }
  else r

/-- The APS bytes a group sends: what G.873.1 makes of the own and the far end's request. For a 1:1 type the Bridged signal equals the received Requested signal (R245), which G.873.1 puts in
the third and the second byte (PRESUMED, log entry 29). -/
def PgRun.aps (p : Pg) (own top state : Nat) (r : PgRun) : W32 :=
  let b := Config.apsBytes own top state p.type p.revertive
  if !p.aps then 0 else if p.type % 2 = 0 then (b &&& 0xFF00_FFFF) ||| ((r.rxAps <<< 8) &&& 0x00FF_0000) else b

/-- What the legs give an evaluation: their inactive contexts, whether both are in SF before hold-off (R239), and whether an engine
writes the group's APS field in this frame (R207). -/
structure EvalIn where
  inW    : Bool
  inP    : Bool
  both   : Bool
  writes : Bool

/-- The evaluation of a group in a frame whose conditions stand in the record: the requests, and the state of the next ingress
frame. -/
def PgRun.evaluate (p : Pg) (tick : Cfn) (i : EvalIn) (r : PgRun) : PgRun :=
  if r.freeze then r
  else
    let sfW := r.wSf || i.inW
    let sfP := r.pSf || i.inP
    let r := r.restore p tick sfW
    let q := r.request p sfW sfP
    let st := if r.state = 2 && i.both then 2 else if r.state = 2 && 2 ≤ q.2 then 0 else q.2
    let tx := if i.writes then r.aps p (r.own p sfW sfP).1 q.1 st else r.txAps
    { r with
      state := st, top := q.1
      ops := if q.1 < 7 then r.ops &&& 0x03 else if q.1 < 9 then r.ops &&& 0x0F else r.ops
      wtr := if q.1 < 8 then none else r.wtr
      byCond := st = 1 && ((q.1 = 5 && sfW) || (q.1 = 6 && r.wSd && (!r.pSd || r.byCond)))
      txAps := tx
      apsSince := if !p.aps then none else if tx != r.txAps then some tick else r.apsSince }

/-- The selector state changed: the last switch is kept (R249). -/
def PgRun.switched (cfn : Cfn) (old : Nat) (r : PgRun) : PgRun := { r with lastCfn := cfn, lastOld := old, lastNew := r.state, lastReq := r.top }

/-- The APS item of a group whose engine executes it and has its results released in this frame (R206, R207, R213, R215). -/
def State.apsItem (s : State) (p : Pg) : Option Item :=
  (s.bank1.itemOf p.apsEp).filter fun i => i.func = 0x30 && s.released (p.apsEp / 256)

def State.writesAps (s : State) (p : Pg) : Bool := !p.aps || (s.apsItem p).isSome

/-- The value accepted in the frame is released against the bytes `tx` that the frame sent: mismatches are declared or cleared, and an
answer ends the wait (R243, R244). -/
def PgRun.takeAps (tx : W32) (r : PgRun) : PgRun :=
  match r.rxNext with
  | none => r
  | some v =>
    let answers := Config.apsAnswers v tx
    { r with
      rxAps := v, rxNext := none
      fop := (Config.apsMismatch v tx).setWidth 3 ||| (if answers then 0 else r.fop &&& 4), apsSince := if answers then none else r.apsSince }

/-- dFOP-NR of a wait that timed out and still lasts. -/
def PgRun.takeNr (r : PgRun) : PgRun :=
  if r.nrDue && r.apsSince.isSome then { r with fop := setBit r.fop 2 true, apsSince := none, nrDue := false } else { r with nrDue := false }

/-- What the APS item makes of the frame (R211, R213, R215, R220): while no engine executes it with its results released, nothing is taken
over; an item whose context is remote or inactive accepts nothing and declares nothing. -/
def State.apsFrame (s : State) (p : Pg) (tx : W32) (r : PgRun) : PgRun :=
  match s.apsItem p with
  | none => { r with rxNext := none }
  | some i => if s.itemBlind i then { r with rxNext := none, nrDue := false, fop := 0 } else (r.takeAps tx).takeNr

/-- The evaluation of one group, with what it leaves for the APS endpoint. A follower takes the state from its partner
(R319): what a record of frame m brings in frame m+1 governs ingress frame m+1, which the crossbar handles in frame m+2. A leader makes
at most 496 changes in a frame, fewer where key activations take mirror records of it (R321). -/
def State.evalPg (s : State) (full : Bool) (n : Nat) (r : PgRun) : PgRun :=
  match s.pg n with
  | none => { r with prev := r.state }
  | some p =>
    let w := s.leg p p.wT p.wEp
    let q := s.leg p p.pT p.pEp
    let e := (r.conditions p.hold s.tick w q).evaluate p s.tick ⟨w.inact, q.inact, (w.sf || w.inact) && (q.sf || q.inact), s.writesAps p⟩
    let now := if s.twin.role = .follower then tget r.state s.twin.mirrorIn n else r.state
    let e := if s.twin.role = .follower || (s.twin.role = .leader && full) then { e with state := now } else e
    let e := s.apsFrame p r.txAps { e with prev := now }
    if e.state != r.state then e.switched s.cfn r.state else e

/-- All groups in rising number, with the changes made so far. -/
def State.evalAll (s : State) : Tbl PgRun → Nat → Tbl PgRun
  | [], _ => []
  | (n, r) :: l, k =>
    let e := s.evalPg (496 ≤ k + 4 * min mirrorRoom s.twin.keyOut.length) n r
    (n, e) :: s.evalAll l (k + b2n (e.state != r.state))

/-- A failure of protocol that was declared is posted; PG_FOP raises PROT too (R244, R359). -/
def State.postFop (pg : Nat) (old new : BitVec 3) (s : State) : State :=
  [0, 1, 2].foldl (fun s b => if new.getLsbD b && !old.getLsbD b then (s.event 0x4702 (b + 1) (leBytes 2 pg)).raise 21 else s) s

/-- Evaluate every group in the frame that ends (R237): the states of the next ingress frame, PG_SWITCHED, PG_FOP, PROT. -/
def State.protect (s : State) : State :=
  let new := s.evalAll s.prot 0
  let s' := { s with prot := new }
  (s.prot.zip new).foldl (fun s e =>
    let s := if e.1.2.state = e.2.2.state then s
      else ((s.event 0x4701 e.2.2.state (leBytes 2 e.1.1 ++ [BitVec.ofNat 8 e.1.2.state, BitVec.ofNat 8 e.2.2.top] ++
        cfnBytes (if s.twin.role = .follower then s.cfn else s.cfn + 1))).raise 21).count 599 1
    s.postFop e.1.1 e.1.2.fop e.2.2.fop) s'

/-- The switches that an evaluation made: group and new state. -/
def switches (old new : Tbl PgRun) : List (Nat × Nat) :=
  (old.zip new).filterMap fun e => if e.1.2.state = e.2.2.state then none else some (e.1.1, e.2.2.state)

/-- What an APS endpoint counts of an evaluation (R222, R244). -/
def State.apsCounts (s : State) (old new : Tbl PgRun) (ep : Nat) : ApsCounts :=
  let l := (old.zip new).filter fun e => (s.pg e.1.1).any fun p => p.aps && p.apsEp = ep
  { rx := (l.filter fun e => e.1.2.rxAps != e.2.2.rxAps).length, bad := l.any fun e => e.2.2.fop != 0
    tx := l.any fun e => e.1.2.txAps != e.2.2.txAps, switches := (l.filter fun e => e.1.2.state != e.2.2.state).length }

/-! ### Timers and APS (R240, R243, R244) -/

/-- Wait-to-restore ends: NR is raised. -/
def execWtrExpire (pg : Nat) (s : State) : Result :=
  done (match s.pg pg with
    | none => s
    | some p => s.modPg pg fun r => match r.wtr with
      | some t => if secFrames p.wtr ≤ since s.tick t then { r with wtr := none } else r
      | none => r)

/-- A received APS value has arrived three times: the APS item accepts it, if its results of this frame are released (R213, R243, R244). -/
def execApsAccept (pg : Nat) (v : W32) (s : State) : Result :=
  done (if (s.pg pg).any (·.aps) then s.modPg pg fun r => { r with rxNext := some v } else s)

/-- No response within 50 ms: the APS item declares dFOP-NR once its results are released. -/
def execFopNrTimeout (pg : Nat) (s : State) : Result :=
  done (if (s.pg pg).any (·.aps) && (s.pgRun pg).apsSince.any (fun t => 4883 ≤ since s.tick t) then
      s.modPg pg fun r => { r with nrDue := true }
    else s)

/-! ### Boundary and commit (R241, R242, R248) -/

/-- One operator request comes into force. -/
def PgRun.command (r : PgRun) (code : Nat) : PgRun :=
  match code with
  | 0 => { r with ops := 0 }
  | 1 => { r with ops := setBit r.ops opLO true }
  | 2 => { r with ops := setBit r.ops opFS true }
  | 3 => { r with ops := setBit (setBit r.ops opMSP true) opMSW false }
  | 4 => { r with ops := setBit (setBit r.ops opMSW true) opMSP false }
  | 5 => { r with ops := setBit r.ops opEXER true }
  | 6 => { r with freeze := true }
  | _ => { r with freeze := false }

def State.pgBoundary (s : State) : State :=
  { s with prot := tmap (fun _ (r : PgRun) => { (r.cmds.foldl PgRun.command r) with cmds := [] }) s.prot }

/-- A group's run-time state at a commit: carried over, reset in part where TYPE, REVERTIVE or APS changes, or new. -/
def PgRun.carry (old : Option Pg) (run : Option PgRun) (p : Pg) : PgRun :=
  match old, run with
  | some o, some r =>
    if o.type = p.type && o.revertive = p.revertive && o.aps = p.aps then r
    else { r with wtr := none, byCond := false, tWSf := none, tWSd := none, tPSf := none, tPSd := none
                  txAps := 0, rxAps := 0, rxNext := none, apsSince := none, nrDue := false, fop := 0 }
  | _, _ => { state := p.init, prev := p.init }

/-- The groups of the bank that has become Present; `old` is the outgoing one. Of a group that goes, the state of ingress frame F-1
stays for the crossbar, which handles that frame under the outgoing map (R120, R137). -/
def State.pgCommit (old : Bank) (s : State) : State :=
  let live (n : Nat) : Bool := (tfind s.presentBank.pgs n).any (·.active)
  { s with
    dp := { s.dp with leaving := (s.prot.filter fun e => !live e.1).map fun e => (e.1, e.2.prev) }
    prot := (s.presentBank.pgs.filter fun e => e.2.active).map fun e =>
      (e.1, PgRun.carry ((tfind old.pgs e.1).bind fun p => if p.active then some p else none) (tfind s.prot e.1) e.2) }

/-! ### Commands (R251) -/

/-- The priority of a command's request in R238. -/
def cmdPriority (code : Nat) : Nat :=
  match code with
  | 0 => 1 | 1 => 2 | 2 => 4 | 3 => 7 | 4 => 7 | 5 => 9 | _ => 1

/-- The top request in force: of the conditions, timers and requests that stand in this frame (R238, R241). -/
def State.topNow (s : State) (n : Nat) : Nat :=
  match s.pg n with
  | none => 12
  | some p =>
    let w := s.leg p p.wT p.wEp
    let q := s.leg p p.pT p.pEp
    let r := (s.pgRun n).conditions p.hold s.tick w q
    ((r.restore p s.tick (r.wSf || w.inact)).request p (r.wSf || w.inact) (r.pSf || q.inact)).1

def pgCommandBody (r : MbReq) (s : State) : Ans × State :=
  let n := r.u16 0
  let code := r.u8 2
  let x := s.pgRun n
  if s.glb.mode = .mateFollow then (.denied, s)
  else if x.freeze && code != 7 then (.badState, s)
  else if s.topNow n < cmdPriority code then (.badState, s)
  else if code = 5 && !(s.pg n).any (·.aps) then (.badState, s)
  else (.ok, s.modPg n fun x => { x with cmds := x.cmds ++ [code] })

def pgCommandForm : Form := { len := fun _ => 3, fields := fun r => r.u16 0 < 8192 && r.u8 2 < 8, object := fun r s => (s.pg (r.u16 0)).isSome }

/-- An operator request, from the next boundary (R241). -/
def execPgCommand (r : MbReq) (s : State) : Result := mailboxRow 0x0701 pgCommandForm pgCommandBody r s

/-- Frames left of a timer of `n` frames. -/
def framesLeft (tick : Cfn) (n : Nat) (t : Option Cfn) : Nat := match t with
  | some d => n - since tick d
  | none => 0

def pgStatusBody (r : MbReq) (s : State) : Ans × State :=
  let n := r.u16 0
  let x := s.pgRun n
  let h := ((s.pg n).map Pg.hold).getD 0
  let w := secFrames (((s.pg n).map (·.wtr)).getD 0)
  let left (a b : Option Cfn) : Nat := max (framesLeft s.tick h a) (framesLeft s.tick h b)
  (⟨0, [BitVec.ofNat 8 x.state, BitVec.ofNat 8 x.top, x.ops.setWidth 8, BitVec.ofNat 8 (b2n x.freeze)] ++
    leBytes 2 (Config.legCauses x.wCause).toNat ++ leBytes 2 (Config.legCauses x.pCause).toNat ++
    leBytes 4 (left x.tWSf x.tWSd) ++ leBytes 4 (left x.tPSf x.tPSd) ++ leBytes 4 (framesLeft s.tick w x.wtr) ++
    leBytes 4 x.txAps.toNat ++ leBytes 4 (x.rxNext.getD x.rxAps).toNat ++ [x.fop.setWidth 8, 0, 0, 0] ++ cfnBytes x.lastCfn ++
    [BitVec.ofNat 8 x.lastOld, BitVec.ofNat 8 x.lastNew, BitVec.ofNat 8 x.lastReq]⟩, s)

def pgStatusForm : Form := .fixed 2 fun r => r.u16 0 < 8192

/-- State, requests, conditions, timers and APS of a group. -/
def execPgStatus (r : MbReq) (s : State) : Result := mailboxRow 0x0702 pgStatusForm pgStatusBody r s

def pgListBody (r : MbReq) (s : State) : Ans × State :=
  let hits := (s.prot.filter fun e => r.u16 0 ≤ e.1 &&
    (e.2.state != r.u8 2 || e.2.top != r.u8 3 || b2n e.2.freeze != r.u8 4)).map Prod.fst
  let l := hits.take 1024
  (⟨0, leBytes 2 l.length ++ leBytes 2 ((hits[1024]?).getD 0xFFFF) ++ l.flatMap (leBytes 2)⟩, s)

def pgListForm : Form := .fixed 5 fun r => r.u16 0 < 8192 && r.u8 2 < 3 && 1 ≤ r.u8 3 && r.u8 3 ≤ 12 && r.u8 4 < 2

/-- The groups that differ from a filter. -/
def execPgList (r : MbReq) (s : State) : Result := mailboxRow 0x0703 pgListForm pgListBody r s

end Sys2Proof.Machine
end

