-- ==== Sys2Proof/Machine/Cipher.lean ====
section
/-!
DEFINITION. Tributary encryption: key slots, bindings, tag checks, pipelines and spares, the key desk, wipes and tamper
alarms, and the KEY commands (chapter 11).
-/

namespace Sys2Proof.Machine

/-! ### Slots and halves (R263-R268) -/

def Key.slot (k : Key) (n : Nat) : Slot := tget {} k.slots n
def Key.modSlot (n : Nat) (f : Slot → Slot) (k : Key) : Key := { k with slots := tmod {} k.slots n f }
def Slot.half (x : Slot) (i : Bool) : Half := if i then x.h1 else x.h0
def Slot.modHalf (i : Bool) (f : Half → Half) (x : Slot) : Slot := if i then { x with h1 := f x.h1 } else { x with h0 := f x.h0 }

/-- The half in a state, if one is. -/
def Slot.find (x : Slot) (st : HalfState) : Option Bool :=
  if x.h0.state = st then some false else if x.h1.state = st then some true else none

/-- The usage limit in block cipher invocations. -/
def Half.max (h : Half) : Nat := 2 ^ (if h.limit = 0 then 44 else h.limit)

/-- Another block fits under the limit. -/
def Half.room (h : Half) : Bool := h.usage + 7617 ≤ h.max

/-- The NEXT half becomes CURRENT, and the former half RETIRING. -/
def Slot.switchTo (i : Bool) (x : Slot) : Slot :=
  let x := x.modHalf (!i) fun h => if h.state = .current then { h with state := .retiring } else h
  { (x.modHalf i fun h => { h with state := .current }) with ki := i, inv := 0, due := false, actReady := false }

/-- The former half is erased. -/
def Slot.retire (x : Slot) : Slot :=
  { x with h0 := if x.h0.state = .retiring then {} else x.h0, h1 := if x.h1.state = .retiring then {} else x.h1 }

/-- A block is ciphered under a half: its usage rises, and at 7/8 of the limit REKEY_DUE is set and posted (R268). -/
def State.useHalf (slot : Nat) (i : Bool) (s : State) : State :=
  let h := (s.key.slot slot).half i
  let u := h.usage + 7617
  let due := 7 * h.max ≤ 8 * u && !(s.key.slot slot).due
  let s := s.modKey (Key.modSlot slot fun x => { (x.modHalf i fun h => { h with usage := u }) with due := x.due || due })
  if due then (s.modKey (Key.flag 3)).event 0x4802 (b2n i) (leBytes 2 slot) else s

/-! ### Bindings (R252, R258-R260) -/

/-- The active binding of a context: dir 0 ingress, 1 egress. -/
def Bank.bindOf (b : Bank) (dir t : Nat) : Option Bind :=
  (tfind b.ckey (dir * 16384 + t)).bind fun x => if x.active then some x else none

def Key.run (k : Key) (key : Nat) : BindRun := tget { slot := 16384 } k.binds key
def Key.modRun (key : Nat) (f : BindRun → BindRun) (k : Key) : Key := { k with binds := tupd k.binds key f }

/-- The egress context as the encrypt side sees it. -/
def State.encCtx (s : State) (t : Nat) : CtxCfg := s.bank2.ctx (s.bank2.sets s.idx2) 1 t

/-- The other active encrypt binding of the slot: the second context of a SHDW pair (R259). -/
def Bank.encPartner (b : Bank) (t slot : Nat) : Option Nat :=
  ((b.ckey.find? fun e => 16384 ≤ e.1 && e.1 != 16384 + t && e.2.active && e.2.slot = slot).map Prod.fst)

/-- The header of a block (R256). -/
def headerBytes (ki : Bool) (inv : BitVec 48) : List Byte :=
  let l := beBytes 6 inv.toNat ++ [if ki then 0x80 else 0]
  l ++ [BitVec.ofNat 8 (crc8 l)]

/-- What the header of the next block announces, as half, INV and whether it switches: a NEXT half whose activation is ready, with
INV 0, or the half in use with the slot's next INV (R257, R265). -/
def announce (x : Slot) (ki : Bool) : Bool × BitVec 48 × Bool :=
  if x.actReady && (x.find .next).isSome then (!ki, 0, true) else (ki, x.inv, false)

/-- A binding is fail-closed and starts again with a lead-in (R258, R269); the block it would have begun passes no payload. -/
def BindRun.stop (cause : Nat) (r : BindRun) : BindRun :=
  { r with failed := cause, leadIn := true, switch := 0, pipe := r.pipe.idle }

/-- A block is given to the pipeline. -/
def BindRun.give (b : CBlock) (r : BindRun) : BindRun := { r with pipe := { r.pipe with queue := r.pipe.queue ++ [b] } }

/-- The header announced for the next block, whose half waits as `switch` 2 where it is not the one in use. -/
def BindRun.announced (a : Bool × BitVec 48 × Bool) (switch : Nat) (r : BindRun) : BindRun :=
  { r with ki := a.1, inv := a.2.1, switch := if a.2.2 then 2 else switch, lastHdr := headerBytes a.1 a.2.1 }

/-- A lead-in block starts: all-zero payload and the header of the next block. Without a CURRENT half, or where the limit of that
half closed the binding, it stays fail-closed (R258, R268, R269). -/
def State.encLead (key slot : Nat) (s : State) : State :=
  let x := s.key.slot slot
  match x.find .current with
  | none => s.modKey (Key.modRun key fun r => r.stop (if r.failed = 0 then 2 else r.failed))
  | some i =>
    let a := announce x i
    if (s.key.run key).failed = 3 && !(x.half i).room && !a.2.2 then s.modKey (Key.modRun key (BindRun.stop 3))
    else s.modKey (Key.modRun key fun r =>
      { (r.announced a 0).give { kind := .leadIn, next := headerBytes a.1 a.2.1 } with leadIn := false, failed := 0 })

/-- A block is encrypted under the CURRENT half, which the announced NEXT half becomes first; an announced half that was erased
meanwhile leaves the half in use (R257, R265, R268; log entry 34). -/
def State.encBlock (key slot : Nat) (s : State) : State :=
  let r := s.key.run key
  let sw := r.switch = 2 && ((s.key.slot slot).half r.ki).state = .next
  let s := if sw then s.modKey (Key.modSlot slot (Slot.switchTo r.ki)) else s
  let x := s.key.slot slot
  match x.find .current with
  | none => s.modKey (Key.modRun key (BindRun.stop 2))
  | some i =>
    let h := x.half i
    if !h.room then s.modKey fun k => (k.flag 2).modRun key (BindRun.stop 3)
    else
      let s := (s.useHalf slot i).modKey (Key.modSlot slot fun x => { x with inv := x.inv + 1 })
      let a := announce (s.key.slot slot) i
      s.modKey (Key.modRun key fun r => (r.announced a (b2n sw)).give
        { kind := .cipher, ki := i, key := h.key, salt := h.salt, inv := x.inv, hdr := headerBytes i x.inv, next := headerBytes a.1 a.2.1 })

/-- The encrypt side starts an authentication block of an active egress context; the context that shares its slot keeps in lock
step (R259). -/
def execEncryptBlockStart (tnum : Nat) (s : State) : Result :=
  let key := 16384 + tnum
  done (match s.bank2.bindOf 1 tnum with
    | none => s
    | some b =>
      if !s.traffic || !(s.encCtx tnum).active || (tfind s.key.binds key).isNone then s
      else
        let r := s.key.run key
        let s := if r.switch = 1 then s.modKey fun k => (k.modSlot b.slot Slot.retire).modRun key fun r => { r with switch := 0 } else s
        let s := if r.leadIn || r.failed != 0 then s.encLead key b.slot else s.encBlock key b.slot
        match s.bank2.encPartner tnum b.slot with
        | some p => s.modKey fun k => k.modRun p fun _ => k.run key
        | none => s)

/-- A tributary's signal fail as the decrypt side sees it: the server causes but those of the cipher. -/
def State.ingFail (s : State) (t : Nat) : Bool := s.serverCauses t % 32 != 0

/-- A binding goes back to ACQUIRE, fail-closed. Blocks that it has not begun or ended are given up; tags that are due stay so. -/
def BindRun.acquire (cause : Nat) (r : BindRun) : BindRun :=
  { r with state := .acquire, badHdr := 0, failed := cause, pipe := { r.pipe with queue := [], cur := {}, n := 0 } }

/-- The fail-closed cause of ACQUIRE: 1, or 2 where the slot has no CURRENT half (R269). -/
def State.acquireCause (s : State) (slot : Nat) : Nat := if ((s.key.slot slot).find .current).isSome then 1 else 2

def State.acquire (key slot : Nat) (s : State) : State := s.modKey (Key.modRun key (BindRun.acquire (s.acquireCause slot)))

/-- A received header names a NEXT half: it becomes CURRENT (R266). -/
def State.followKi (slot : Nat) (i : Bool) (s : State) : State :=
  if ((s.key.slot slot).half i).state = .next then
    (s.modKey (Key.modSlot slot (Slot.switchTo i))).event 0x4803 (b2n i) (leBytes 2 slot)
  else s

/-- The block of an accepted or expected header is decrypted, or not started at the usage limit (R268). -/
def State.decBlock (key slot : Nat) (i : Bool) (inv : BitVec 48) (s : State) : State :=
  let h := (s.key.slot slot).half i
  if !h.room then
    s.modKey fun k => (if (k.run key).failed = 3 then k else k.flag 2).modRun key fun r =>
      { (r.give {}) with state := .run, ki := i, inv := inv, failed := 3 }
  else (s.useHalf slot i).modKey (Key.modRun key fun r =>
    { r.give { kind := .cipher, ki := i, key := h.key, salt := h.salt, inv := inv, hdr := headerBytes i inv } with
      state := .run, failed := 0, ki := i, inv := inv })

/-- A decrypt binding takes a block header. The block that the header describes begins, for the model, with this step. -/
def execHeaderReceived (tnum : Nat) (h : CipherHeader) (s : State) : Result :=
  done (match s.presentBank.bindOf 0 tnum with
    | none => s
    | some b =>
      let r := s.key.run tnum
      let i := h.ctl.getLsbD 7
      let good := crc8 (beBytes 6 h.inv.toNat ++ [h.ctl]) = h.hcrc.toNat
      let half := (s.key.slot b.slot).half i
      let bump (f : BindRun → BindRun) (s : State) : State := s.modKey (Key.modRun tnum f)
      if !s.traffic || (tfind s.key.binds tnum).isNone || s.ingFail tnum then s
      else match r.state with
        | .run =>
          if !good then
            let s := bump (fun r => { r with hdrErr := satAdd r.hdrErr 1, badHdr := r.badHdr + 1, lastHdr := [] }) s
            if 4 ≤ r.badHdr + 1 then s.acquire tnum b.slot else s.decBlock tnum b.slot r.ki (r.inv + 1)
          else
            let s := bump (fun r => { r with badHdr := 0, lastHdr := headerBytes i h.inv }) s
            if half.state = .empty then s.acquire tnum b.slot
            else if i = r.ki then
              if h.inv.toNat ≤ r.inv.toNat then (bump (fun r => { r with replay := satAdd r.replay 1 }) s).decBlock tnum b.slot r.ki (r.inv + 1)
              else
                let s := if h.inv = r.inv + 1 then s else bump (fun r => { r with invJump := satAdd r.invJump 1 }) s
                s.decBlock tnum b.slot i h.inv
            else if half.state = .retiring then
              (bump (fun r => { r with replay := satAdd r.replay 1 }) s).decBlock tnum b.slot r.ki (r.inv + 1)
            else (s.followKi b.slot i).decBlock tnum b.slot i h.inv
        | _ =>
          if good && half.state != .empty then
            ((bump (fun r => { r with badHdr := 0, lastHdr := headerBytes i h.inv }) s).followKi b.slot i).decBlock tnum b.slot i h.inv
          else s)

/-- A binding still uses half `i` of its slot: the half in RUN, a block to begin, in progress or whose tag is due, or on the encrypt
side the tag of its last block (R265, R266). -/
def BindRun.uses (i : Bool) (r : BindRun) : Bool :=
  (r.state = .run && r.ki = i) || (r.state = .encrypt && r.switch = 1) || r.pipe.queue.any (fun b => b.kind = .cipher && b.ki = i) ||
  (r.state != .encrypt && r.pipe.cur.kind = .cipher && r.pipe.n < payloadBytes && r.pipe.cur.ki = i) || r.pipe.due.any fun d => d.1 = i

/-- A RETIRING half of a slot that no binding uses any more is erased. -/
def Key.retireUnused (slot : Nat) (k : Key) : Key :=
  match (k.slot slot).find .retiring with
  | some i => if k.binds.any fun e => e.2.slot = slot && e.2.uses i then k else k.modSlot slot Slot.retire
  | none => k

/-- The tag of the oldest decrypted block without one arrives, or does not: it passes where it is the computed one, fails, or cannot
be checked in signal fail (R262); the last tag under a former half erases that half (R266). -/
def execTagCheck (tnum : Nat) (tag : BitVec 128) (missing : Bool) (s : State) : Result :=
  done (match s.presentBank.bindOf 0 tnum, (s.key.run tnum).pipe.due with
    | some b, d :: rest =>
      if !s.traffic || (tfind s.key.binds tnum).isNone then s
      else
        let s := s.modKey fun k => (k.modRun tnum fun r => { r with pipe := { r.pipe with due := rest } }).retireUnused b.slot
        if s.ingFail tnum then s.modKey (Key.modRun tnum fun r => { r with uncheck := satAdd r.uncheck 1 })
        else if !missing && tag = d.2 then s
        else
          let x := tget {} s.dp.ing tnum
          let s := ((s.modKey fun k => (k.flag 1).modRun tnum fun r => { r with authFail := satAdd r.authFail 1 }).modDp fun d => { d with
            ing := tmod {} d.ing tnum fun x => { x with untrustPend := true } }).count (512 + (s.ingCtx tnum).stream.toNat / 8) 1
          if x.untrust = none && !x.untrustPend then s.event 0x4801 0 (leBytes 2 tnum ++ leBytes 2 b.slot) else s
    | _, _ => s)

/-- dUNTRUST ends after the whole of the second that follows the failure's. -/
def execUntrustClear (tnum : Nat) (s : State) : Result :=
  done (if (tget {} s.dp.ing tnum).untrust != some 0 then s
    else s.modDp fun d => { d with ing := tmod {} d.ing tnum fun x => { x with untrust := none } })

/-! ### Boundary (R264-R269) -/

/-- A slot's pending changes: erasure, load, activation. `enc`: an active encrypt binding names the slot. -/
def Slot.boundary (tick : Cfn) (enc : Bool) (x : Slot) : Slot :=
  let x : Slot := match x.ersPend with
    | some true => { loadPend := x.loadPend, actPend := x.actPend }
    | some false => { x with h0 := if x.h0.state = .next then {} else x.h0, h1 := if x.h1.state = .next then {} else x.h1, ersPend := none }
    | none => x
  let x : Slot := match x.loadPend with
    | some (i, h) => if (x.half i).state = .current then { x with loadPend := none } else { (x.modHalf i fun _ => h) with loadPend := none }
    | none => x
  let x : Slot := match x.actReady && !enc, x.find .next with
    | true, some i => (x.switchTo i).retire
    | true, none => { x with actReady := false }
    | false, _ => x
  if !(x.actPend.any fun t => cfnGe tick t) then x
  else match x.find .next with
    | none => { x with actPend := none }
    | some i => if enc && (x.find .current).isSome then { x with actPend := none, actReady := true }
      else { (x.switchTo i).retire with actPend := none }

/-- The slot has an active encrypt binding. -/
def State.encrypts (s : State) (slot : Nat) : Bool :=
  (s.presentBank.ckey ++ s.bank2.ckey).any fun e => 16384 ≤ e.1 && e.2.active && e.2.slot = slot

/-- The erasure of a whole slot at this boundary, while its current key is in use (R267). -/
def Key.erasedInUse (k : Key) : List Nat :=
  (k.slots.filter fun e => e.2.ersPend = some true && (e.2.find .current).isSome).map Prod.fst

/-- A binding whose slot is erased in use, or that a wipe closes, becomes fail-closed; one whose tributary enters signal fail goes to
ACQUIRE (R260, R267, R279). -/
def State.bindBoundary (s : State) (erased : List Nat) (key : Nat) (r : BindRun) : BindRun :=
  if s.key.failAll || erased.contains r.slot then
    { (if 16384 ≤ key then r.stop 4 else r.acquire 4) with pipe := r.pipe.idle }
  else if key < 16384 && r.state = .run && s.ingFail key then r.acquire (s.acquireCause r.slot)
  else r

/-- The fail-closed state of the ingress contexts follows the decrypt bindings, from the frame that begins (R269, R280). -/
def State.markLck (s : State) : State :=
  let bound := (s.key.binds.filter fun e => e.1 < 16384 && e.2.failed != 0).map Prod.fst
  let ing := (tmap (fun k (x : IngRun) => { x with lck := bound.contains k }) s.dp.ing).filter fun e => e.2 != {}
  s.modDp fun d => { d with ing := bound.foldl (fun t k => tmod {} t k fun x => { x with lck := true }) ing }

/-- What keys and bindings do at a boundary, with the fail-closed and dUNTRUST states of the ingress contexts. -/
def State.keyBoundary (s : State) : State :=
  let erased := s.key.erasedInUse
  let s := s.modKey fun k => { k with slots := (tmap (fun n (x : Slot) => x.boundary s.tick (s.encrypts n)) k.slots).filter fun e => e.2 != {} }
  let s := s.modKey fun k => { k with binds := tmap (fun key r => s.bindBoundary erased key r) k.binds, failAll := false }
  let s := s.modKey fun k => (tkeys k.slots).foldl (fun k n => k.retireUnused n) k
  (s.modDp fun d => { d with ing := tmap (fun _ (x : IngRun) =>
    { x with untrust := if x.untrustPend then some 2 else x.untrust, untrustPend := false }) d.ing }).markLck

/-! ### Commits (R152, R258, R260) -/

/-- A binding starts: an encrypt binding with a lead-in, a decrypt binding fail-closed in ACQUIRE (R258, R260). -/
def State.startBind (s : State) (dir slot : Nat) : BindRun :=
  if dir = 1 then { slot := slot, state := .encrypt }
  else { slot := slot, leadIn := false, failed := s.acquireCause slot }

/-- The run-time state of the active bindings of one direction under a new bank: unchanged bindings go on; a decrypt binding that
starts is fail-closed in ACQUIRE. A cipher island that missed the switch keeps its bindings until its reset (R18; log entry 35). -/
def State.carryBinds (s : State) (dir : Nat) (old new : Bank) : Tbl BindRun :=
  let stream (b : Bank) (t : Nat) : BitVec 7 := (tget {} (if dir = 0 then b.ing else b.eg) t).stream
  let missed (b : Bank) (t : Nat) : Bool := s.rst.stale.contains (20 + (stream b t).toNat / 64)
  (s.key.binds.filter fun e => e.1 / 16384 = dir && missed old (e.1 % 16384)) ++
  (new.ckey.filter fun e => e.1 / 16384 = dir && e.2.active && !missed new (e.1 % 16384) && !missed old (e.1 % 16384)).map fun e =>
    let t := e.1 % 16384
    let same := (old.bindOf dir t).any fun o => o.slot = e.2.slot && stream old t = stream new t
    (e.1, match same, tfind s.key.binds e.1 with
      | true, some r => r
      | _, _ => s.startBind dir e.2.slot)

/-- The spare goes on with a tributary of one side only while its binding stays on its stream (R278). -/
def carrySpare (side : Nat) (old new : Bank) (l : Tbl Nat) : Tbl Nat :=
  let stream (b : Bank) (t : Nat) : BitVec 7 := (tget {} (if side = 0 then b.ing else b.eg) t).stream
  l.filter fun e => e.1 / 16384 != side || ((new.bindOf side (e.1 % 16384)).isSome && stream old (e.1 % 16384) = stream new (e.1 % 16384))

/-- Decrypt bindings at boundary F; the ingress contexts are fail-closed with them from frame F. -/
def State.keyCommitIn (old : Bank) (s : State) : State :=
  (s.modKey fun k => { k with
    binds := s.carryBinds 0 old s.presentBank ++ k.binds.filter fun e => 16384 ≤ e.1
    spare := carrySpare 0 old s.presentBank k.spare }).markLck

/-- Encrypt bindings at boundary F+2, when the mappers change their bank. -/
def State.keyCommitOut (old : Bank) (s : State) : State :=
  s.modKey fun k => { k with
    binds := (k.binds.filter fun e => e.1 < 16384) ++ s.carryBinds 1 old s.bank2
    spare := carrySpare 1 old s.bank2 k.spare }

/-- After the reset that R18 asks of a stale cipher island, its bindings start under the banks in force. -/
def State.restartBinds (island : Nat) (s : State) : State :=
  let stream (b : Bank) (k : Nat) : Nat := (tget {} (if k < 16384 then b.ing else b.eg) (k % 16384)).stream.toNat
  let fresh (dir : Nat) (b : Bank) : Tbl BindRun :=
    (b.ckey.filter fun e => e.1 / 16384 = dir && e.2.active).map fun e =>
      (e.1, if stream b e.1 / 64 = island then s.startBind dir e.2.slot else (tfind s.key.binds e.1).getD (s.startBind dir e.2.slot))
  (s.modKey fun k => { k with binds := fresh 0 s.presentBank ++ fresh 1 s.bank2 }).markLck

/-! ### Pipelines (R277, R278, R435) -/

def pipeKey (cluster side pipe : Nat) : Nat := cluster * 32 + side * 16 + pipe
def Key.pipe (k : Key) (p : Nat) : Pipe := tget {} k.pipes p
def Key.modPipe (p : Nat) (f : Pipe → Pipe) (k : Key) : Key := { k with pipes := tmod {} k.pipes p f }

/-- The pipeline that a spare covers: one retired for good, or with tributaries still at the spare. -/
def Key.covered (k : Key) (cluster side : Nat) : Option Nat :=
  match k.spare.find? fun e => e.2 / 16 = cluster * 2 + side with
  | some e => some e.2
  | none => ((List.range 8).map (pipeKey cluster side)).find? fun p => (k.pipe p).state != 0

/-- The spare can vote. -/
def Key.votes (k : Key) (cluster side : Nat) : Bool := (k.pipe (pipeKey cluster side 8)).state = 0 && (k.covered cluster side).isNone

/-- A pipeline without a window of 60 s that has ended (R432). -/
def pipeNow (tick : Cfn) (p : Pipe) : Pipe :=
  if p.window.any fun w => 5859375 ≤ since tick w then { p with events := 0, window := none } else p

/-- A fault event of a pipeline in its window of 60 s. -/
def pipeWindow (tick : Cfn) (p : Pipe) : Pipe :=
  let q := pipeNow tick p
  { q with events := q.events + 1, window := some (q.window.getD tick) }

/-- A fault event, permanent at the third or where `forced`. -/
def State.pipeFault (p : Nat) (unvoted forced : Bool) (s : State) : State :=
  let q := pipeWindow s.tick (s.key.pipe p)
  let perm := forced || 3 ≤ q.events
  let spare := p / 16 * 16 + 8
  (s.modKey fun k => (k.flag 0).modPipe p fun _ => { q with
    state := if perm then 1 else q.state, unvoted := if unvoted then satAdd q.unvoted 1 else q.unvoted }).unitRecord
    3 (if perm then 2 else 1) p 4 q.events (if p = spare || unvoted then 0xFFFF else spare)

/-- A pipeline's two computations disagree. -/
def execPipeMismatch (cluster side pipe consecutive : Nat) (s : State) : Result :=
  let p := pipeKey cluster side pipe
  done (if 16 ≤ cluster || 2 ≤ side || 9 ≤ pipe || s.rst.variant = 2 || !s.traffic || (s.key.pipe p).state = 2 then s
    else
      let s := s.count (528 + cluster) 1
      if (s.key.pipe p).state = 1 then s
      else s.pipeFault p (!s.key.votes cluster side || pipe = 8) (16 ≤ consecutive))

/-- A tributary reaches a block boundary: the spare takes it from a retired pipeline, or hands it back. -/
def execPipeHandover (cluster side tnum : Nat) (s : State) : Result :=
  let c := if side = 0 then s.ingCtx tnum else s.encCtx tnum
  let p := pipeKey cluster side (c.stream.toNat % 8)
  let t := side * 16384 + tnum
  let bank := if side = 0 then s.presentBank else s.bank2
  let spare := pipeKey cluster side 8
  done (if 2 ≤ side || c.stream.toNat / 8 != cluster || (bank.bindOf side tnum).isNone || !c.active || !s.traffic then s
    else if (s.key.pipe p).state = 1 && (tfind s.key.spare t).isNone && (s.key.pipe spare).state = 0 &&
        s.key.spare.all (fun e => e.2 / 16 != p / 16 || e.2 = p) then
      let first := s.key.spare.all fun e => e.2 != p
      let s := s.modKey fun k => { k with spare := tins k.spare t p }
      if first then s.unitRecord 3 3 p 7 (s.key.pipe p).events spare else s
    else if (s.key.pipe p).state = 0 && tfind s.key.spare t = some p then
      let s := s.modKey fun k => { k with spare := tdel k.spare t }
      if s.key.spare.all fun e => e.2 != p then s.unitRecord 3 4 p 7 (s.key.pipe p).events 0xFFFF else s
    else s)

/-- The self-test of a readmitted pipeline ends. -/
def execPipeSelfTestDone (cluster side pipe : Nat) (pass : Bool) (s : State) : Result :=
  let p := pipeKey cluster side pipe
  done (if (s.key.pipe p).state != 2 || since s.tick (s.key.pipe p).since < 64 then s
    else if pass then s.modKey (Key.modPipe p fun q => { q with state := 0 })
    else (s.modKey (Key.modPipe p fun q => { q with state := 1 })).unitRecord 3 2 p 4 (s.key.pipe p).events 0xFFFF)

/-- An idle spare runs its known-answer test, once a second. -/
def execSpareKat (cluster side : Nat) (pass : Bool) (s : State) : Result :=
  let p := pipeKey cluster side 8
  done (if 16 ≤ cluster || 2 ≤ side || s.rst.variant = 2 || !s.glb.released || !s.key.votes cluster side || since s.tick (s.key.pipe p).since < 97657 then s
    else
      let s := s.modKey (Key.modPipe p fun q => { q with since := s.tick })
      if pass then s else s.pipeFault p false false)

/-! ### Loads, activations and erasures (R264-R267, R274) -/

/-- Key loads are refused: an alarm is active, a wipe failed, or the life-cycle state allows none (R279, R372, R417). -/
def Key.tamperOn (k : Key) : Bool := !k.tamperSet.isEmpty
def Key.blocked (k : Key) : Bool := k.tamperOn || k.wipeBad
def State.loadsClosed (s : State) : Bool := s.rst.lc = .blank || s.rst.lc = .fieldReturn

/-- The half that a load writes, or none where it is RETIRING. -/
def Slot.loadHalf (x : Slot) : Option Bool :=
  let i := if x.ersPend = some true then false else match x.find .current with
    | some c => !c
    | none => x.ki
  if x.ersPend != some true && (x.half i).state = .retiring then none else some i

/-- One run of the unwrap unit: what it fetches, with the fetch's errors, and its integrity value and plaintext (R274). -/
def unwrapRun (kek : BitVec 256) (wrapped : List Byte) (e : FetchError) : Nat × List Byte :=
  kwUnwrap (kek ^^^ e.kek) (beBytes 48 (beNat wrapped ^^^ e.data.toNat))

/-- The half that an unwrapped key makes: none where the integrity value, LIMIT_LOG2 or the reserved byte is out of range (R273,
R274). -/
def unwrapHalf (r : Nat × List Byte) : Option Half :=
  let limit := leAt r.2 38 1
  if r.1 = 0xA6A6A6A6A6A6A6A6 && leAt r.2 39 1 = 0 && (limit = 0 || (24 ≤ limit && limit ≤ 47)) then
    some { state := .next, key := BitVec.ofNat 256 (beNat (slice r.2 0 32)), salt := BitVec.ofNat 48 (beNat (slice r.2 32 6)), limit := limit }
  else none

/-- What two runs of the unwrap unit find: none where they disagree, else the half or none. A device without a KEK in its shadow
unwraps nothing (log entry 9). -/
def Rst.unwrap (r : Rst) (wrapped : List Byte) (e : FetchErrors) : Option (Option Half) :=
  match r.kek with
  | none => some none
  | some kek =>
    let a := unwrapRun kek wrapped e.first
    if a = unwrapRun kek wrapped e.second then some (unwrapHalf a) else none

/-- A half is NEXT, or will be at the next boundary. -/
def Slot.hasNext (x : Slot) : Bool := x.loadPend.isSome || (x.ersPend.isNone && (x.find .next).isSome)

/-- Activation is refused (R265). -/
def State.activateBad (s : State) (slot : Nat) : Bool :=
  !(s.key.slot slot).hasNext || s.presentBank.ckey.any fun e => e.1 < 16384 && e.2.active && e.2.slot = slot

/-- An unwrap fault is counted and posted. -/
def State.unwrapFault (slot : Nat) (s : State) : State :=
  (s.modKey fun k => { k with faults := satAdd k.faults 1 }).event 0x4805 0 (leBytes 2 slot)

/-- Accept an activation; a twin leader's takes effect one boundary later and goes to the follower, and one whose record finds no room in
this frame's columns takes effect as many frames later as the record waits (R319, R321). -/
def State.activate (slot : Nat) (s : State) : State :=
  let lead := s.twin.role = .leader
  (s.modKey (Key.modSlot slot fun x => { x with actPend := some (cfnAdd s.tick (if lead then 2 + s.twin.keyOut.length / mirrorRoom else 1)) })).modTwin fun t =>
    if lead then { t with keyOut := t.keyOut ++ [slot] } else t

def Slot.erase (whole : Bool) (x : Slot) : Slot :=
  { x with ersPend := some (whole || x.ersPend = some true), loadPend := none, actPend := none, actReady := false }

/-! ### The desk of PF0 (R275) -/

/-- START of another OP is no operation; it too is refused with RESULT 1 unless PF0 owns the desk. -/
def Key.deskNoOp (k : Key) : Key := if k.busy.isNone && k.owner != 1 then { k with result := 1 } else k

/-- START: refused with RESULT 1 unless PF0 owns the desk; `op` runs and gives the result that completion reports. -/
def State.desk (op slot : Nat) (run : State → Nat × State) (s : State) : State :=
  if s.rst.variant = 2 || s.key.busy.isSome then s
  else
    let s := s.modKey fun k => { k with deskOp := BitVec.ofNat 3 op, deskSlot := BitVec.ofNat 14 slot, lastSlot := slot % 16384 }
    if s.key.owner != 1 then s.modKey fun k => { k with result := 1 }
    else
      let r := run s
      r.2.modKey fun k => { k with busy := some (op, r.1) }

def Key.wrapped (k : Key) : List Byte := (List.range 12).flatMap fun i => leBytes 4 (tget 0 k.data i).toNat

/-- A load through the desk. Which refusal RESULT names where the life-cycle state refuses loads is a free value (log entry 34). -/
def deskLoadRun (slot : Nat) (e : FetchErrors) (s : State) : Nat × State :=
  if s.key.blocked then (5, s)
  else if s.loadsClosed then
    let d := s.draw 8
    (1 + d.1.toNat % 5, d.2)
  else match (s.key.slot slot).loadHalf with
    | none => (2, s)
    | some i =>
      match s.rst.unwrap s.key.wrapped e with
      | none => (4, s.unwrapFault slot)
      | some none => (3, s)
      | some (some h) => (0, s.modKey (Key.modSlot slot fun x => { x with loadPend := some (i, h) }))

/-- DESK_CMD OP 1. -/
def execDeskLoad (slot : Nat) (e : FetchErrors) (s : State) : Result := done (s.desk 1 (slot % 16384) (deskLoadRun (slot % 16384) e))

/-- DESK_CMD OP 2. -/
def execDeskActivate (slot : Nat) (s : State) : Result :=
  done (s.desk 2 (slot % 16384) fun s => if s.activateBad (slot % 16384) then (2, s) else (0, s.activate (slot % 16384)))

/-- DESK_CMD OP 3. -/
def execDeskEraseNext (slot : Nat) (s : State) : Result :=
  done (s.desk 3 (slot % 16384) fun s => (0, s.modKey (Key.modSlot (slot % 16384) (Slot.erase false))))

/-- DESK_CMD OP 4. -/
def execDeskEraseSlot (slot : Nat) (s : State) : Result :=
  done (s.desk 4 (slot % 16384) fun s => (0, s.modKey (Key.modSlot (slot % 16384) (Slot.erase true))))

/-- A desk operation completes: RESULT, BUSY and DATA. -/
def execKeyDeskComplete (s : State) : Result :=
  done (match s.key.busy with
    | some b => s.modKey fun k => { k with busy := none, result := b.2, data := [] }
    | none => s)

def Key.claim (owner : Nat) (k : Key) : Key := if k.owner = 0 then { k with owner := owner } else k.flag 5

/-- KEY.LOCK.CLAIM. -/
def execKeyDeskClaim (s : State) : Result := done (if s.rst.variant = 2 then s else s.modKey (Key.claim 1))

/-- KEY.LOCK.RELEASE. -/
def execKeyDeskRelease (s : State) : Result :=
  done (s.modKey fun k => if k.owner = 1 then { k with owner := 0 } else k)

/-! ### Wipes and tamper alarms (R279, R371, R372, R418) -/

/-- The wipe of the secure scratchpad, the key store and the slot-state table: a march of one of them ends, a load in progress
is discarded, and every binding becomes fail-closed at the next boundary. -/
def State.wipe (s : State) : State :=
  ((s.abortMarches fun m => m.memory = 4 || m.memory = 5 || m.memory = 0x18).modKey fun k => { k with
    slots := [], wiping := true, failAll := true, busy := k.busy.map fun b => if b.1 = 1 then (1, 5) else b }).modBus fun b => { b with secPad := [], secBase := none }

/-- The detector group of a source: 0 voltage, 1 clock, 2 temperature, 3 pin. -/
def tamperGroup (src : Nat) : Option Nat :=
  if 1 ≤ src && src ≤ 6 then some 0 else if src = 8 || src = 9 then some 1 else if src = 0x0A then some 2 else if src = 0x0B then some 3 else none

/-- A detector that is enabled and armed raises an alarm. -/
def State.tamper (src : Nat) (s : State) : State :=
  let armed := s.rst.phase != .inReset && (tamperGroup src).any fun g => s.key.tamperCfg.getLsbD g && (g != 1 || s.glb.released)
  if !armed then s
  else (s.wipe.modKey fun k => { (k.flag 4) with tamperSet := addNew k.tamperSet src, tamperSrc := BitVec.ofNat 8 src, tamperEvt := true }).event 0x4804 src []

def execTamperAlarm (src : Byte) (s : State) : Result := done (s.tamper src.toNat)

/-- A wipe ends with its read-back. -/
def execWipeComplete (firstDirty secondDirty : Bool) (s : State) : Result :=
  done (if !s.key.wiping then s
    else
      let s := s.modKey fun k => { k with wiping := false, wipeBad := k.wipeBad || (firstDirty && secondDirty) }
      if firstDirty && secondDirty then s.event 0x4804 0xFF [] else s)

/-- The tamper condition of a source ends: a short one is only counted; another source's alarm stays active. -/
def execTamperConditionEnd (e : TamperEnd) (s : State) : Result :=
  done (if e.short then s.count 766 1 else s.modKey fun k => { k with tamperSet := without k.tamperSet e.src.toNat })

/-! ### Commands (R281) -/

/-- The owner number of a mailbox's path (R272). -/
def deskOwner (mb : Nat) : Nat := if mb = 6 then 3 else 2

def keyLockBody (r : MbReq) (s : State) : Ans × State :=
  let o := deskOwner r.mb
  if r.u8 0 = 1 then
    if s.key.owner = o then (.ok, s)
    else if s.key.owner = 0 then (.ok, s.modKey (Key.claim o))
    else (.locked, s.modKey (Key.claim o))
  else if s.key.owner = o then (.ok, s.modKey fun k => { k with owner := 0 })
  else if s.key.owner = 0 then (.ok, s)
  else (.locked, s)

def keyLockForm : Form := .fixed 1 fun r => r.u8 0 = 1 || r.u8 0 = 2

/-- Claim or release the key desk. -/
def execKeyLock (r : MbReq) (s : State) : Result := mailboxRow 0x0801 keyLockForm keyLockBody r s

def slotField (r : MbReq) : Bool := r.u16 0 < 16384

/-- The refusals in the order of R341: DENIED, LOCKED, BUSY, BAD_STATE; an unwrap fault counts where its BUSY is the answer. -/
def keyLoadBody (e : FetchErrors) (r : MbReq) (s : State) : Ans × State :=
  let slot := r.u16 0
  let found := s.rst.unwrap (r.bytes 8 48) e
  if s.key.blocked || s.loadsClosed || found = some none then (.denied, s)
  else if s.key.owner != deskOwner r.mb then (.locked, s)
  else match found, (s.key.slot slot).loadHalf with
    | some (some h), some i => (⟨0, [BitVec.ofNat 8 (b2n i)]⟩, s.modKey (Key.modSlot slot fun x => { x with loadPend := some (i, h) }))
    | some _, _ => (.badState, s)
    | none, _ => (.busy, s.unwrapFault slot)

def keyLoadForm : Form := .fixed 56 fun r => slotField r && r.zero [(2, 6)]

/-- Unwrap a key into the slot's non-current half. -/
def execKeyLoad (r : MbReq) (e : FetchErrors) (s : State) : Result := mailboxRow 0x0802 keyLoadForm (keyLoadBody e) r s

def keyActivateBody (r : MbReq) (s : State) : Ans × State :=
  if s.key.owner != deskOwner r.mb then (.locked, s)
  else if s.activateBad (r.u16 0) then (.badState, s)
  else (.ok, s.activate (r.u16 0))

def keyActivateForm : Form := .fixed 2 slotField

/-- Make the NEXT half current. -/
def execKeyActivate (r : MbReq) (s : State) : Result := mailboxRow 0x0803 keyActivateForm keyActivateBody r s

def keyEraseBody (r : MbReq) (s : State) : Ans × State :=
  if s.key.owner != deskOwner r.mb then (.locked, s)
  else (.ok, s.modKey (Key.modSlot (r.u16 0) (Slot.erase (r.u8 2 = 2))))

def keyEraseForm : Form := .fixed 3 fun r => slotField r && (r.u8 2 = 1 || r.u8 2 = 2)

/-- Erase the NEXT half or the whole slot. -/
def execKeyErase (r : MbReq) (s : State) : Result := mailboxRow 0x0804 keyEraseForm keyEraseBody r s

def HalfState.code : HalfState → Nat
  | .empty => 0 | .next => 1 | .current => 2 | .retiring => 3

def BindState.code : BindState → Nat
  | .acquire => 0 | .run => 1 | .encrypt => 2

def Half.bytes (h : Half) : List Byte := padTo 8 [BitVec.ofNat 8 h.state.code, BitVec.ofNat 8 h.limit] ++ leBytes 8 h.usage

def BindRun.bytes (key : Nat) (r : BindRun) : List Byte :=
  padTo 32 (leBytes 2 (key % 16384) ++ [BitVec.ofNat 8 (key / 16384), BitVec.ofNat 8 r.state.code, BitVec.ofNat 8 r.failed, 0, 0, 0] ++
    leBytes 4 r.authFail.toNat ++ leBytes 4 r.uncheck.toNat ++ leBytes 4 r.hdrErr.toNat ++ leBytes 4 r.invJump.toNat ++ leBytes 4 r.replay.toNat)

def keyStatusBody (r : MbReq) (s : State) : Ans × State :=
  let x := s.key.slot (r.u16 0)
  let l := (s.key.binds.filter fun e => e.2.slot = r.u16 0).drop (r.u16 2)
  let n := l.take 125
  (⟨0, padTo 8 [BitVec.ofNat 8 (b2n x.ki), BitVec.ofNat 8 (b2n x.due)] ++ x.h0.bytes ++ x.h1.bytes ++ leBytes 8 x.inv.toNat ++
    leBytes 2 n.length ++ padTo 6 [BitVec.ofNat 8 (b2n (125 < l.length))] ++ n.flatMap fun e => e.2.bytes e.1⟩, s)

def keyStatusForm : Form := .fixed 4 slotField

/-- A slot's halves and bindings. -/
def execKeyStatus (r : MbReq) (s : State) : Result := mailboxRow 0x0805 keyStatusForm keyStatusBody r s

def Key.pipeRecord (tick : Cfn) (k : Key) (p : Nat) : List Byte :=
  let q := pipeNow tick (k.pipe p)
  let n := (k.spare.filter fun e => e.2 = p || (p % 16 = 8 && e.2 / 16 = p / 16)).length
  padTo 16 ([BitVec.ofNat 8 q.state, BitVec.ofNat 8 q.events] ++ leBytes 2 n ++ leBytes 4 q.unvoted.toNat)

def keyPipeStatusBody (r : MbReq) (s : State) : Ans × State :=
  (⟨0, (List.range 18).flatMap fun i => s.key.pipeRecord s.tick (pipeKey (r.u8 0) (i / 9) (i % 9))⟩, s)

def keyPipeStatusForm : Form := .fixed 1 fun r => r.u8 0 < 16

/-- The pipelines of a cluster. -/
def execKeyPipeStatus (r : MbReq) (s : State) : Result := mailboxRow 0x0806 keyPipeStatusForm keyPipeStatusBody r s

def keyPipeReadmitBody (r : MbReq) (s : State) : Ans × State :=
  let p := pipeKey (r.u8 0) (r.u8 1) (r.u8 2)
  if (s.key.pipe p).state != 1 then (.badState, s)
  else (.ok, (s.modKey (Key.modPipe p fun q => { q with state := 2, since := s.tick, events := 0, window := none })).unitRecord 3 5 p 8 0 0xFFFF)

def keyPipeReadmitForm : Form := .fixed 3 fun r => r.u8 0 < 16 && r.u8 1 < 2 && r.u8 2 < 9

/-- Start the self-test of a retired pipeline. -/
def execKeyPipeReadmit (r : MbReq) (s : State) : Result := mailboxRow 0x0807 keyPipeReadmitForm keyPipeReadmitBody r s

end Sys2Proof.Machine
end

