-- ==== Sys2Proof/Machine/TakeEffect.lean ====
section
/-!
DEFINITION. The decision of a commit or rollback, votes of a domain, received tokens, and what takes effect at F
(chapters 06 and 13).
-/

namespace Sys2Proof.Machine

/-! ### Causes (R147) -/

/-- The bank that an armed operation makes Present. -/
def State.incomingBank (s : State) (a : Armed) : Bank := s.sch.bank (s.sch.incoming a)

/-- The largest C that was announced for an ingress context in the 256 frames before (R105). -/
def State.largestC (s : State) (t : Nat) : Nat :=
  (((tget {} s.dp.ing t).cMax.filter fun e => since s.tick e.1 ≤ 256).map Prod.snd).foldl max 0

/-- Cause 0x3: a resizing tributary announced more words than the incoming N (R105). A record's RESIZE and N hold for its alternatives too
(R172), so a context that only an alternative makes active is compared as well. -/
def State.resizeBad (s : State) (inc : Bank) : Bool :=
  (tkeys s.presentBank.ing).any fun t =>
    (s.ingCtx t).active && (s.ingCtx t).resize != 0 && (tget {} inc.ing t).n < s.largestC t

/-- Cause 0x4: an incoming paradigm lacks the M that will be in force at F. -/
def State.paradigmBad (s : State) (f : Cfn) (inc : Bank) : Bool :=
  s.grps.any fun e => match tfind s.presentBank.para e.1, tfind inc.para e.1 with
    | some old, some new =>
      let m := match e.2.notice with
        | some n => if cfnGe f n.target then n.m else old.mAt e.2.cur
        | none => old.mAt e.2.cur
      (new.keyed m).isNone
    | _, _ => false

/-- The islands that must acknowledge: cluster pairs 0-15, engine islands 16-19 and cipher islands 20-21, but gated ones
(R146). -/
def State.ackIslands (s : State) : List Nat :=
  (List.range 22).filter fun i => !s.pwr.gated.getLsbD i && !(s.rst.variant = 2 && 20 ≤ i)

/-- The lowest of causes 0x1 to 0x5 that applies, or 0 (R147). DESIGN CHOICE (log entry 39): the bank is CHECKING or VALID when armed
(R145); should it be found LOADING, COPYING or OPEN without a failed pass, the cause is 0x2, CHECK_FAILED. -/
def State.ownCause (s : State) (a : Armed) : Nat :=
  let future := !a.rollback && !a.resume
  let inc := s.incomingBank a
  if a.changed then 5
  else if future && s.sch.futState = .checking then 1
  else if future && s.sch.futState != .valid then 2
  else if s.resizeBad inc then 3
  else if s.paradigmBad a.target inc then 4
  else if !a.noticed || s.ackIslands.any (fun i => !a.acks.contains i) then 5
  else 0

/-- The cause at the decision, or 0 for GO (R147, R160). -/
def State.decisionCause (s : State) (a : Armed) : Nat :=
  let first := if !a.domain then s.ownCause a
    else match a.ready with
      | some 0 => if a.vetoRx || a.vetoTx then 6 else 0
      | some c => c
      | none => 6
  if first != 0 then first
  else if s.glb.triggers.contains .hold || s.glb.triggers.contains .decommission then 7
  else if a.rollback && !s.sch.pastValid then 8
  else 0

/-- PERT.SKEW delays the effect of the next GO (R451). -/
def Pert.skewFrames (p : Pert) : Nat := if p.skew.getLsbD 31 then max 1 (fld p.skew.toNat 0 3) else 0

/-- Boundary F-2: GO, or `Deferred` with the lowest cause. A member of a domain compares schedule IDs in frame F+1, also where PERT.SKEW
delays its own effect (R160, R452). -/
def execCommitDecision (s : State) : Result :=
  done (match s.sch.armed with
    | none => s
    | some a =>
      if !s.undecided || cfnAdd s.cfn 2 != a.target || !s.glb.released then s
      else
        let c := s.decisionCause a
        if c != 0 then s.deferArmed c
        else
          let k := s.pert.skewFrames
          let s := (s.modSch fun c => { c with
            armState := if a.rollback then .rollbackGo else .commitGo, armed := some { a with effect := cfnAdd a.target k } }).modTwin
            fun t => { t with domCommit := if a.domain then some a.target else t.domCommit }
          if k = 0 then s else (s.modPert fun p => { p with skew := setBit p.skew 31 false }).count 746 1)

/-! ### Domains (R158-R160) -/

/-- Boundary F-4: readiness is fixed, and the vote goes out. -/
def execDomainReadiness (s : State) : Result :=
  done (match s.sch.armed with
    | none => s
    | some a =>
      if !a.domain || !s.undecided || cfnAdd s.cfn 4 != a.target || a.ready.isSome || !s.glb.released then s
      else
        let c := s.ownCause a
        (s.modSch fun x => { x with armed := some { a with ready := some c } }).modTwin fun t => { t with
          vote := some (s.voteToken 2 (if c = 0 then 1 else 2) a) })

/-- Boundary F-3: a member that received a VETO, missed a token or met another target sends VETO; a ready one votes GO again. -/
def execDomainVeto (s : State) : Result :=
  done (match s.sch.armed with
    | none => s
    | some a =>
      if !a.domain || !s.undecided || cfnAdd s.cfn 3 != a.target || a.ready.isNone || !s.glb.released then s
      else
        let veto := a.vetoRx || a.badTok || s.domainLanes.any fun n => !a.heard.contains n
        (s.modSch fun x => { x with armed := some { a with vetoTx := a.vetoTx || veto } }).modTwin fun t => { t with
          vote := some (s.voteToken 2 (if veto || a.ready != some 0 then 2 else 1) a) })

/-- Frame F+1: a received schedule ID that differs sets DOMAIN_SPLIT. -/
def execDomainIdCheck (s : State) : Result :=
  let own := s.presentBank.id
  done (match s.twin.domCommit with
    | none => s
    | some f =>
      if s.cfn != cfnAdd f 1 then s
      else match s.twin.idSeen.find? (· != own) with
        | some other => ((s.modSch (Sch.flag 0)).event 0x4404 0 (leBytes 8 own.toNat ++ leBytes 8 other.toNat)).modTwin
            fun t => { t with domCommit := none }
        | none => s)

/-! ### Received tokens (R311, R312, R319, R320) -/

/-- A heartbeat from the partner (R323, R325). -/
def State.takeHb (lane : Nat) (t : Token) (s : State) : State :=
  if !s.twin.twinLanes.getLsbD lane then s
  else s.modTwin fun w => { w with
    hbTok := true, peerId := some (BitVec.ofNat 64 (t.bits 131 68)), peerYield := if t.bits 135 135 = 1 then some s.tick else w.peerYield }

/-- A vote: it is heard, vetoes, or concerns a target that is not armed; a VETO is relayed (R158, R159, R315). -/
def State.takeVote (lane : Nat) (t : Token) (s : State) : State :=
  if !s.domainLanes.contains lane then s
  else
    let veto := t.bits 135 134 = 2
    let s := match s.sch.armed with
      | none => s
      | some a =>
        let tag (n : Nat) : Bool := t.tag = (a.target - BitVec.ofNat 48 n).toNat % 65536
        let same := t.bits 133 133 = b2n a.rollback && t.bits 132 85 = a.target.toNat && t.bits 84 21 = a.id.toNat
        if !a.domain || !s.undecided then s
        else s.modSch fun c => { c with armed := some { a with
          heard := if tag 4 then addNew a.heard lane else a.heard
          vetoRx := a.vetoRx || (veto && (tag 4 || tag 3)), badTok := a.badTok || !same } }
    if veto && t.hops != 63 then s.modTwin (Twin.send (without s.domainLanes lane) t.relayed) else s

/-- An index change from the leader, applied as if distributed at this boundary; its LAST_CAUSE is not stated. -/
def State.takeConj (lane : Nat) (t : Token) (s : State) : State :=
  if s.twin.role != .follower || !s.twin.twinLanes.getLsbD lane then s
  else (List.range 10).foldl (fun s i =>
    let e := t.bits (135 - 12 * i) (124 - 12 * i)
    let g := fld e 4 7
    if !bitOf e 11 || (s.grp g).all fun r => r.next.any fun n => n.idx = fld e 0 4 then s
    else
      let d := s.draw 2
      d.2.modGrp g fun r => { r with next := some ⟨fld e 0 4, d.1.toNat, none⟩ }) s

/-- A leader's ARM: the follower arms on the first one (R319). -/
def State.takeArm (lane : Nat) (t : Token) (s : State) : State :=
  let rollback := t.bits 133 133 = 1
  let id : W64 := BitVec.ofNat 64 (t.bits 84 21)
  let f : Cfn := BitVec.ofNat 48 (t.bits 132 85)
  if s.twin.role != .follower || !s.twin.twinLanes.getLsbD lane || s.sch.armState != .idle || s.glb.mode != .mateFollow then s
  else
    let resume := !rollback && id = s.presentBank.id && !s.sch.dataEnable
    s.arm { target := f, effect := f, rollback := rollback, domain := true, resume := resume
            id := if rollback then s.pastBank.id else if resume then id else s.futureBank.id, origin := none }

/-- A token is received on a stitch lane. -/
def execStitchToken (lane : Nat) (tok : BitVec 168) (s : State) : Result :=
  let t : Token := tok
  done (if !s.lockedStitch lane || !s.receiving lane then s
    else if !t.crcOk then s.modLane lane (Lane.stFlag 0)
    else
      let s := if s.domainLanes.contains lane && 1 ≤ t.kind && t.kind ≤ 5 then s.modTwin fun w => { w with
          domLast := tmod {} w.domLast lane fun d => { d with kind := t.kind, vote := if t.kind = 2 then t.bits 135 134 else d.vote } }
        else s
      match t.kind with
      | 1 => s.takeHb lane t
      | 2 => s.takeVote lane t
      | 3 => if s.domainLanes.contains lane then s.modTwin fun w => { w with idSeen := w.idSeen ++ [BitVec.ofNat 64 (t.bits 135 72)] } else s
      | 4 => s.takeConj lane t
      | 5 => s.takeArm lane t
      | _ => s)

/-! ### Taking effect (R136, R150-R156) -/

/-- Run-time state crosses from the bank `old` to the bank now Present (R152): protection groups, decrypt bindings, ingress
contexts and conjugations. Engines follow at F+1, mappers and the encrypt side at F+2 (R137); islands whose clock was stopped at
the token miss the switch (R18). -/
def State.crossCommit (old : Bank) (s : State) : State :=
  let before := s.idxNow
  let new := s.presentBank
  let s := ((s.markStale fun i => i < 22).pgCommit old).keyCommitIn old
  let s := s.modDp fun d => { d with ing := tmap (fun t (x : IngRun) =>
    { x with slots := slotsAfter (tget {} old.ing t) (tget {} new.ing t) x.slots }) (d.ing.filter fun e => new.everActive 0 e.1) }
  ((tkeys s.grps).foldl (fun s g => s.conjCarry old before g) s).failCarried old before

/-- The bank that takes effect with the next frame, where one does (R101). -/
def State.incomingNext (s : State) : Option Bank := s.sch.armed.bind fun a =>
  if (s.sch.armState = .commitGo || s.sch.armState = .rollbackGo) && a.effect = cfnAdd s.cfn 1 && !a.resume && s.traffic
    then some (s.incomingBank a) else none

/-- The end of an operation that took effect: its records and its completion (R150, R156, R161). -/
def State.tookEffect (a : Armed) (event : Nat) (s : State) : State :=
  let id := s.presentBank.id
  let s := s.modSch fun c => { (c.disarm.outcome ⟨s.cfn, id, if a.rollback then 2 else 0, 0⟩) with last := s.cfn, committed := c.committed || !s.glb.secDue, commitNext := s.glb.secDue }
  match a.origin with
  | some o => s.complete o a.code 0 0 (leBytes 8 id.toNat)
  | none => s.event event 0 (leBytes 8 id.toNat)

/-- `Provisioning` ends with a commit (R23). A change to Mate-follow that falls in the same frame goes before `Service` (R24). -/
def State.startService (s : State) : State :=
  if s.glb.mode != .provisioning then s
  else if s.redundancyLost then s.setMode .degraded 0
  else if s.twin.joinAs = 3 && s.twin.joinReady then s
  else s.setMode .service 0

/-- Boundary F of a commit: the banks rotate, or a RESUME sets DATA_ENABLE. -/
def execCommitTakeEffect (s : State) : Result :=
  done (match s.sch.armed with
    | none => s
    | some a =>
      if s.sch.armState != .commitGo || s.cfn != a.effect || !s.traffic then s
      else
        let old := s.presentBank
        let s := if a.resume then s.conjApplyAll
          else (s.modSch fun c => { c with
            present := c.future, past := c.present, future := c.past, pastValid := true, futState := .opened
            checked := false, pendReopen := none, pendUnprep := false }).crossCommit old
        ((((s.modSch fun c => { (c.flag 7) with dataEnable := true, began := true }).tookEffect a 0x4401).count 596 1).startService).conjDecideAll)

/-- Boundary R of a rollback: Present and Past exchange roles. -/
def execRollbackTakeEffect (s : State) : Result :=
  done (match s.sch.armed with
    | none => s
    | some a =>
      if s.sch.armState != .rollbackGo || s.cfn != a.effect || !s.traffic then s
      else
        let old := s.presentBank
        let s := (s.modSch fun c => { c with present := c.past, past := c.present }).crossCommit old
        ((s.modSch (Sch.flag 5)).tookEffect a 0x4403).conjDecideAll)

end Sys2Proof.Machine
end

