-- ==== Sys2Proof/Machine/DataPath.lean ====
section
/-!
DEFINITION. The data path of one core frame: demappers and the words of an ingress frame, the crossbar, the egress buffers'
readout, and the mappers (chapters 02, 04 and 05). Frame `m` is the frame that ends; the crossbar handles ingress frame
m-1 in it, and readout and mappers the data of ingress frame m-2 (R100, R137).
-/

namespace Sys2Proof.Machine

/-! ### Words of the frame format (R39, R93, R95, R96) -/

/-- A justification word for ingress frame `k`. -/
def jWord (idx maint : Nat) (ramp : Bool) (k : Cfn) (c cnd : Nat) : W64 :=
  let v := 2 ^ 63 + idx % 128 * 2 ^ 56 + k.toNat % 256 * 2 ^ 48 + maint % 4 * 2 ^ 46 + b2n ramp * 2 ^ 45 + c % 16384 * 2 ^ 30 + cnd % 64 * 2 ^ 24
  BitVec.ofNat 64 (v + crc8 (beBytes 7 (v / 256)))

def jCount (w : W64) : Nat := fld w.toNat 30 14
def jMaintOf (w : W64) : BitVec 2 := BitVec.ofNat 2 (fld w.toNat 46 2)
def jSrc (w : W64) : BitVec 7 := BitVec.ofNat 7 (fld w.toNat 56 7)
def jCnd (w : W64) : Nat := fld w.toNat 24 6

/-- A received justification word is valid for ingress frame `k` and an allotment of `n` (R96). -/
def jValid (w : W64) (k : Cfn) (n : Nat) : Bool :=
  w.getLsbD 63 && crc8 (beBytes 7 (w.toNat / 256)) = w.toNat % 256 && fld w.toNat 48 8 = k.toNat % 256 && jCount w ≤ n

/-- The alignment words A0-A3 (R39). -/
def alignWords (st : Nat) (egress idle : Bool) (cfn : Cfn) (id : W64) : List W64 :=
  let a0 := 0x534C4746 * 2 ^ 32 + st % 128 * 2 ^ 24 + b2n egress * 2 ^ 23 + b2n idle * 2 ^ 22
  let crc := crc32c (leBytes 8 a0 ++ leBytes 8 cfn.toNat ++ leBytes 8 id.toNat)
  [BitVec.ofNat 64 a0, BitVec.ofNat 64 cfn.toNat, id, BitVec.ofNat 64 (crc * 2 ^ 32)]

/-- The columns of an allotment, each with whether it carries data when `count` words are sent. -/
def CtxCfg.positions (c : CtxCfg) (count : Nat) : List (Nat × Bool) := c.allotment.zip (dataPositions c.n count)

/-- Data words on the data positions; a stuff position carries the all-zero word. -/
def placeWords : List (Nat × Bool) → List W64 → List (Nat × W64)
  | [], _ => []
  | (col, true) :: p, w :: l => (col, w) :: placeWords p l
  | (col, _) :: p, l => (col, 0) :: placeWords p l

def byColumn (l : List (Nat × W64)) : Tbl W64 := (l.filter fun e => e.2 != 0).mergeSort fun a b => a.1 ≤ b.1

/-! ### Demappers (R94-R101, R246, R247) -/

/-- The bank and the alternative sets in force in the next frame: under the indices distributed for it, or the bank that takes effect
with it, with the indices that R202 carries over (R101, R195). -/
def State.nextSets (s : State) : Bank × List Nat :=
  let now (g : Nat) : Option Nat := (s.grp g).map fun r => (r.next.map (·.idx)).getD r.cur
  match s.incomingNext with
  | some inc =>
    let idx (g : Nat) : Option Nat := match tfind inc.para g, tfind s.presentBank.para g with
      | some p, some po => (s.grp g).map fun r => (r.carryIdx r.usableSlices p po).2
      | some p, none => some p.init
      | none, _ => none
    (inc, inc.sets idx)
  | none => (s.presentBank, s.presentBank.sets now)

/-- The allotment that a context has in the next frame (R101). -/
def CtxCfg.columns (c : CtxCfg) : Nat := if c.active then c.n else 0

/-- A decrypt binding of the context goes on into the next frame (R280). -/
def State.boundNext (s : State) (t : Nat) : Bool := s.incomingNext.all fun b => (b.bindOf 0 t).isSome

/-- The maintenance signal in place of an ingress context from the next frame: 1 ODU-AIS, 2 ODU-LCK, 0 none; ODU-AIS comes first
(R269). -/
def State.ingMaint (s : State) (t : Nat) : Nat :=
  let x := tget {} s.dp.ing t
  if s.serverCauses t % 32 != 0 || x.ais then 1 else if x.lck && s.boundNext t then 2 else 0

/-- What a demapper does with a context in the frame: the words it places, the justification word of the next frame, and the
context's new run-time state. Words beyond the allotment of the next frame are held back in the buffer (R98, R101). Where the context
is inactive in the next frame those that do not fit count as no discard: they came no faster than N (DESIGN CHOICE, log entry 35). -/
def State.demap (s : State) (inp : FrameInput) (next t : Nat) (c : CtxCfg) : List (Nat × W64) × W64 × IngRun :=
  let x := tget {} s.dp.ing t
  let instead := if x.annMaint != 0 then x.annMaint.toNat else if !s.streamLive c.stream.toNat then 1 else if x.lck then 2 else 0
  let words := if instead = 0 then x.ann else (List.range x.annC).map fun i => Config.maintWord instead t (s.cfn.toNat * 16384 + i)
  let limit := min c.n next
  let code := s.ingMaint t
  let all := x.buf ++ (inp.arrivals.filter fun e => e.1 = t).flatMap (·.2)
  let take := min all.length limit
  let rest := all.drop take
  let disc := next != 0 && 256 < rest.length
  let count := if code = 0 then take else limit
  let cnd := if code = 0 then ((List.lookup t inp.residual).getD 0) % 64 else 0
  (placeWords (c.positions x.annC) words,
   jWord c.idx.toNat code (inp.ramp.contains t) (s.cfn + 1) count cnd,
   { x with
     buf := rest.take 256, ann := if code = 0 then all.take take else [], annC := count, annMaint := BitVec.ofNat 2 code
     lastC := count, cnd := cnd, discard := disc, clean := if disc then 0 else min 8 (x.clean + 1)
     fcCnt := if x.fcmovf then satAdd x.fcCnt 1 else x.fcCnt, maintCnt := tmod 0 x.maintCnt code fun k => satAdd k 1
     cMax := if c.type = 7 then (x.cMax ++ [(s.tick, count)]).drop (x.cMax.length + 1 - 256) else [] })

/-- A stream of a cluster, or behind a cipher island, that missed a tense switch carries no traffic until that island's reset
(R18). Cipher island CI0 holds clusters 0 to 7 (log entry 35). -/
def State.staleStream (s : State) (st : Nat) : Bool := s.rst.stale.contains (st / 8) || s.rst.stale.contains (20 + st / 64)

/-- 64 test words of the ingress generator, and its next state (R42). -/
def prbsWords (n : Nat) (g : BitVec 31) : BitVec 31 × List W64 :=
  (List.range n).foldl (fun (p : BitVec 31 × List W64) _ =>
    let q := prbsWord p.1
    (q.1, p.2 ++ [q.2])) (g, [])

/-- IDLE of an ingress stream (R39). DESIGN CHOICE (log entry 35): R39 ties the bit to the idle fill of R62 and R71, which is that of the
line, so a stream whose island missed a tense switch keeps 0 while its group carries. -/
def State.ingIdle (s : State) (st : Nat) : Bool := if s.stitch st then (s.lane st).stNow.isNone else !s.streamLive st

/-- The 16,384 words of an ingress stream in the frame, all-zero words left out (R37). `maps` holds what its demappers place and
their justification words. -/
def State.ingressStream (s : State) (test : List W64) (st : Nat) (maps : List (CtxCfg × List (Nat × W64) × W64)) : Tbl W64 :=
  let a := ((alignWords st false (s.ingIdle st) s.cfn s.presentBank.id).zipIdx 16128).map fun p => (p.2, p.1)
  if s.stitch st then
    let w := (s.lane st).stNow.getD []
    w.filter (fun e => e.1 < 16128) ++ a.filter (fun e => e.2 != 0) ++ w.filter (fun e => 16256 ≤ e.1)
  else
    let mine := maps.filter fun m => m.1.stream.toNat = st
    byColumn (mine.flatMap (·.2.1) ++ mine.map (fun m => (16000 + m.1.idx.toNat, m.2.2)) ++ a ++ (test.zipIdx 16320).map fun p => (p.2, p.1))

/-- The active ingress contexts of the frame. -/
def State.ingActive (s : State) : Tbl CtxCfg := (s.presentBank.ctxs (s.presentBank.sets s.idxNow) 0).filter fun e => e.2.active

/-- What the demappers do in the frame: for each active context its record, words, justification word and new state; and the
contexts that become active with the next frame, which announce no words for it (R195; log entry 35). -/
def State.demapAll (inp : FrameInput) (s : State) : List (Nat × CtxCfg × List (Nat × W64) × W64 × IngRun) × List CtxCfg :=
  let act := s.ingActive
  let nx := s.nextSets
  let maps := (act.filter fun e => !s.staleStream e.2.stream.toNat).map fun e =>
    (e.1, e.2, s.demap inp (nx.1.ctx nx.2 0 e.1).columns e.1 e.2)
  let new := (nx.1.ctxs nx.2 0).filter fun e => e.2.active && (tfind act e.1).isNone && !s.staleStream e.2.stream.toNat &&
    !act.any (fun o => o.2.stream = e.2.stream && o.2.idx = e.2.idx)
  (maps, new.map Prod.snd)

/-- What every context gives its stream: the context's record, its data words and its justification word. -/
def State.contextWords (inp : FrameInput) (s : State) : List (CtxCfg × List (Nat × W64) × W64) :=
  let d := s.demapAll inp
  d.1.map (fun m => (m.2.1, m.2.2.1, m.2.2.2.1)) ++ d.2.map fun c => (c, [], jWord c.idx.toNat 0 false (s.cfn + 1) 0 0)

/-- The ingress side of the frame: the demappers run, and every stream is written into the ponds that serve it (R107, R128). A context
that is not active in the frame keeps no words (DESIGN CHOICE, log entry 35). -/
def State.ingressFrame (inp : FrameInput) (s : State) : State :=
  let maps := (s.demapAll inp).1
  let test := prbsWords 64 s.dp.prbsAll
  let half := s.cfn.toNat % 2
  let out := s.contextWords inp
  let idleRun (t : Nat) (x : IngRun) : IngRun := if maps.any (·.1 = t) then x else { x with buf := [] }
  let pnd := (List.range 128).foldl (fun p st =>
    let w := s.ingressStream test.2 st out
    (s.pnd.written s.tick st).foldl (fun p phys => Pnd.modPond phys (fun q =>
      let q := Pond.setHalf half w q
      { (q.late.foldl (fun q e => q.setWord half e.1 e.2) q) with late := [] }) p) p) s.pnd
  let idle := (List.range 128).filter s.ingIdle
  idle.foldl (fun s st => s.count (608 + st) 1)
    { s with pnd := pnd, dp := { s.dp with prbsAll := test.1, ing := maps.foldl (fun t m => tput {} t m.1 m.2.2.2.2) (tmap idleRun s.dp.ing) } }

/-- The decrypt pipelines work on what the demappers announce for the next frame, before its placement (R252, R253, R261). Where the
binding leaves with that frame its words stay ciphertext (R137, R280). -/
def State.decryptFrame (inp : FrameInput) (s : State) : FrameInput × State :=
  let nx := s.nextSets
  (s.ingActive.filter fun e => !s.staleStream e.2.stream.toNat && (s.presentBank.bindOf 0 e.1).isSome && s.boundNext e.1 &&
      (tfind s.key.binds e.1).isSome).foldl (fun (p : FrameInput × State) e =>
    let all := (tget {} s.dp.ing e.1).buf ++ (inp.arrivals.filter fun a => a.1 = e.1).flatMap (·.2)
    let n := min e.2.n (nx.1.ctx nx.2 0 e.1).columns
    let r := (s.key.run e.1).pipe.words false (all.take n)
    ({ p.1 with arrivals := p.1.arrivals.filter fun a => a.1 != e.1 },
     (p.2.modKey (Key.modRun e.1 fun x => { x with pipe := r.1 })).modDp fun d =>
      { d with ing := tmod {} d.ing e.1 fun x => { x with buf := r.2 ++ all.drop n } })) (inp, s)

/-! ### The crossbar (R111-R116, R120, R122, R126, R151) -/

/-- What the crossbar has done so far in a frame: the half it fills, the ports used in the read cycle, ECC errors found
(physical pond, column, class), streams that lost a read or a write, streams with traffic, counts, and map entries found
uncorrectable or corrected. -/
structure Xbar where
  words    : Tbl W64 := []
  cycle    : Nat := 0
  used     : List (Nat × Nat) := []
  errs     : List (Nat × Nat × Nat) := []
  lost     : List Nat := []
  dup      : List Nat := []
  traffic  : List Nat := []
  gens     : Tbl (BitVec 31) := []
  selects  : Nat := 0
  selIdle  : Nat := 0
  dead     : List Nat := []
  fixed    : List Nat := []

/-- A read of a logical pond through a port: the word, and what it leaves. A scrub word's content is undefined (R41). -/
def State.xbRead (s : State) (st pond rp col : Nat) (x : Xbar) : W64 × Xbar :=
  let phys := s.pnd.phys pond
  if x.used.contains (phys, rp) then (0, { x with lost := x.lost ++ [st] })
  else
    let half := (s.cfn.toNat + 1) % 2
    let p := s.pond phys
    let e := (p.readAt half col x.cycle).1
    let w := if 16256 ≤ col && col < 16320 && e != 2 then Config.undefMem s.drawn (phys * 16384 + col) else (p.readAt half col x.cycle).2
    (w, { x with used := (phys, rp) :: x.used, errs := if e = 0 then x.errs else x.errs ++ [(phys, col, e)] })

/-- A word is written at DST_COL, unless its written-mark is already set. -/
def Xbar.write (st col : Nat) (w : W64) (carries : Bool) (x : Xbar) : Xbar :=
  let k := st * 16384 + col
  if (tfind x.words k).isSome then { x with dup := x.dup ++ [st] }
  else { x with words := tins x.words k w, traffic := if carries && col < 16000 then addNew x.traffic st else x.traffic }

/-- The selector state of a group for ingress frame m-1; that of a group which the commit of this frame dropped is kept for it
(R120, R137). -/
def State.selector (s : State) (n : Nat) : Option Nat := ((tfind s.prot n).map (·.prev)).or (tfind s.dp.leaving n)

/-- One connection-map entry. -/
def State.xbEntry (s : State) (b : Bank) (x : Xbar) (k : Nat) : Xbar :=
  let st := keyStream k
  let x := if x.cycle = keyCycle k then x else { x with cycle := keyCycle k, used := [] }
  let e := b.entry k
  let x := if errClass (tget 0 b.mapBad k) = 1 then { x with fixed := x.fixed ++ [k] } else x
  if uncorrectable (tget 0 b.mapBad k) then { x with dead := x.dead ++ [k] }
  else if !e.v || b.dead.contains k then x
  else match e.kind with
    | 0 =>
      let r := s.xbRead st e.pond e.rp e.srcCol x
      r.2.write st e.dstCol r.1 true
    | 1 => x.write st e.dstCol 0 false
    | 2 =>
      let g := prbsWord (tget (BitVec.allOnes 31) x.gens st)
      ({ x with gens := tput (BitVec.allOnes 31) x.gens st g.1 }).write st e.dstCol g.2 false
    | _ =>
      let pg := b.selPg st e
      let x := { x with selects := x.selects + 1 }
      match pg.bind (tfind b.pgs), pg.bind s.selector with
      | some p, some sel =>
        if sel = 2 then ({ x with selIdle := x.selIdle + 1 }).write st e.dstCol 0 true
        else
          let q := if sel = 0 then s.xbRead st p.wPond (b2n p.wRp) e.srcCol x else s.xbRead st p.pPond (b2n p.pRp) e.srcCol x
          q.2.write st e.dstCol q.1 true
      | _, _ => x.write st e.dstCol 0 true

def tally (l : List Nat) (t : Tbl W32) : Tbl W32 := l.foldl (fun t st => tmod 0 t st fun c => satAdd c 1) t

/-- The crossbar's part of the frame: it fills its half of the egress buffers from ingress frame m-1, with the map that was
Present in that frame, where DATA_ENABLE was 1 in it. An uncorrectable error in the map makes a leader hand over (R325). -/
def State.crossbarFrame (s : State) : State :=
  let b := s.bank1
  let x0 : Xbar := { gens := s.dp.egPrbs }
  let x := if s.sch.dataPrev then b.checkOrder.foldl (s.xbEntry b) x0 else x0
  let fill := (s.cfn.toNat + 1) % 2
  let s1 := (s.modDp fun d => { d with
      eb0 := if fill = 0 then x.words else d.eb0, eb1 := if fill = 1 then x.words else d.eb1, egPrbs := x.gens, leaving := []
      ebBad := d.ebBad.filter fun e => e.1 / 2097152 != fill
      ebIdle1 := d.ebIdle, ebIdle := x.traffic }).modPnd fun p => { p with conflict := tally x.lost p.conflict, dstdup := tally x.dup p.dstdup }.endFrame
  let s2 := { s1 with drawn := s1.drawn + 1 }
  let s3 := x.errs.foldl (fun s e => s.pondError e.1 fill e.2.1 e.2.2) s2
  let s3 := x.fixed.foldl (fun s k => s.memCorrect (0x12 + s.sch.present1) k) s3
  let s4 := (((s3.count 604 x.lost.length).count 605 x.dup.length).count 606 x.selects).count 607 x.selIdle
  if x.dead.isEmpty then s4
  else (((s4.modSch fun c => c.modBank c.present1 fun b => { b with
      mapBad := b.mapBad.filter fun e => !x.dead.contains e.1, dead := x.dead.foldl addNew b.dead }).modMem fun m => { m with
      mems := tmod {} m.mems (0x12 + s.sch.present1) fun r => { r with ue := satAdd r.ue x.dead.length } }).raise 22).startYield

/-! ### Readout (R40, R112, R113, R126) -/

/-- The egress frame of all streams, key stream*16384+column: each half's marked words, with the device's own alignment words,
and all-zero words left out. Words with uncorrectable errors leave as idle fill. -/
def State.readoutFrame (s : State) : State :=
  let half := s.cfn.toNat % 2
  let eb := if half = 0 then s.dp.eb0 else s.dp.eb1
  let own (k : Nat) : Bool := 16128 ≤ k % 16384 && k % 16384 < 16256
  let err (k : Nat) : Nat := errClass (tget 0 s.dp.ebBad (half * 2097152 + k))
  let body := eb.filter fun e => !own e.1 && e.2 != 0 && err e.1 != 2
  let out := (List.range 128).flatMap fun st =>
    let mine := body.filter fun e => e.1 / 16384 = st
    let a := ((alignWords st true (!s.dp.ebIdle1.contains st) s.cfn s.presentBank.id).zipIdx (st * 16384 + 16128)).map fun p => (p.2, p.1)
    mine.filter (fun e => e.1 % 16384 < 16128) ++ a.filter (fun e => e.2 != 0) ++ mine.filter fun e => 16256 ≤ e.1 % 16384
  let bad := eb.filter fun e => !own e.1 && err e.1 != 0
  let s1 := (eb.filter fun e => own e.1).foldl (fun s e => s.count (e.1 / 16384) 1) (s.modDp fun d => { d with egress := out })
  bad.foldl (fun s e =>
    let m := 0x20 + e.1 / 131072
    if err e.1 = 1 then s.memCorrect m (e.1 % 131072 / 16384 * 32768 + half * 16384 + e.1 % 16384)
    else (s.modMemRun m (MemRun.note false)).raise 22) s1

/-! ### Mappers (R42, R93, R96, R97) -/

/-- What a mapper gives the line for a context: 0 tributary data, 1 ODU-AIS, 2 ODU-LCK, 3 ODU-OCI (R97, R99, R269). -/
def State.mapKind (s : State) (t : Nat) (x : EgRun) : Nat :=
  if x.openNow then 3
  else match s.bank2.bindOf 1 t, tfind s.key.binds (16384 + t) with
    | some _, some r => if r.failed != 0 then 2 else x.jMaint.toNat
    | _, _ => x.jMaint.toNat

/-- One egress context in the frame: it reads the data announced one frame ago, and the justification word of ingress frame
m-1. -/
def State.mapOut (s : State) (word : Nat → W64) (t : Nat) (c : CtxCfg) : EgRun × Bool :=
  let x := tget {} s.dp.eg t
  let k := s.mapKind t x
  let words := ((c.positions x.jC).filter (·.2)).map fun p => word p.1
  let j := word (16000 + c.idx.toNat)
  let ok := jValid j (s.cfn - 1) c.n
  let y : EgRun := { x with
    out := if (k = 2 && x.jMaint != 2) || (k = 3 && x.openNow) then [] else words, outKind := k
    jC := if ok then jCount j else 0, jMaint := if ok then jMaintOf j else 0, lastC := jCount j, lastCnd := jCnd j, srcIdx := jSrc j }
  (if ok then { y with bad := 0, maintCnt := tmod 0 y.maintCnt (jMaintOf j).toNat fun k => satAdd k 1 }
   else { y with bad := min 8 (y.bad + 1), justErr := satAdd y.justErr 1 }, ok)

/-- The active egress contexts that the mappers use (R137). -/
def State.egActive (s : State) : Tbl CtxCfg := (s.bank2.ctxs (s.bank2.sets s.idx2) 1).filter fun e => e.2.active

/-- The mappers' part of the frame. A context whose word is valid after it was open closes at the boundary (R97). -/
def State.mapFrame (s : State) : State :=
  let ctxs := s.egActive.filter fun e => !s.staleStream e.2.stream.toNat
  ctxs.foldl (fun z e =>
    let st := e.2.stream.toNat
    let r := s.mapOut (fun col => tget 0 s.dp.egress (st * 16384 + col)) e.1 e.2
    let close := r.2 && r.1.openNow
    let z := (z.modDp fun d => { d with eg := tput {} d.eg e.1 { r.1 with openNow := r.1.openNow && !close } }).count (256 + st) (b2n (!r.2))
    if close then z.event 0x4301 0 (leBytes 2 e.1) else z) s

/-- The encrypt pipelines work on what the mappers rebuild, before it enters the line signal; the second context of a SHDW pair
follows in lock step (R252, R253, R257, R259). A pipeline that is fail-closed or gets no tributary data stands idle. -/
def State.encryptFrame (s : State) : State :=
  (s.egActive.filter fun e => !s.staleStream e.2.stream.toNat && (tfind s.key.binds (16384 + e.1)).isSome).foldl (fun z e =>
    match s.bank2.bindOf 1 e.1 with
    | none => z
    | some b =>
      let x := tget {} z.dp.eg e.1
      let r := z.key.run (16384 + e.1)
      let q := if r.failed != 0 || x.openNow then (r.pipe.idle, x.out) else r.pipe.words true x.out
      let z := (z.modDp fun d => { d with eg := tput {} d.eg e.1 { x with out := q.2 } }).modKey
        (Key.modRun (16384 + e.1) fun y => { y with pipe := q.1 })
      match s.bank2.encPartner e.1 b.slot with
      | some p => z.modKey fun k => k.modRun p fun _ => k.run (16384 + e.1)
      | none => z) s

/-- The mapper of a stream multiplexes: all do but that of an ODU4 carried whole, which sends no MSI (R88). -/
def State.multiplexes (s : State) (act : Tbl CtxCfg) (st : Nat) : Bool :=
  s.serves st && !(s.otlStream st && act.any fun e => e.2.stream.toNat = st && e.2.type = 5)

/-- The MSI of each slice: for each line slot the TPN of the egress context that holds it, or none where it is unallocated (R89). -/
def State.msiFrame (s : State) : State :=
  let act := s.egActive
  s.modDp fun d => { d with txMsi := ((List.range 128).filter (s.multiplexes act)).map fun st =>
    (st, (List.range (if s.otlStream st then 80 else 20)).map fun k =>
      ((act.find? fun e => e.2.stream.toNat = st && (((tget {} d.eg e.1).slots.getD e.2.lineTs).getLsbD k)).map fun e => e.2.tpn.toNat)) }

/-- One test word against the checker: whether it is in error (R42). -/
def Checker.word (c : Checker) (w : W64) : Checker × Bool :=
  (List.range 64).foldl (fun (p : Checker × Bool) i =>
    let b := w.getLsbD i
    let want := p.1.hist.getLsbD 30 != p.1.hist.getLsbD 27
    ({ p.1 with hist := (p.1.hist <<< 1) ||| BitVec.ofNat 31 (b2n b), seen := min 31 (p.1.seen + 1) },
     p.2 || (31 ≤ p.1.seen && b != want))) (c, false)

/-- The egress test checks; a check that is newly enabled starts afresh. -/
def State.checkFrame (inp : FrameInput) (s : State) : State :=
  let on := (List.range 128).filter inp.testCheck.contains
  let r := on.map fun st =>
    let c := tget {} s.dp.checks st
    let q := (List.range 64).foldl (fun (p : Checker × Nat) i =>
      let w := p.1.word (tget 0 s.dp.egress (st * 16384 + 16320 + i))
      (w.1, p.2 + b2n w.2)) (({ c with on := true } : Checker), 0)
    (st, q)
  r.foldl (fun s e => s.count (128 + e.1) e.2.2) (s.modDp fun d => { d with checks := r.map fun e => (e.1, e.2.1) })

/-! ### The frame (R100, R125) -/

/-- Upsets of stored words: those of the half being read, or of the half being filled. -/
def State.upset (inp : FrameInput) (filling : Bool) (s : State) : State :=
  let h (r : Nat) : Bool := filling = (r = s.cfn.toNat % 2)
  (inp.pondUpsets.filter fun u => u.unit < 132 && u.word < 32768 && h (u.word / 16384)).foldl (fun s u =>
    s.modPond u.unit fun p => { p with bad := tmod 0 p.bad u.word (· ^^^ u.mask) }) s

def State.upsetBuffers (inp : FrameInput) (s : State) : State :=
  s.modDp fun d => { d with ebBad := (inp.ebufUpsets.filter fun u => u.unit < 128 && u.word < 32768).foldl (fun t u =>
    tmod 0 t (u.word / 16384 * 2097152 + u.unit * 16384 + u.word % 16384) (· ^^^ u.mask)) d.ebBad }

def State.upsetMaps (inp : FrameInput) (s : State) : State :=
  s.modSch fun c => (inp.mapUpsets.filter fun u => u.unit < 3 && u.word < 2097152).foldl (fun c u =>
    c.modBank u.unit fun b => { b with mapBad := tmod 0 b.mapBad u.word (· ^^^ u.mask) }) c

/-- Everything the data path does in frame m. -/
def State.dataFrame (inp : FrameInput) (s : State) : State :=
  let s := ((s.upset inp false).upsetMaps inp).crossbarFrame
  let s := (((s.upsetBuffers inp).readoutFrame).mapFrame).encryptFrame.msiFrame
  let d := (s.checkFrame inp).decryptFrame inp
  (d.2.ingressFrame d.1).upset inp true

/-! ### Contexts at a boundary (R89, R154, R220, R246) -/

/-- A terminating ODU_TCM item on the context demands ODU-AIS in its place (R246). -/
def State.tcmAis (s : State) (t : Nat) : Bool :=
  s.presentBank.items.any fun i => i.func = 0x21 && !i.monitor && i.kind = 4 && i.obj = t &&
    (s.eng.desc i.ep).tcmMode = 0 && sfDefects (s.eng.ep i.ep).defects (s.eng.desc i.ep)

/-- The received MSI of a context's slice differs from the context on one of its line slots (R89). Before a first MSI there is
nothing to compare. -/
def State.msiMismatch (s : State) (t : Nat) (c : CtxCfg) : Bool :=
  (tfind s.dp.rxMsi c.stream.toNat).any fun l =>
    (ones 80 ((tget {} s.dp.ing t).slots.getD c.lineTs).toNat).any fun k => l.getD k none != some c.tpn.toNat

/-- A resize runs on context `t` of direction `dir`. -/
def Dp.resizing (d : Dp) (dir t : Nat) : Bool := d.resizes.any fun z => (if dir = 0 then z.ing else z.eg) = t

/-- The line slots that a running handshake fixes for the frame that begins; a handshake that has ended or never ran fixes none (R104,
R106). -/
def Dp.lcrBoundary (l : List (Nat × Nat × BitVec 80)) (d : Dp) : Dp :=
  let run (dir : Nat) := l.filter fun e => e.1 = dir && d.resizing dir e.2.1
  { d with
    ing := (run 0).foldl (fun t e => tmod {} t e.2.1 fun x => { x with slots := some e.2.2 }) d.ing
    eg := (run 1).foldl (fun t e => tmod {} t e.2.1 fun x => { x with slots := some e.2.2 }) d.eg }

/-- An ODU4 carried whole: the one on a stream of an OTU4 group (R88). -/
def State.wholeOdu4 (s : State) (c : CtxCfg) : Bool := c.type = 5 && s.otlStream c.stream.toNat

/-- dMSIM, dLOFLOM and ODU-AIS of the contexts in the frame that begins, their defects found in the frame that ended (R206), with the line slots that a resize handshake fixed for it
(R89, R104, R105). -/
def State.ingBoundary (inp : FrameInput) (s : State) : State :=
  let s := s.modDp fun d => { d.lcrBoundary inp.lcr with rxMsi := inp.msi.foldl (fun t e => tins t e.1 e.2) d.rxMsi }
  s.ingActive.foldl (fun s e => s.modDp fun d => { d with ing := tmod {} d.ing e.1 fun x =>
    let y := { x with msim := s.msiMismatch e.1 e.2, loflom := inp.loflom.contains e.1 && s.wholeOdu4 e.2, ais := s.tcmAis e.1 }
    { y with seen := y.defects } }) s

/-- The mappers take up another configuration: a held count goes on to the context with the same stream and IDX, and a context that
becomes active takes the word that has reached its justification column (R154, R190, R195). Other state goes by context number
(R152). -/
def State.carryCounts (old : Tbl CtxCfg) (oldBank : Bank) (s : State) : State :=
  let hold (c : CtxCfg) : Nat × BitVec 2 :=
    match old.find? fun o => o.2.stream = c.stream && o.2.idx = c.idx with
    | some o => ((tget {} s.dp.eg o.1).jC, (tget {} s.dp.eg o.1).jMaint)
    | none =>
      let j := tget 0 s.dp.egress (c.stream.toNat * 16384 + 16000 + c.idx.toNat)
      if jValid j (s.cfn - 2) c.n then (jCount j, jMaintOf j) else (0, 0)
  let known := s.dp.eg.filter fun e => s.bank2.everActive 1 e.1
  let put (h : Nat × BitVec 2) (x : EgRun) : EgRun := { x with jC := h.1, jMaint := h.2 }
  let eg := s.egActive.foldl (fun (t : Tbl EgRun) e => tmod {} t e.1 fun x =>
    put (hold e.2) { x with slots := slotsAfter (tget {} oldBank.eg e.1) (tget {} s.bank2.eg e.1) x.slots }) (tmap (fun _ x => put (0, 0) x) known)
  s.modDp fun d => { d with eg := eg }

end Sys2Proof.Machine
end

