-- ==== Sys2Proof/Machine/Power.lean ====
section
/-!
DEFINITION. The power manager: thermal sampling, adaptive voltage scaling over PMBus, island gating, Hold and resume, and
the GPIO pins (chapters 18 and 21).
-/

namespace Sys2Proof.Machine

/-! ### Thermal sampling (R421, R422) -/

def tempInRange (t : Int) : Bool := -550 ≤ t && t ≤ 1500

/-- Twice the median of a list, the mean of the two middle values where their number is even (log entry 36). -/
def median2 (l : List Int) : Int :=
  let m := l.mergeSort fun a b => a ≤ b
  (m[(m.length - 1) / 2]?).getD 0 + (m[m.length / 2]?).getD 0

/-- A sensor's reading is valid: within range, and on the core die within 15 °C of the median of the others. -/
def sensorOk (t : List Int) (i : Nat) : Bool :=
  let v (k : Nat) : Int := (t[k]?).getD 0
  let others := ((List.range 8).filter fun k => k != i && tempInRange (v k)).map v
  tempInRange (v i) && (8 ≤ i || others.isEmpty || (2 * v i - median2 others).natAbs ≤ 300)

/-- The sensors of each die: the core die, then the quadrants. -/
def dieSensors : List (List Nat) := [[0, 1, 2, 3, 4, 5, 6, 7], [8, 9], [10, 11], [12, 13], [14, 15]]

/-- The reading a die gives, from (sensor, valid, reading): its highest valid one, or 110 °C. -/
def dieReading (l : List (Bool × Int)) : Int :=
  match (l.filter (·.1)).map (·.2) with
  | [] => 1100
  | x :: r => r.foldl max x

/-- The sensors as last sampled. -/
def Pwr.sensors (p : Pwr) (l : List Nat) : List (Bool × Int) := l.map (tget (false, 0) p.temps)

def Pwr.tmax (p : Pwr) : Int := (dieSensors.map fun l => dieReading (p.sensors l)).foldl max (-32768)

/-- The sensors that give Tmax; of a die with no valid sensor, all of its own. -/
def Pwr.hottest (p : Pwr) : List Nat :=
  dieSensors.flatMap fun l =>
    if dieReading (p.sensors l) != p.tmax then []
    else if (p.sensors l).all (fun x => !x.1) then l
    else l.filter fun i => tget (false, 0) p.temps i = (true, p.tmax)

/-- The faults of a sample: invalid sensors, and 16 + q where the sensors of quadrant q disagree by more than 15 °C. -/
def Pwr.sampleFaults (p : Pwr) : List Nat :=
  let v (i : Nat) : Bool × Int := tget (false, 0) p.temps i
  (List.range 16).filter (fun i => !(v i).1) ++
  ((List.range 4).filter fun q => (v (8 + 2 * q)).1 && (v (9 + 2 * q)).1 && 150 < ((v (8 + 2 * q)).2 - (v (9 + 2 * q)).2).natAbs).map (16 + ·)

/-- The sensor that a fault concerns: of two that disagree, the one whose reading is used. -/
def Pwr.faultSensor (p : Pwr) (f : Nat) : Nat :=
  if f < 16 then f
  else
    let a := 8 + 2 * (f - 16)
    if (tget (false, 0) p.temps a).2 < (tget (false, 0) p.temps (a + 1)).2 then a + 1 else a

def State.therm (kind sensor : Nat) (t : Int) (s : State) : State := s.event 0x4A01 kind (BitVec.ofNat 8 sensor :: leBytes 2 (toS 16 t))

/-- Store a sample, report its faults and name the hottest sensor; which of several is free. -/
def State.takeSample (readings : List Int) (s : State) : State :=
  let d := s.draw 4
  let temps : Tbl (Bool × Int) := (List.range 16).map fun i => (i, sensorOk readings i, (readings[i]?).getD 0)
  let p := { s.pwr with temps := temps }
  let hot := p.hottest
  let p := { p with hot := BitVec.ofNat 4 ((hot[d.1.toNat % max 1 hot.length]?).getD 0), faults := p.sampleFaults }
  let p := if p.faults.isEmpty then p else p.flag 3
  (p.faults.filter fun f => !s.pwr.faults.contains f).foldl
    (fun s f => s.therm 4 (p.faultSensor f) (tget (false, 0) temps (p.faultSensor f)).2) { d.2 with pwr := p }

/-- The thermal steps: warning from 100 °C down to 95 °C, trip from 110 °C down to 100 °C. -/
def State.thermalSteps (s : State) : State :=
  let t := s.pwr.tmax
  let hot := s.pwr.hot.toNat
  let s := if !s.pwr.warn && 1000 ≤ t then (s.modPwr fun p => { (p.flag 5) with warn := true }).therm 1 hot t
    else if s.pwr.warn && t < 950 then (s.modPwr fun p => { p with warn := false }).therm 3 hot t else s
  if !s.pwr.trip && 1100 ≤ t then
    let s := (s.modPwr fun p => { (p.flag 4) with trip := true }).therm 2 hot t
    if s.glb.released && s.glb.mode.running && s.glb.mode != .hold then s.trigger .hold else s
  else if s.pwr.trip && t < 1000 then s.modPwr fun p => { p with trip := false }
  else s

/-- A valid sensor lies outside the tamper range of R418. -/
def Pwr.tamperTemp (p : Pwr) : Bool := p.temps.any fun e => e.2.1 && (e.2.2 < -400 || 1250 < e.2.2)

/-- The sixteen sensors are sampled, every 1 ms. -/
def execTempSample (readings : List Int) (s : State) : Result :=
  done (if !s.rst.powered || s.rst.phase = .inReset then s
    else
      let s := (s.takeSample readings).thermalSteps
      if s.pwr.tamperTemp && !s.key.tamperSet.contains 0x0A then s.tamper 0x0A else s)

/-! ### Adaptive voltage scaling (R419, R420, R422, R463) -/

/-- VDD_CORE as commands and events report it: the measured value, or the commanded one before the first poll and while the
loop is stopped on a PMBus failure (log entry 36). -/
def Pwr.vcore (p : Pwr) : W16 := if p.avsHeld || p.measMv = 0 then p.cmdMv else p.measMv

/-- Set a sticky bit of `PWR.STAT`, and post AVS where it was clear. -/
def State.avsNote (bit kind : Nat) (s : State) : State :=
  if s.pwr.sticky.getLsbD bit then s
  else (s.modPwr (Pwr.flag bit)).event 0x4A02 kind (leBytes 2 s.pwr.vcore.toNat)

/-- A step of 5 mV within 650 mV to 800 mV. -/
def State.avsStep (up : Bool) (s : State) : State :=
  let v := if up then s.pwr.cmdMv.toNat + 5 else s.pwr.cmdMv.toNat - 5
  let c := max 650 (min 800 v)
  let s := s.modPwr fun p => { p with cmdMv := BitVec.ofNat 16 c, stepDue := none }
  if c != v then s.avsNote 0 2 else s

/-- The speed monitors are counted, every 1 ms. A step that falls due while PMBus is retrying waits. -/
def execAvsTick (counts : List Nat) (s : State) : Result :=
  done (if !s.pwr.avsOn then s
    else
      let slow := minOf counts
      let target := Config.avsTarget s.rst.trim
      let run := if 103 * target < 100 * slow then s.pwr.highRun + 1 else 0
      let step : Option Bool := if slow < target then some true else if run = 100 then some false else none
      let s := s.modPwr fun p => { p with highRun := if run = 100 then 0 else run }
      match step with
      | none => s
      | some up => if s.pwr.retries = 0 then s.avsStep up else s.modPwr fun p => { p with stepDue := some up })

/-- A STATUS_WORD that shows a fault sets RAIL_FAULT. -/
def State.railStatus (w : W16) (s : State) : State := if w &&& Config.pmbusFaults != 0 then s.avsNote 1 3 else s

/-- READ_VOUT and STATUS_WORD are polled, every 100 ms while the loop runs. -/
def execAvsPoll (readVoutMv : Nat) (statusWord : W16) (s : State) : Result :=
  done (if s.pwr.avsOn then (s.modPwr fun p => { p with measMv := BitVec.ofNat 16 readVoutMv }).railStatus statusWord else s)

/-- PMBUS_ALERT_N goes low: STATUS_WORD is read at once. -/
def execPmbusAlert (statusWord : W16) (s : State) : Result := done (s.railStatus statusWord)

/-- A failed PMBus transaction is retried, 3 times at 10 ms intervals and then once per second. -/
def execPmbusRetry (success : Bool) (s : State) : Result :=
  done (if success then
      let s := s.modPwr fun p => { p with retries := 0, avsHeld := false, avsOn := p.avsOn || (p.avsHeld && p.avsEnable) }
      match s.pwr.stepDue with
      | some up => if s.pwr.avsOn then s.avsStep up else s
      | none => s
    else if s.pwr.avsHeld then s
    else if s.pwr.retries < 2 then s.modPwr fun p => { p with retries := p.retries + 1 }
    else
      let s := s.modPwr fun p => { (p.flag 2) with retries := 3, avsHeld := true, avsOn := false }
      s.event 0x4A02 1 (leBytes 2 s.pwr.vcore.toNat))

/-- A write of `PWR.AVS_CFG`: on enable VOUT_COMMAND sets 0.72 V; the loop does not run in P3. -/
def Pwr.avsConfig (v : W32) (p : Pwr) : Pwr :=
  let en := v.getLsbD 31
  { p with
    avsEnable := en, avsPec := v.getLsbD 7, avsAddr := v.setWidth 7, avsOn := en && (p.avsOn || !p.avsEnable)
    cmdMv := if en && !p.avsEnable then 0x2D0 else p.cmdMv, highRun := if en && !p.avsEnable then 0 else p.highRun
    avsHeld := en && p.avsHeld, retries := if en then p.retries else 0, stepDue := if en then p.stepDue else none }

/-! ### Island gating (R415) -/

/-- The three banks. -/
def State.banks (s : State) : List Bank := [s.sch.bank0, s.sch.bank1, s.sch.bank2]

/-- The context that a binding of a bank names, or one of its alternatives, lies on a stream of the clusters of cipher island `i`. -/
def Bank.bindIn (b : Bank) (key i : Nat) : Bool :=
  (tget ({} : CtxCfg) (if key < 16384 then b.ing else b.eg) (key % 16384)).stream.toNat / 64 = i ||
  b.alt.any fun e => e.1 / 4096 = key && e.2.stream.toNat / 64 = i

/-- An island of the gated-island mask is in use: a cluster pair, an engine island or a cipher island. -/
def State.islandUsed (s : State) (bit : Nat) : Bool :=
  let lanes (lo n : Nat) : Bool := s.lanes.any fun e => lo ≤ e.1 && e.1 < lo + n && e.2.role != .off
  if bit < 16 then lanes (8 * bit) 8 || s.banks.any fun b => (List.range 8).any fun i => b.names (8 * bit + i)
  else if bit < 20 then lanes (32 * (bit - 16)) 32 || s.banks.any fun b => b.epwl.any fun e => e.1 / 256 = bit - 16 && !e.2.items.isEmpty
  else s.rst.variant != 2 && s.banks.any fun b => b.ckey.any fun e => e.2.active && b.bindIn e.1 (bit - 20)

/-- The gated-island mask as reported: the cipher islands of the SLG9128-N stay gated (R1). -/
def State.gatedMask (s : State) : BitVec 32 := if s.rst.variant = 2 then s.pwr.gated ||| 0x300000 else s.pwr.gated

/-- A lane's registers after its island lost power: their values are free (log entry 36). -/
def Lane.lost (n : Nat) (l : Lane) : Lane :=
  let cfg : W32 := Config.freeValue 32 n &&& 0xFFFFF03F#32
  { phyCfg := cfg, phyTx := cfg, phyRx := Config.freeValue 3 (n + 1), sticky := Config.freeValue 6 (n + 2), stSticky := Config.freeValue 4 (n + 3)
    signal := l.signal }

/-- An engine after its island's reset or gating: it restarts, and a retired one stays retired (R217). -/
def EngRun.restart (r : EngRun) : EngRun :=
  { r with state := if r.state = .retired then .retired else .inService, covering := none, faulted := false, readmit := false, testBad := false }

/-- An engine island loses its scratchpads, its endpoint store and its instruction stores, and its engines restart (R414). -/
def State.loseEngines (q : Nat) (s : State) : State :=
  let s := [0x06 + q, 0x0A + q, 0x0E + q].foldl (fun s m => s.marchUndefined m s.drawn) s
  { s with drawn := s.drawn + 1 }.modEng fun e => { e with engs := tmap (fun k (r : EngRun) => if k / 256 = q then r.restart else r) e.engs }

/-- A cipher island loses what its pipelines hold, except that a retired one stays retired (R278). The slot-state table of the cipher islands is lost, and then free, once both are gated (DESIGN CHOICE, log entry 36). -/
def State.loseCiphers (i : Nat) (s : State) : State :=
  let s := s.modKey fun k => { k with
    pipes := tmap (fun p (x : Pipe) => if p / 256 = i then (if x.state = 1 then { state := 1 } else {}) else x) k.pipes
    spare := k.spare.filter fun e => e.2 / 256 != i }
  if s.rst.variant != 2 && s.pwr.gated.getLsbD 20 && s.pwr.gated.getLsbD 21 then { s.marchUndefined 0x18 s.drawn with drawn := s.drawn + 1 }
  else s

/-- Gate an island: nothing in it is retained. -/
def State.gate (bit : Nat) (s : State) : State :=
  let s := s.modPwr fun p => { p with gated := setBit p.gated bit true }
  if bit < 16 then
    { s with lanes := (List.range 8).foldl (fun t i => tmod {} t (8 * bit + i) (Lane.lost (s.drawn + 4 * i))) s.lanes, drawn := s.drawn + 32 }
  else if bit < 20 then s.loseEngines (bit - 16)
  else s.loseCiphers (bit - 20)

/-- In P1 an island unused for 97,657 frames is gated at a frame boundary. -/
def execIslandGate (bit : Nat) (s : State) : Result :=
  done (if bit < 22 && s.glb.released && s.glb.power = 1 && !s.pwr.gated.getLsbD bit && !s.islandUsed bit &&
      97657 ≤ since s.tick (tget 0 s.pwr.usedAt bit) then s.gate bit else s)

/-- At a boundary the islands in use are noted, and those gated run again. -/
def State.powerBoundary (s : State) : State :=
  let used := (List.range 22).filter s.islandUsed
  s.modPwr fun p => { p with
    usedAt := used.foldl (fun t i => tins t i s.tick) p.usedAt, gated := p.gated &&& ~~~ BitVec.ofNat 32 (maskOf used) }

/-! ### Commands (R345, R464) -/

def pwrHoldBody (_ : MbReq) (s : State) : Ans × State :=
  if !s.glb.released || !s.glb.mode.running || s.glb.mode = .hold then (.badState, s) else (.ok, s.trigger .hold)

def pwrHoldForm : Form := .fixed 0

/-- Enter Hold at the next boundary (R23). -/
def execPwrHold (r : MbReq) (s : State) : Result := mailboxRow 0x0A01 pwrHoldForm pwrHoldBody r s

def pwrResumeBody (_ : MbReq) (s : State) : Ans × State :=
  if s.glb.mode != .hold || 1000 ≤ s.pwr.tmax then (.badState, s) else (.ok, s.trigger .resume)

def pwrResumeForm : Form := .fixed 0

/-- Leave Hold at the next boundary (R23, R416). -/
def execPwrResume (r : MbReq) (s : State) : Result := mailboxRow 0x0A02 pwrResumeForm pwrResumeBody r s

def pwrStatusBody (_ : MbReq) (s : State) : Ans × State :=
  (⟨0, [s.glb.power.setWidth 8, 0] ++ leBytes 2 s.pwr.vcore.toNat ++
    (List.range 16).flatMap (fun i => leBytes 2 (toS 16 (tget (false, 0) s.pwr.temps i).2)) ++ leBytes 4 s.gatedMask.toNat⟩, s)

def pwrStatusForm : Form := .fixed 0

/-- Power state, VDD_CORE, temperatures and gated islands. -/
def execPwrStatus (r : MbReq) (s : State) : Result := mailboxRow 0x0A03 pwrStatusForm pwrStatusBody r s

def pwrGateUnusedBody (r : MbReq) (s : State) : Ans × State :=
  let on := r.u8 0 = 1
  let s := s.modPwr fun p => { p with gateOn := on }
  let s := if on then s else s.ungate 0x3FFFFF
  (.ok, s.modGlb fun g => { g with power := g.mode.power (BitVec.ofNat 2 (b2n on)) })

def pwrGateUnusedForm : Form := .fixed 1 fun r => r.u8 0 < 2

/-- Enter or leave P1 (R415). -/
def execPwrGateUnused (r : MbReq) (s : State) : Result := mailboxRow 0x0A04 pwrGateUnusedForm pwrGateUnusedBody r s

/-- The level a pin is driven to, or none where its output does not drive it. -/
def State.pinDriven (s : State) (p : Nat) : Option Bool :=
  if s.rst.ioHold then none
  else match tget 0 s.pwr.gpioFn p with
    | 0 => none
    | 1 => some (s.pwr.gpioOut.getLsbD p)
    | 2 => if s.pwr.gpioOut.getLsbD p then none else some false
    | _ => some (!(s.pwr.warn || s.pwr.trip))

def devGpioCfgBody (r : MbReq) (s : State) : Ans × State :=
  let p := r.u8 0
  if (tfind s.pwr.binds p).isSome || s.pwr.pinsTaken.contains (p, true) then (.noResource, s)
  else
    let s := s.modPwr fun w => { w with
      gpioFn := tput 0 w.gpioFn p (r.u8 1), gpioDrive := tput 0 w.gpioDrive p (r.u8 2), gpioPull := tput 0 w.gpioPull p (r.u8 3)
      gpioOut := setBit w.gpioOut p (r.u8 4 = 1)
      pinsTaken := if s.coreRuns then addNew w.pinsTaken (p, false) else w.pinsTaken }
    let d := s.draw 64
    let levels := (List.range 64).filter fun i => (s.pinDriven i).getD (d.1.getLsbD i)
    (⟨0, leBytes 8 (maskOf levels) ++ leBytes 8 (maskOf ((List.range 64).filter fun i => tget 0 s.pwr.gpioFn i != 0))⟩, d.2)

def devGpioCfgForm : Form := .fixed 5 fun r => r.u8 0 < 64 && r.u8 1 < 4 && r.u8 2 < 2 && r.u8 3 < 3 && r.u8 4 < 2

/-- Configure a GPIO pin; the level of a pin that the device does not drive is the outside's, and free here. -/
def execDevGpioCfg (r : MbReq) (s : State) : Result := mailboxRow 0x010B devGpioCfgForm devGpioCfgBody r s

end Sys2Proof.Machine
end

