-- ==== Sys2Proof/Machine/Perf.lean ====
section
/-!
DEFINITION. Event counters, snapshots, tagging, and test perturbation (chapter 20).
-/

namespace Sys2Proof.Machine

/-! ### Access (R448) -/

/-- Whether a master may use what PERF_ACCESS level `n` opens: the host at debug level D1 and above. -/
def State.perfMay (s : State) (m : BusMaster) (n : Nat) : Bool := m != .pcie || (1 ≤ s.rst.dbgLevel.toNat && n ≤ s.perf.access.toNat)

/-- An access of the counter block: refused with DENIED_EVT where the level does not allow it. -/
def State.perfAccess (m : BusMaster) (n : Nat) (f : Perf → Perf) (s : State) : State :=
  if s.perfMay m n then s.modPerf f else s.modPerf fun p => { p with denied := true }

/-! ### Control (R444, R453) -/

def Perf.setFreeze (v : Bool) (p : Perf) : Perf := { p with freeze := v }
def Perf.askSnapshot (p : Perf) : Perf := { p with reqSnap := true }
def Perf.askClear (p : Perf) : Perf := { p with reqClr := true }
def Perf.clearTags (p : Perf) : Perf := { p with tags := [], oldest := 0 }

/-- A write of `PERF.CTRL`. -/
def Perf.ctrl (v : W32) (p : Perf) : Perf :=
  let p := p.setFreeze (v.getLsbD 31)
  let p := if v.getLsbD 29 then p.askSnapshot else p
  let p := if v.getLsbD 26 then p.askClear else p
  { p with done := p.done && !v.getLsbD 28, denied := p.denied && !v.getLsbD 27 }

/-- A host write of `PERF.CTRL.FREEZE`. -/
def execPerfFreeze (freeze : Bool) (s : State) : Result := done (s.perfAccess .pcie 2 (Perf.setFreeze freeze))

/-- A host write of `PERF.CTRL.SNAPSHOT`. -/
def execPerfSnapshot (s : State) : Result := done (s.perfAccess .pcie 2 Perf.askSnapshot)

/-- A host write of `PERF.CTRL.CLEAR`. -/
def execPerfClear (s : State) : Result := done (s.perfAccess .pcie 2 Perf.askClear)

/-- What the control actions do at a boundary: the snapshot takes the counters as they stand before a clear; a request while
one runs has no effect. -/
def Perf.boundary (p : Perf) : Perf :=
  { p with
    copying := if p.reqSnap && p.copying.isNone then some p.cnt else p.copying
    cnt := if p.reqClr then [] else p.cnt, frozen := p.freeze, reqSnap := false, reqClr := false }

/-- The snapshot copy is complete. -/
def execPerfSnapshotDone (s : State) : Result :=
  done (match s.perf.copying with
    | some t => s.modPerf fun p => { p with snap := t, copying := none, done := true }
    | none => s)

/-! ### Tagging (R447, R449, R450) -/

/-- The four words of a tag record. -/
def tagWords (t : TagEvent) (cfn : Cfn) : W32 × W32 × W32 × W32 :=
  (BitVec.ofNat 32 (2 ^ 31 + t.src % 8 * 2 ^ 28 + (if t.src < 2 then 0 else t.engine % 256) * 2 ^ 20 + cfn.toNat % 65536), t.pc,
   BitVec.ofNat 32 (min t.latency 65535 * 65536 + (if t.src < 2 then 0 else t.item % 65536)),
   BitVec.ofNat 32 (t.flags.toNat * 2 ^ 28 + t.opclass.toNat))

/-- Put a record into the tag buffer of 256. -/
def Perf.tag (t : W32 × W32 × W32 × W32) (p : Perf) : Perf :=
  if p.tags.length < 256 then { p with tags := p.tags ++ [t] }
  else if p.tagCtrl.getLsbD 30 then { p with tags := p.tags.drop 1 ++ [t], oldest := p.oldest + 1 }
  else { p with dropped := true }

/-- The exponent K of a window of 2^K instructions: 4 to 20 (R449). -/
def Perf.tagK (p : Perf) : Nat := max 4 (min 20 (fld p.tagCtrl.toNat 16 5))

/-- The window of its source that a tagged instruction lies in, and whether that window had none yet (R447). -/
def Perf.tagWindow (t : TagEvent) (p : Perf) : Nat := t.issued / 2 ^ p.tagK
def Perf.tagOpen (t : TagEvent) (p : Perf) : Bool := tget 0 p.tagWin t.src ≤ p.tagWindow t

/-- A window is over with its tag, and the random state moves on to choose in the next one: how, the spec does not say (`Config.lfsrNext`). -/
def Perf.endWindow (t : TagEvent) (p : Perf) : Perf :=
  { p with tagWin := tput 0 p.tagWin t.src (p.tagWindow t + 1), lfsr := Config.lfsrNext p.lfsr }

/-- A tagged instruction completes, one in each window of its source (R447). A CP's written tags are counted (R443). -/
def execTagRecord (t : TagEvent) (s : State) : Result :=
  done (if 6 ≤ t.src || !s.perf.tagCtrl.getLsbD 31 || !s.perf.tagCtrl.getLsbD (24 + t.src) || !s.perf.tagOpen t then s
    else
      let kept := s.perf.tags.length < 256 || s.perf.tagCtrl.getLsbD 30
      let s := s.modPerf fun p => (p.endWindow t).tag (tagWords t s.recCfn)
      if kept && t.src < 2 then s.count (591 + 4 * t.src) 1 else s)

/-- A host write of `PERF.TAG_STAT.CLEAR`. -/
def execTagBufferClear (s : State) : Result := done (s.perfAccess .pcie 3 Perf.clearTags)

/-- `PERF.TAG_STAT` as read. -/
def Perf.tagStat (p : Perf) : Nat :=
  b2n (p.tags.length = 256) * 2 ^ 31 + b2n p.dropped * 2 ^ 30 + p.oldest.toNat * 2 ^ 17 + p.tags.length

/-- Word `w` of record `r`: the records lie from OLDEST on. -/
def Perf.tagWord (p : Perf) (r w : Nat) : W32 :=
  match p.tags[(r + 256 - p.oldest.toNat) % 256]? with
  | some (a, b, c, d) => if w = 0 then a else if w = 1 then b else if w = 2 then c else d
  | none => 0

/-- The counter block's registers by offset in the block (R449). -/
def Perf.read (p : Perf) (o : Nat) : W32 :=
  let half (c : BitVec 48) : W32 := BitVec.ofNat 32 (if o % 8 = 0 then c.toNat else c.toNat / 2 ^ 32)
  if o < 0x1800 then half (tget 0 p.cnt (o / 8))
  else if 0x2000 ≤ o && o < 0x3800 then half (tget 0 p.snap ((o - 0x2000) / 8))
  else if 0x4000 ≤ o && o < 0x4C00 then tget 0 p.cfg ((o - 0x4000) / 4)
  else if 0x6000 ≤ o && o < 0x6060 then tget 0 p.ovf ((o - 0x6000) / 4)
  else if o = 0x7000 then BitVec.ofNat 32 (b2n p.freeze * 2 ^ 31 + b2n p.frozen * 2 ^ 30 + b2n p.done * 2 ^ 28 + b2n p.denied * 2 ^ 27 + p.access.toNat)
  else if o = 0x7004 then p.tagCtrl
  else if o = 0x7008 then BitVec.ofNat 32 p.tagStat
  else if 0x8000 ≤ o && o < 0x9000 then p.tagWord ((o - 0x8000) / 16) (o % 16 / 4)
  else 0

/-- The PERF_ACCESS level that a read at an offset needs; `PERF.CTRL` and reserved addresses need none. -/
def perfReadLevel (o : Nat) : Option Nat :=
  if o = 0x7000 then none
  else if o < 0x1800 || (0x2000 ≤ o && o < 0x3800) || (0x6000 ≤ o && o < 0x6060) then some 1
  else if 0x4000 ≤ o && o < 0x4C00 then some 2
  else if o = 0x7004 || o = 0x7008 || (0x8000 ≤ o && o < 0x9000) then some 3
  else none

/-- A read of the counter block by a master: 0 and DENIED_EVT where the level does not allow it. -/
def State.perfRead (m : BusMaster) (o : Nat) (s : State) : W32 × State :=
  match perfReadLevel o with
  | none => (s.perf.read o, s)
  | some n => if s.perfMay m n then (s.perf.read o, s) else (0, s.modPerf fun p => { p with denied := true })

/-- A write of the counter block by a master. Counters, snapshots and tag records are read-only. -/
def State.perfWrite (m : BusMaster) (o : Nat) (v : W32) (s : State) : State :=
  if 0x4000 ≤ o && o < 0x4C00 then s.perfAccess m 2 fun p => { p with cfg := tput 0 p.cfg ((o - 0x4000) / 4) (v &&& 0xBFFFFFFF#32) }
  else if 0x6000 ≤ o && o < 0x6060 then s.perfAccess m 2 fun p => { p with ovf := tmod 0 p.ovf ((o - 0x6000) / 4) fun x => x &&& ~~~v }
  else if o = 0x7000 then s.perfAccess m 2 (Perf.ctrl v)
  else if o = 0x7004 then s.perfAccess m 3 fun p => { p with tagCtrl := v &&& 0xFF1F0000#32, tagWin := [] }
  else if o = 0x7008 then s.perfAccess m 3 fun p =>
    let p := { p with dropped := p.dropped && !v.getLsbD 30 }
    if v.getLsbD 16 then p.clearTags else p
  else if o < 0x1800 || (0x2000 ≤ o && o < 0x3800) then s.perfAccess m 2 id
  else if 0x8000 ≤ o && o < 0x9000 then s.perfAccess m 3 id
  else s

def diagPerfAccessBody (r : MbReq) (s : State) : Ans × State := (.ok, s.modPerf fun p => { p with access := BitVec.ofNat 2 (r.u8 0) })

def diagPerfAccessForm : Form := .fixed 1 fun r => r.u8 0 < 4

/-- Set the host's PERF_ACCESS level. -/
def execDiagPerfAccess (r : MbReq) (s : State) : Result := mailboxRow 0x0B30 diagPerfAccessForm diagPerfAccessBody r s

/-- An elastic buffer of an ingress cluster recentres (R16, R443). -/
def execElasticBufferRecentring (cluster : Nat) (s : State) : Result :=
  done (if cluster < 16 then s.count (748 + cluster) 1 else s)

/-! ### Perturbation (R451) -/

/-- A control may act: lane error injection at D1 and above; every other at D2 and D3, and not in Operational. -/
def Rst.pertMay (lane : Bool) (r : Rst) : Bool :=
  if lane then 1 ≤ r.dbgLevel.toNat && r.lc != .decommissioned else 2 ≤ r.dbgLevel.toNat && r.lc != .operational && r.lc != .decommissioned

/-- The perturbation registers by offset; reserved bits read 0. -/
def Pert.read (p : Pert) (o : Nat) : W32 :=
  if o = 0x00 then p.weir else if o = 0x04 then p.bp else if o = 0x08 then p.bell else if o = 0x0C then p.pond
  else if o = 0x10 then p.pondCfn.setWidth 32 else if o = 0x14 then BitVec.ofNat 32 (p.pondCfn.toNat / 2 ^ 32)
  else if o = 0x20 then p.lane else if o = 0x24 then p.stitch else if o = 0x28 then p.skew else if o = 0x2C then p.hb
  else if o = 0x30 then BitVec.ofNat 32 (b2n p.denied * 2 ^ 31) else 0

def Pert.write (o : Nat) (v : W32) (p : Pert) : Pert :=
  if o = 0x00 then { p with weir := v &&& 0xBF0000FF#32 }
  else if o = 0x04 then { p with bp := v &&& 0x8F00000F#32 }
  else if o = 0x08 then { p with bell := v &&& 0x8700FFFF#32 }
  else if o = 0x0C then { p with pond := v &&& 0xDFFFFFFF#32 }
  else if o = 0x10 then { p with pondCfn := BitVec.ofNat 48 (p.pondCfn.toNat / 2 ^ 32 * 2 ^ 32 + v.toNat) }
  else if o = 0x14 then { p with pondCfn := BitVec.ofNat 48 (v.toNat % 65536 * 2 ^ 32 + p.pondCfn.toNat % 2 ^ 32) }
  else if o = 0x20 then { p with lane := v &&& 0xC07FFF1F#32 }
  else if o = 0x24 then { p with stitch := v &&& 0xFC7FFFFF#32 }
  else if o = 0x28 then { p with skew := v &&& 0x80000007#32 }
  else if o = 0x2C then { p with hb := v &&& 0xFC00FFFF#32 }
  else p

def pertControl (o : Nat) : Bool := o = 0x00 || o = 0x04 || o = 0x08 || o = 0x0C || o = 0x10 || o = 0x14 || o = 0x20 || o = 0x24 || o = 0x28 || o = 0x2C

/-- A write of a perturbation register; one that the level or state does not allow sets DENIED. -/
def State.pertWrite (o : Nat) (v : W32) (s : State) : State :=
  if o = 0x30 then s.modPert fun p => { p with denied := p.denied && !v.getLsbD 31 }
  else if !pertControl o then s
  else if s.rst.pertMay (o = 0x20) then s.modPert (Pert.write o v)
  else s.modPert fun p => { p with denied := true }

/-- Controls that the present level or state no longer allows return to their reset values. -/
def State.pertLimit (s : State) : State :=
  s.modPert fun p =>
    if s.rst.pertMay false then p else { lane := if s.rst.pertMay true then p.lane else 0, denied := p.denied }

/-- A frame count of a control, one less. -/
def countDown (v : W32) : W32 := if v.getLsbD 31 && fld v.toNat 0 16 != 0 then v - 1 else v

/-- The actions of PERT.WEIR, PERT.BP and PERT.LANE come with the frame, and only while the control is enabled (R443, R451). -/
def Pert.acts (i : Nat) (p : Pert) : Bool :=
  if i = 740 then p.weir.getLsbD 31 else if i = 741 then p.bp.getLsbD 31 else if i = 744 then p.lane.getLsbD 31 else true

/-- The frame counts of PERT.STITCH and PERT.HB at a boundary; a frame in which heartbeats were suppressed is an action. -/
def State.pertBoundary (s : State) : State :=
  let hb := s.pert.hb.getLsbD 31 && fld s.pert.hb.toNat 0 16 != 0
  (s.count 747 (b2n hb)).modPert fun p => { p with
    stitch := countDown p.stitch, hb := countDown p.hb, hbRun := if p.hbMutes then p.hbRun + 1 else 0 }

/-- The frame count of PERT.STITCH (control 5) or PERT.HB (control 7) stands at 0, and EN clears. -/
def execPertCountdownEnd (control : Nat) (s : State) : Result :=
  let clear (v : W32) : W32 := if fld v.toNat 0 16 = 0 then v &&& 0x7FFFFFFF#32 else v
  done (s.modPert fun p => if control = 5 then { p with stitch := clear p.stitch } else if control = 7 then { p with hb := clear p.hb } else p)

end Sys2Proof.Machine
end

