-- ==== Sys2Proof/Machine/Device.lean ====
section
/-!
DEFINITION. The device's own commands: identity, life cycle, debug levels, JTAG, firmware images and the firmware log
(chapters 14 and 18).
-/

namespace Sys2Proof.Machine

/-- `GLB.DEV_ID` (R358). -/
def State.devId (s : State) : W32 := BitVec.ofNat 32 (0x9128 * 65536 + s.rst.variant.toNat * 4096 + 0xB00)

def devInfoBody (_ : MbReq) (s : State) : Ans × State :=
  (⟨0, leBytes 4 s.devId.toNat ++ leBytes 4 s.cps.version.toNat ++ leBytes 4 s.eng.ucodeId.toNat ++
    ([b2n s.cps.active, s.glb.mode.code, s.rst.lc.code, s.rst.dbgLevel.toNat, s.glb.power.toNat, s.cps.running, s.rst.count].map (BitVec.ofNat 8))⟩, s)

def devInfoForm : Form := .fixed 0

/-- Identity, firmware and states (R345). -/
def execDevInfo (r : MbReq) (s : State) : Result := mailboxRow 0x0101 devInfoForm devInfoBody r s

/-! ### Life cycle (R406-R411) -/

/-- Burn a state bit in both copies (R407, R409). -/
def FuseCopy.burn (st : LcState) (f : FuseCopy) : FuseCopy :=
  match st with
  | .operational => { f with bitO := 7 }
  | .fieldReturn => { f with bitF := 7 }
  | .decommissioned => { f with bitD := 7 }
  | _ => f

/-- The transition is burned and waits for the next boundary. -/
def State.burn (st : LcState) (s : State) : State :=
  s.modRst fun r => { r with fuse0 := r.fuse0.burn st, fuse1 := r.fuse1.burn st, lcPend := some st }

def devDecommissionBody (burnOk : Bool) (_ : MbReq) (s : State) : Ans × State :=
  if s.rst.lc != .operational && s.rst.lc != .fieldReturn then (.denied, s)
  else if s.rst.lcPend.isSome then (.busy, s)
  else if !burnOk then (.badState, s)
  else (.ok, (s.burn .decommissioned).trigger .decommission)

def devDecommissionForm : Form := .fixed 4 fun r => r.u32 0 = 0x44434F4D

/-- Decommission the device (R23, R408). -/
def execDevDecommission (r : MbReq) (burnOk : Bool) (s : State) : Result := mailboxRow 0x0102 devDecommissionForm (devDecommissionBody burnOk) r s

/-- An authorisation is valid for a command and its target (R411). -/
def State.authorised (s : State) (code target : Nat) (sig : List Byte) : Bool :=
  match s.rst.nonce with
  | some n => Config.authValid (leBytes 8 s.rst.uniqueId.toNat ++ n ++ leBytes 2 code ++ [BitVec.ofNat 8 target]) sig
  | none => false

/-- A command that consumes the nonce, whether it succeeds or not (R411). -/
def spendNonce (run : MbReq → State → Ans × State) (r : MbReq) (s : State) : Ans × State :=
  let p := run r s
  (p.1, p.2.modRst fun x => { x with nonce := none })

def devLcChallengeBody (_ : MbReq) (s : State) : Ans × State :=
  let d := s.draw 256
  let n := leBytes 32 d.1.toNat
  (⟨0, leBytes 8 s.rst.uniqueId.toNat ++ n ++ [BitVec.ofNat 8 s.rst.lc.code]⟩, d.2.modRst fun r => { r with nonce := some n })

def devLcChallengeForm : Form := .fixed 0

/-- A fresh nonce (R411). -/
def execDevLcChallenge (r : MbReq) (s : State) : Result := mailboxRow 0x0105 devLcChallengeForm devLcChallengeBody r s

def devLcAdvanceBody (burnOk : Bool) (r : MbReq) (s : State) : Ans × State :=
  let target : Option LcState :=
    if s.rst.lc = .provisioned && r.u8 0 = 2 then some .operational
    else if s.rst.lc = .operational && r.u8 0 = 3 && s.authorised 0x0106 3 (r.bytes 8 96) then some .fieldReturn
    else none
  match target with
  | none => (.denied, s)
  | some st => if s.rst.lcPend.isSome then (.busy, s) else if !burnOk then (.badState, s) else (.ok, s.burn st)

def devLcAdvanceForm : Form := .fixed 104 fun r => r.zero [(1, 3)] && r.u32 4 = 0x4C434144

/-- Advance the life cycle (R408, R409, R423). -/
def execDevLcAdvance (r : MbReq) (burnOk : Bool) (s : State) : Result :=
  done (s.request 0x0106 (spendNonce (runForm 0x0106 devLcAdvanceForm (devLcAdvanceBody burnOk))) r)

/-! ### Debug levels (R412, R413, R417) -/

/-- The highest level that a life-cycle state allows without authorisation, and with it. -/
def LcState.freeLevel : LcState → Nat
  | .blank => 3 | .provisioned => 2 | .operational => 1 | .fieldReturn => 3 | .decommissioned => 0

def LcState.authLevel : LcState → Nat
  | .provisioned => 3 | .operational => 2 | l => l.freeLevel

/-- Set the level: DEBUG_CHANGE with its cause, the wipe at entry to D3, and what the new level no longer allows. -/
def State.setDebug (level : Nat) (cause : Byte) (s : State) : State :=
  let old := s.rst.dbgLevel.toNat
  if level = old then s
  else
    let s := (s.modRst fun r => { r with dbgLevel := BitVec.ofNat 2 level, cpHalted := if level < 2 then 0 else r.cpHalted }).event 0x4104 level
      [BitVec.ofNat 8 old, cause]
    (if level = 3 then s.wipe else s).pertLimit

def devDebugSetBody (r : MbReq) (s : State) : Ans × State :=
  let l := r.u8 0
  if l ≤ s.rst.dbgLevel.toNat || l ≤ s.rst.lc.freeLevel || (l ≤ s.rst.lc.authLevel && s.authorised 0x0107 l (r.bytes 8 96))
  then (.ok, s.setDebug l 0)
  else (.denied, s)

def devDebugSetForm : Form := .fixed 104 fun r => r.u8 0 < 4 && r.zero [(1, 7)]

/-- Set the debug level (R413). -/
def execDevDebugSet (r : MbReq) (s : State) : Result :=
  done (s.ring 0x0107 (spendNonce (runForm 0x0107 devDebugSetForm devDebugSetBody)) r)

/-- A life-cycle transition takes effect (R409, R422): the wipe, the level, the tamper detectors, the perturbation controls. -/
def State.lcApply (new : LcState) (s : State) : State :=
  let old := s.rst.lc
  let s := (s.wipe.modRst fun r => { r with lc := new, lcPend := none, cpHalted := 0 }).event 0x4103 new.code [BitVec.ofNat 8 old.code]
  let s := s.setDebug (min s.rst.dbgLevel.toNat new.freeLevel) 1
  let s := s.modPert fun p => { denied := p.denied }
  if new = .operational || new = .decommissioned then s.modKey fun k => { k with tamperCfg := 0xF } else s

/-- A JTAG instruction sets the level, in Blank and Field-Return; in P3 only D3 is reachable. The cause byte of its event is
not stated, and free. -/
def execJtagDebugSet (level : Nat) (s : State) : Result :=
  let p3 := s.rst.phase = .shallows || s.rst.phase = .decommission
  done (if 3 < level || s.rst.phase = .inReset || (s.rst.lc != .blank && s.rst.lc != .fieldReturn) || (p3 && s.rst.dbgLevel.toNat < level && level != 3) then s
    else
      let d := s.draw 8
      d.2.setDebug level d.1)

/-- The first JTAG scan shift, at D3: every island clock but AO and PCIe stops until a cold reset. -/
def execJtagScan (s : State) : Result :=
  done (if s.rst.dbgLevel = 3 then s.modRst fun r => { r with scanDirty := true } else s)

/-- Fuses are programmed at test: a blank array becomes that of a Provisioned device at the next cold reset (R408). -/
def execJtagFuseProgram (variant : BitVec 4) (uniqueId : W64) (kekSeed trim repairs : List Byte) (s : State) : Result :=
  let f : FuseCopy := { trim := trim, repairs := repairs, variant := variant, uniqueId := uniqueId, kekSeed := kekSeed, bitP := 7 }
  let f := { f with crc := BitVec.ofNat 32 (crc32 f.bytes) }
  done (if s.rst.fuse0.blank && s.rst.fuse1.blank then s.modRst fun r => { r with fuse0 := f, fuse1 := f } else s)

/-! ### Firmware (R332, R333, R349) -/

/-- A chunk is written; the first erases the slot. Until its last chunk is verified the image is not valid. -/
def FwSlot.write (first : Bool) (o : Nat) (l : List Byte) (f : FwSlot) : FwSlot :=
  let base := if first then [] else f.data
  { (if first then {} else f) with valid := false, data := tover 0xFF o l base }

def fwInfoBody (_ : MbReq) (s : State) : Ans × State :=
  let slot (f : FwSlot) : List Byte := [BitVec.ofNat 8 (b2n f.valid), 0, 0, 0] ++ leBytes 4 f.version.toNat ++ leBytes 4 f.ucodeId.toNat ++
    leBytes 4 f.journal.toNat ++ leBytes 4 f.size.toNat
  (⟨0, [BitVec.ofNat 8 s.cps.bootPtr0, BitVec.ofNat 8 s.cps.running, 0, 0] ++ slot (s.cps.image 0) ++ slot (s.cps.image 1)⟩, s)

def fwInfoForm : Form := .fixed 0

/-- The boot pointer and the two slots. -/
def execFwInfo (r : MbReq) (s : State) : Result := mailboxRow 0x0C01 fwInfoForm fwInfoBody r s

/-- A transaction of the QSPI controller misses its limit: the controller is held in reset (R341, R396). -/
def State.flashStuck (s : State) : Bool := s.rst.inReset.getLsbD 40

def fwWriteBody (r : MbReq) (s : State) : Ans × State :=
  let k := r.u8 0
  let l := r.data.drop 8
  if s.flashStuck then (.timeout, s) else
  let s := s.modCps (Cps.modSlot k (FwSlot.write (bitOf (r.u8 1) 0) (r.u32 4) l))
  if !bitOf (r.u8 1) 1 then (.ok, s)
  else
    let s := s.modCps (Cps.modSlot k FwSlot.verify)
    if !(s.cps.slot k).valid then (.invalid, s)
    else (.ok, if s.rst.phase = .shallows then s.modRst fun x => { x with count := 0 } else s)

def fwWriteForm : Form := {
    len := fun r => max 8 r.length.toNat,
    fields := fun r => r.u8 0 < 2 && r.u8 1 < 4 && r.zero [(2, 2)] && r.u32 4 + (r.length.toNat - 8) ≤ 4194304 }

/-- Write a chunk of a firmware image. -/
def execFwWrite (r : MbReq) (s : State) : Result := mailboxRow 0x0C02 fwWriteForm fwWriteBody r s

def fwSelectBody (r : MbReq) (s : State) : Ans × State :=
  if !(s.cps.image (r.u8 0)).valid then (.invalid, s)
  else if s.flashStuck then (.timeout, s)
  else (.ok, s.modCps fun c => { c with
    bootPtr0 := r.u8 0, bootPtr1 := r.u8 0, bootCrc0 := BitVec.ofNat 32 (pointerCrc (r.u8 0)), bootCrc1 := BitVec.ofNat 32 (pointerCrc (r.u8 0)) })

def fwSelectForm : Form := .fixed 1 fun r => r.u8 0 < 2

/-- Select the slot to boot. -/
def execFwSelect (r : MbReq) (s : State) : Result := mailboxRow 0x0C03 fwSelectForm fwSelectBody r s

def fwRecoverStartBody (r : MbReq) (s : State) : Ans × State :=
  if s.glb.mode != .shallows then (.badState, s)
  else (.ok, s.modRst fun x => { x with count := 0, recoverSlot := some (r.u8 0), devReset := some 9 })

def fwRecoverStartForm : Form := .fixed 1 fun r => r.u8 0 < 2

/-- Leave Shallows: the start count clears, and a warm reset that boots the named slot follows. -/
def execFwRecoverStart (r : MbReq) (s : State) : Result := mailboxRow 0x0C05 fwRecoverStartForm fwRecoverStartBody r s

def diagLogBody (r : MbReq) (s : State) : Ans × State :=
  if s.rst.dbgLevel = 0 then (.denied, s)
  else
    let l := ((Config.firmwareLog s.drawn).drop (r.u32 0)).take 4072
    (⟨0, leBytes 4 l.length ++ l⟩, { s with drawn := s.drawn + 1 })

def diagLogForm : Form := .fixed 4

/-- The firmware log from an offset, at D1 and above. -/
def execDiagLog (r : MbReq) (s : State) : Result := mailboxRow 0x0B02 diagLogForm diagLogBody r s

end Sys2Proof.Machine
end

