-- ==== Sys2Proof/Machine/Functions.lean ====
section
/-!
DEFINITION. Function resets: requests, weirs, pending resets, release and its effects, and what else ends DMA transfers and
reopens mailboxes (chapters 15 and 17).
-/

namespace Sys2Proof.Machine

/-! ### Requests (R387, R388, R397) -/

/-- The island of the gated-island mask that a function is: cluster pairs 0-15, engine islands 16-19, cipher islands 20-21. -/
def funcIsland (f : Nat) : Option Nat :=
  if f < 18 then none else if f < 20 then some (f + 2) else if f < 24 then some (f - 4) else if f < 40 then some (f - 24) else none

/-- The clock of a function's island runs (R18, R388, R413, R415, R416). -/
def State.clockRuns (s : State) (f : Nat) : Bool :=
  (match funcIsland f with
   | some i => !s.gatedMask.getLsbD i && !(s.glb.released && s.glb.stopped.contains i) && s.glb.mode != .hold
   | none => true) &&
  (!s.rst.scanDirty || f = 2 || f = 3 || (7 ≤ f && f ≤ 14) || (40 ≤ f && f ≤ 42))

/-- Cipher island `i` has an active binding, in the Present or Past bank, on a stream of its clusters. -/
def State.cipherBound (s : State) (i : Nat) : Bool :=
  [s.presentBank, s.pastBank].any fun b => b.ckey.any fun e => e.2.active && b.bindIn e.1 i

/-- A request that the device refuses (R397). -/
def State.funcRefused (s : State) (f : Nat) : Bool :=
  s.rst.phase = .shallows || (f < 2 && f = s.activeOf 1) || ((f = 15 || f = 16) && f - 15 = s.activeOf 0) ||
  ((f = 18 || f = 19) && s.cipherBound (f - 18))

/-- A cold or warm reset is in progress, in which a request is discarded (R387). -/
def State.resetRuns (s : State) : Bool := s.rst.phase = .inReset || s.rst.phase = .fuseLoad || s.rst.phase = .march

/-- The data that a master's read brought. -/
def State.readAnswer (m : BusMaster) (v : W32) (s : State) : State :=
  s.modBus fun b => { b with readData := tput 0 b.readData (busIndex m) v }

/-- An access of PCIe that the weir of function `f` ends in an error (R356, R399): its BAR0 offset is recorded, which an access of PF1
does not have and which is free there (DESIGN CHOICE, log entry 39); a read brings all ones. -/
def State.weirError (f : Nat) (t : WeirTxn) (s : State) : State :=
  let s := if f = 3 then (fun d : BitVec 28 × State => d.2.accErr d.1.toNat (t.kind = 2) 2) (s.draw 28) else s.accErr t.addr (t.kind = 2) 2
  if t.kind = 1 then s.readAnswer .pcie (BitVec.allOnes 32) else s

/-- One record of the weir log, number n in entry n mod 16 (R400). -/
def State.weirRecord (f : Nat) (t : WeirTxn) (s : State) : State :=
  let i := s.rst.weirCount % 16
  let full := (tget (0, 0) s.rst.weirLog i).1.getLsbD 31
  let w : W32 × W32 := (BitVec.ofNat 32 (2 ^ 31 + t.kind % 8 * 2 ^ 28 + t.master % 16 * 2 ^ 24 + t.target % 16 * 2 ^ 20 + f * 2 ^ 14),
    BitVec.ofNat 32 (t.beats % 65536 * 65536 + s.recCfn.toNat % 65536))
  let s := ((s.modRst fun r => { r with weirLog := tins r.weirLog i w, weirCount := r.weirCount + 1 }).rstSticky 4).count 764 1
  let s := if full then s.rstSticky 3 else s
  if t.master = 4 && (t.kind = 1 || t.kind = 2) then s.weirError f t else s

/-- The responses that a mailbox still owes are discarded (R339). -/
def State.dropAnswers (mb : Nat) (s : State) : State :=
  (s.modMbx fun m => { m with waiting := m.waiting.map fun w => if w.req.mb = mb then { w with drop := true } else w }).modRst fun r => { r with
    funcAnswer := r.funcAnswer.map fun a => if a.mb = mb then { a with drop := true } else a }

/-- The function's reset is asserted: its weir completes what is in flight (R399), a BUSY mailbox will lose its response (R339),
and a standby leaves the READY state (R436). -/
def State.assertFunc (f : Nat) (txns : List WeirTxn) (s : State) : State :=
  let s := s.modRst fun r => { r with inReset := setBit r.inReset f true, pend := setBit r.pend f false }
  let s := (txns.filter fun t => 1 ≤ t.kind && t.kind ≤ 5).foldl (fun s t => s.weirRecord f t) s
  let s := if 7 ≤ f && f ≤ 14 then s.dropAnswers (f - 7) else s
  let resync (pair unit : Nat) (s : State) : State := s.modCps (Cps.modUnit pair unit fun u =>
    if u.state = .retired then u else { u with state := .resync, since := s.tick })
  if f < 2 then
    let s := resync 1 f s
    if s.cps.update.isSome then s.endUpdate 0x8003 else s
  else if f = 15 || f = 16 then (resync 0 (f - 15) s).modTim fun t => { t with aligned := false, stbReady := false, stbEst := 0 }
  else s

/-- A function reset is requested. The Bool tells whether it was refused. -/
def State.requestFunc (f : Nat) (txns : List WeirTxn) (s : State) : Bool × State :=
  if s.resetRuns || 44 ≤ f then (false, s)
  else if s.funcRefused f then (true, s.rstSticky 1)
  else if s.inReset f then (false, s)
  else if !s.clockRuns f then (false, ((s.modRst fun r => { r with pend := setBit r.pend f true }).rstSticky 0).count 765 1)
  else (false, s.assertFunc f txns)

/-- A write of `RST.FUNC_CTRL` (R402). -/
def State.funcCtrl (v : W32) (txns : List WeirTxn) (s : State) : State :=
  let s := s.modRst fun r => { r with funcSel := BitVec.ofNat 6 v.toNat }
  if v.getLsbD 31 then (s.requestFunc (fld v.toNat 0 6) txns).2 else s

def execFunctionResetRequest (v : W32) (txns : List WeirTxn) (s : State) : Result := done (s.funcCtrl v txns)

/-- A pending reset is applied once the island's clock runs (R388). -/
def execPendingResetApply (f : Nat) (txns : List WeirTxn) (s : State) : Result :=
  done (if f < 44 && s.rst.pend.getLsbD f && s.clockRuns f then s.assertFunc f txns else s)

/-- The function of a set at whose weir a transaction is: DMA-S and DMA-P own their bursts; every other belongs to the first. -/
def weirOwner (fs : List Nat) (t : WeirTxn) : Nat :=
  if 3 ≤ t.kind && t.master = 2 && fs.contains 4 then 4 else if 3 ≤ t.kind && t.master = 3 && fs.contains 5 then 5 else fs.headD 0

/-- Request the reset of several functions at once. -/
def State.requestFuncs (fs : List Nat) (txns : List WeirTxn) (s : State) : State :=
  fs.foldl (fun s f => (s.requestFunc f (txns.filter fun t => weirOwner fs t = f)).2) s

/-- A PCIe function level reset (R397). -/
def execPcieFlr (pf : Nat) (txns : List WeirTxn) (s : State) : Result :=
  done (if pf = 0 then s.requestFuncs [2] txns else if pf = 1 then s.requestFuncs [3, 4, 5] txns else s)

/-- PERST_N low (R397). -/
def execPerstNAssert (txns : List WeirTxn) (s : State) : Result :=
  done (s.requestFuncs [2, 3, 4, 5, 7, 8, 9, 10, 11, 12, 13, 14] txns)

/-! ### Effects (R398) -/

/-- A running load and a harvest record end without completion (R361). -/
def State.endDma (load harvest : Bool) (s : State) : State :=
  let s := if load && s.sch.load.isSome then s.rejectLoad { reason := 2 } else s
  if harvest && s.eng.harvest.running then
    ((s.modEng fun e => { e with harvest := e.harvest.over }).modGlb fun g =>
      { g with dmaPBusy := false }).count 556 1
  else s

/-- Nganas reloads the microcode of an engine island after its reset (R398): the reload ends at the next frame boundary at which the
island runs and the active CP serves (DESIGN CHOICE, log entry 39). -/
def State.reloadMicrocode (s : State) : State :=
  let due := (List.range 4).filter fun q => (tfind s.eng.istore q).isNone && !s.inReset (20 + q) && s.clockRuns (20 + q)
  if due.isEmpty || !s.cpServes then s
  else s.modEng fun e => { e with istore := due.foldl (fun t q => tins t q e.ucodeId) e.istore }

/-- An engine island is reset: its work lists are cleared in every bank, its microcode is to be reloaded, and its endpoints are
UNSERVED. -/
def State.resetEngines (q : Nat) (s : State) : State :=
  let eps := (s.bank1.items.map (·.ep)).filter fun e => e / 65536 = q
  let wipe (b : Bank) : Bank := { b with epwl := b.epwl.filter fun e => e.1 / 256 != q }
  (s.modEng fun e => { e with
    orphans := eps.foldl addNew e.orphans, istore := tdel e.istore q
    engs := tmap (fun k r => if k / 256 = q then r.restart else if r.covering.any (· / 256 = q) then { r with covering := none } else r) e.engs }).modSch
    fun c => { c with bank0 := wipe c.bank0, bank1 := wipe c.bank1, bank2 := wipe c.bank2, copySnap := c.copySnap.map wipe, pastValid := false }

/-- A lane group is deleted with its lanes, as by GRP_DELETE. -/
def State.dropGroup (g : Nat) (s : State) : State :=
  match s.grp g with
  | none => s
  | some x =>
    { s with grps := tdel s.grps g, lanes := (List.range x.lanes).foldl (fun t i => tmod {} t (g + i) Lane.toOff) s.lanes }.modSch
      (Sch.streamsChanged (groupStreams g x))

/-- A bank without the mapper and demapper copies of a cluster. -/
def Bank.dropCluster (j : Nat) (b : Bank) : Bank :=
  let mine (c : CtxCfg) : Bool := c.stream.toNat / 8 = j
  { b with ing := b.ing.filter fun e => !mine e.2, eg := b.eg.filter fun e => !mine e.2, alt := b.alt.filter fun e => !mine e.2 }

/-- A lane cluster is reset. -/
def State.resetCluster (j : Nat) (s : State) : State :=
  let gone := (s.grps.filter fun e => e.1 < 8 * j + 8 && 8 * j < e.1 + e.2.lanes).map Prod.fst
  let stitch := ((List.range 8).map (8 * j + ·)).filter s.stitch
  let hit := s.domainOpen && stitch.any s.domainLanes.contains
  let s := gone.foldl (fun s g => s.dropGroup g) s
  let s := { s with lanes := (List.range 8).foldl (fun t i => tmod {} t (8 * j + i) fun l =>
    { signal := l.signal, phyCfg := l.phyCfg, phyTx := l.phyTx, phyRx := l.phyRx }) s.lanes }.modSch (Sch.streamsChanged stitch)
  let s := s.modSch fun c => { c with
    bank0 := c.bank0.dropCluster j, bank1 := c.bank1.dropCluster j, bank2 := c.bank2.dropCluster j
    copySnap := c.copySnap.map (Bank.dropCluster j), pastValid := false }
  if hit then s.deferArmed 5 else s

/-- An island that was stale has had its reset (R18). -/
def Rst.unstale (island : Nat) (r : Rst) : Rst := { r with stale := without r.stale island }

/-- A cipher island's reset: one that was stale takes up the banks in force. -/
def State.unstaleCipher (island : Nat) (s : State) : State :=
  if s.rst.stale.contains (20 + island) then (s.modRst (Rst.unstale (20 + island))).restartBinds island else s

/-- A mailbox after its reset reads CLOSED until the active CP reopens it (R339, R398). -/
def Mb.reset (b : Mb) : Mb := { state := .closed, req := b.req, resp := b.resp }

def Key.leave (owner : Nat) (k : Key) : Key := if k.owner = owner then { k with owner := 0 } else k

/-- A master's coherent-read latch and held window word are lost (R357). -/
def State.dropLatch (m : Nat) (s : State) : State :=
  (s.modBus fun b => { b with latch := tdel b.latch m }).modSch fun c => { c with held := tdel c.held m }

/-- The effects of a function's reset. -/
def State.funcEffect (f : Nat) (s : State) : State :=
  if f < 2 then (s.modGlb fun g => { g with remap := setBit g.remap f false }).modRst fun r => { r with cpHalted := setBit r.cpHalted f false }
  else if f = 2 then
    (((s.modKey (Key.leave 1)).modGlb fun g => { g with
      msixMask := true, msixHeld := false, msixTab := g.msixTab.filter fun e => 4 ≤ e.1, bars := g.bars.filter fun e => 8 ≤ e.1 }).dropLatch 4)
  else if f = 3 then (s.endDma true true).modGlb fun g => { g with
      bme := false, mse := false, dmaSticky := 0, dmaPBusy := false, pf1Mask := true, pf1Held := false
      msixTab := g.msixTab.filter fun e => e.1 < 4, bars := g.bars.filter fun e => e.1 < 8 }
  else if f = 4 then s.endDma true false
  else if f = 5 then s.endDma false true
  else if f = 6 then s.dropLatch 5
  else if f ≤ 14 then (s.modBox (f - 7) Mb.reset).modKey fun k => if f = 13 then k.leave 3 else k
  else if f ≤ 16 then s
  else if f = 17 then s.modKey fun k => { k with busy := none, owner := 0, deskOp := 0, deskSlot := 0, result := 0, lastSlot := 0, data := [] }
  else if f ≤ 19 then (s.modKey fun k => { k with
      pipes := tmap (fun p (x : Pipe) => if p / 256 = f - 18 then (if x.state = 1 then x else {}) else x) k.pipes }).unstaleCipher (f - 18)
  else if f ≤ 23 then (s.resetEngines (f - 20)).modRst (Rst.unstale (f - 4))
  else if f ≤ 39 then (s.resetCluster (f - 24)).modRst (Rst.unstale (f - 24))
  else if f = 41 then s.modPwr fun p => { p with retries := 0 }
  else if f = 42 then s.modPwr fun p => { p with gpioFn := [], gpioDrive := [], gpioPull := [], gpioOut := 0 }
  else if f = 43 then (s.modPerf fun p => { access := p.access }).modPert fun _ => {}
  else s

/-- The DEV_RESETs of kind 1 for a function are answered after the release, in the order they came (R403): each request stands in its
mailbox's buffer. -/
def State.answerReset (f : Nat) (s : State) : State :=
  (s.rst.funcAnswer.filter fun a => a.func = f && !a.drop).foldl (fun s a =>
      s.answer 0x0104 ⟨a.mb, a.seq, BitVec.ofNat 32 (leNat (trange 0 (s.box a.mb).req 8 4)), 0, 0, []⟩ .ok)
    (s.modRst fun x => { x with funcAnswer := x.funcAnswer.filter fun a => a.func != f })

/-- A P3 mode holds the function in reset (R394, R414). -/
def State.p3Holds (s : State) (f : Nat) : Bool := (s.rst.phase = .shallows || s.rst.phase = .decommission) && p3Reset.getLsbD f

/-- A function is released, with the effects of its reset. In P3 the functions that the mode holds stay in reset (R394), and the key desk
waits for an operation in progress (R398). -/
def execFunctionResetRelease (f : Nat) (s : State) : Result :=
  done (if 44 ≤ f || !s.rst.inReset.getLsbD f || s.p3Holds f || !s.clockRuns f || (f = 17 && s.key.busy.isSome) then s
    else ((s.modRst fun r => { r with inReset := setBit r.inReset f false }).funcEffect f).answerReset f)

/-- The mailboxes that a mode serves: all from BOOT_OK on (R335), in P3 MB0 alone (R349). -/
def State.servesBox (s : State) (mb : Nat) : Bool :=
  if s.rst.phase = .shallows || s.rst.phase = .decommission then mb = 0 else mb < 8 && s.rst.bootOkSeen

/-- The active CP reopens a mailbox after its reset (R398). -/
def execMailboxReopen (mb : Nat) (s : State) : Result :=
  done (if (s.box mb).state = .closed && s.cpServes && s.servesBox mb && !s.inReset (7 + mb) then
      s.modBox mb fun b => { b with state := .idle }
    else s)

/-- PF1's Bus Master Enable is cleared: a transfer that runs ends (R361). -/
def State.loseBme (s : State) : State :=
  let hit := s.sch.load.isSome || s.eng.harvest.running
  (s.modGlb fun g => { g with bme := false, dmaSticky := if hit then g.dmaSticky ||| 2 else g.dmaSticky }).endDma true true

def execBmeLost (s : State) : Result := done s.loseBme

/-! ### DEV_RESET (R403) -/

def devResetForm : Form := .fixed 4 fun r => 1 ≤ r.u8 0 && r.u8 0 ≤ 3 && r.u16 2 = 0x6E6E && (r.u8 0 != 1 || r.u8 1 < 44)

def devResetBody (txns : List WeirTxn) (r : MbReq) (s : State) : Ans × State :=
  let f := r.u8 1
  if r.u8 0 != 1 then (.ok, s.modRst fun x => { x with devReset := some (r.u8 0) })
  else
    let p := s.requestFunc f txns
    if p.1 then (.badState, p.2)
    else (.ok, p.2.modRst fun x => { x with funcAnswer := x.funcAnswer ++ [⟨f, r.mb, r.seq, f = 7 + r.mb⟩] })

/-- The run of DEV_RESET. In `Shallows`, where the command is answered BAD_STATE, a well-formed request of kind 1 is a function reset
refused (R349, R397). -/
def devResetRun (txns : List WeirTxn) (r : MbReq) (s : State) : Ans × State :=
  let p := runForm 0x0104 devResetForm (devResetBody txns) r s
  (p.1, if s.rst.phase = .shallows && (devResetForm.check r).isNone && r.u8 0 = 1 then p.2.rstSticky 1 else p.2)

/-- Ask for a function, warm or cold reset. -/
def execDevReset (r : MbReq) (txns : List WeirTxn) (s : State) : Result := done (s.request 0x0104 (devResetRun txns) r)

end Sys2Proof.Machine
end

