-- ==== Sys2Proof/Machine/Commands.lean ====
section
/-!
DEFINITION. The mailbox commands by code, as the active CP takes them from a doorbell (chapter 14). What a row's further
operands give is taken here at its ordinary value: fuses burn, no unwrap fault, nothing in flight (log entry 10).
-/

namespace Sys2Proof.Machine

/-- How a command runs on a request. -/
abbrev Run := MbReq → State → Ans × State

def devRun : Nat → Option Run
  | 0x0101 => some (runForm 0x0101 devInfoForm devInfoBody)
  | 0x0102 => some (runForm 0x0102 devDecommissionForm (devDecommissionBody true))
  | 0x0103 => some (runForm 0x0103 devCpSwapForm devCpSwapBody)
  | 0x0104 => some (devResetRun [])
  | 0x0105 => some (runForm 0x0105 devLcChallengeForm devLcChallengeBody)
  | 0x0106 => some (spendNonce (runForm 0x0106 devLcAdvanceForm (devLcAdvanceBody true)))
  | 0x0107 => some (spendNonce (runForm 0x0107 devDebugSetForm devDebugSetBody))
  | 0x0108 => some (runForm 0x0108 devRedCfgForm devRedCfgBody)
  | 0x0109 => some (runForm 0x0109 devUnitStatusForm devUnitStatusBody)
  | 0x010A => some (runForm 0x010A devUnitReadmitForm devUnitReadmitBody)
  | 0x010B => some (runForm 0x010B devGpioCfgForm devGpioCfgBody)
  | _ => none

def grpRun : Nat → Option Run
  | 0x0201 => some (runForm 0x0201 grpCreateForm grpCreateBody)
  | 0x0202 => some (runForm 0x0202 grpDeleteForm grpDeleteBody)
  | 0x0203 => some (runForm 0x0203 grpStatusForm grpStatusBody)
  | 0x0204 => some (runForm 0x0204 laneRetireForm laneRetireBody)
  | 0x0205 => some (runForm 0x0205 laneReadmitForm laneReadmitBody)
  | 0x0206 => some (runForm 0x0206 grpSetOptionsForm grpSetOptionsBody)
  | _ => none

def trbRun : Nat → Option Run
  | 0x0301 => some (runForm 0x0301 trbStatusForm trbStatusBody)
  | 0x0302 => some (runForm 0x0302 trbResizeForm trbResizeBody)
  | 0x0303 => some (runForm 0x0303 trbResizeAbortForm trbResizeAbortBody)
  | _ => none

def schRun (host : HostMem) : Nat → Option Run
  | 0x0401 => some (runForm 0x0401 schLoadForm (schLoadBody host))
  | 0x0402 => some (runForm 0x0402 schCopyForm schCopyBody)
  | 0x0403 => some (runForm 0x0403 schPrepareForm schPrepareBody)
  | 0x0404 => some (runForm 0x0404 schUnprepareForm schUnprepareBody)
  | 0x0405 => some (runForm 0x0405 schArmForm schArmBody)
  | 0x0406 => some (runForm 0x0406 schDisarmForm schDisarmBody)
  | 0x0407 => some (runForm 0x0407 schRollbackForm schRollbackBody)
  | 0x0408 => some (runForm 0x0408 schStatusForm schStatusBody)
  | _ => none

def conjRun : Nat → Option Run
  | 0x0501 => some (runForm 0x0501 conjNoticeForm conjNoticeBody)
  | 0x0502 => some (runForm 0x0502 conjCancelForm conjCancelBody)
  | 0x0503 => some (runForm 0x0503 conjPinCfgForm conjPinCfgBody)
  | 0x0504 => some (runForm 0x0504 conjStatusForm conjStatusBody)
  | _ => none

def epRun : Nat → Option Run
  | 0x0601 => some (runForm 0x0601 epPlaceForm epPlaceBody)
  | 0x0602 => some (runForm 0x0602 epConfigForm epConfigBody)
  | 0x0603 => some (runForm 0x0603 epStatusForm epStatusBody)
  | 0x0604 => some (runForm 0x0604 epHarvestCfgForm epHarvestCfgBody)
  | 0x0605 => some (runForm 0x0605 engStatusForm engStatusBody)
  | 0x0606 => some (runForm 0x0606 engReadmitForm engReadmitBody)
  | _ => none

def pgRun : Nat → Option Run
  | 0x0701 => some (runForm 0x0701 pgCommandForm pgCommandBody)
  | 0x0702 => some (runForm 0x0702 pgStatusForm pgStatusBody)
  | 0x0703 => some (runForm 0x0703 pgListForm pgListBody)
  | _ => none

def keyRun : Nat → Option Run
  | 0x0801 => some (runForm 0x0801 keyLockForm keyLockBody)
  | 0x0802 => some (runForm 0x0802 keyLoadForm (keyLoadBody {}))
  | 0x0803 => some (runForm 0x0803 keyActivateForm keyActivateBody)
  | 0x0804 => some (runForm 0x0804 keyEraseForm keyEraseBody)
  | 0x0805 => some (runForm 0x0805 keyStatusForm keyStatusBody)
  | 0x0806 => some (runForm 0x0806 keyPipeStatusForm keyPipeStatusBody)
  | 0x0807 => some (runForm 0x0807 keyPipeReadmitForm keyPipeReadmitBody)
  | _ => none

def timRun : Nat → Option Run
  | 0x0901 => some (runForm 0x0901 timCfgForm timCfgBody)
  | 0x0902 => some (runForm 0x0902 timCandCfgForm timCandCfgBody)
  | 0x0903 => some (runForm 0x0903 timSetQlForm timSetQlBody)
  | 0x0904 => some (runForm 0x0904 timStatusForm timStatusBody)
  | 0x0905 => some (runForm 0x0905 timHistoryForm timHistoryBody)
  | 0x0906 => some (runForm 0x0906 timSwapForm timSwapBody)
  | _ => none

def pwrRun : Nat → Option Run
  | 0x0A01 => some (runForm 0x0A01 pwrHoldForm pwrHoldBody)
  | 0x0A02 => some (runForm 0x0A02 pwrResumeForm pwrResumeBody)
  | 0x0A03 => some (runForm 0x0A03 pwrStatusForm pwrStatusBody)
  | 0x0A04 => some (runForm 0x0A04 pwrGateUnusedForm pwrGateUnusedBody)
  | _ => none

def diagRun : Nat → Option Run
  | 0x0B01 => some (runForm 0x0B01 diagMarchForm diagMarchBody)
  | 0x0B02 => some (runForm 0x0B02 diagLogForm diagLogBody)
  | 0x0B03 => some (runForm 0x0B03 diagMemStatusForm diagMemStatusBody)
  | 0x0B20 => some (runForm 0x0B20 diagPondSpareForm diagPondSpareBody)
  | 0x0B21 => some (runForm 0x0B21 diagPondRestoreForm diagPondRestoreBody)
  | 0x0B30 => some (runForm 0x0B30 diagPerfAccessForm diagPerfAccessBody)
  | _ => none

def fwRun : Nat → Option Run
  | 0x0C01 => some (runForm 0x0C01 fwInfoForm fwInfoBody)
  | 0x0C02 => some (runForm 0x0C02 fwWriteForm fwWriteBody)
  | 0x0C03 => some (runForm 0x0C03 fwSelectForm fwSelectBody)
  | 0x0C04 => some (runForm 0x0C04 fwLiveUpdateForm fwLiveUpdateBody)
  | 0x0C05 => some (runForm 0x0C05 fwRecoverStartForm fwRecoverStartBody)
  | _ => none

def twinRun : Nat → Option Run
  | 0x0D01 => some (runForm 0x0D01 twinJoinForm twinJoinBody)
  | 0x0D02 => some (runForm 0x0D02 twinLeaveForm twinLeaveBody)
  | 0x0D03 => some (runForm 0x0D03 twinStatusForm twinStatusBody)
  | 0x0D04 => some (runForm 0x0D04 twinCfgForm twinCfgBody)
  | 0x0D05 => some (runForm 0x0D05 twinYieldForm twinYieldBody)
  | 0x0D10 => some (runForm 0x0D10 domCfgForm domCfgBody)
  | 0x0D11 => some (runForm 0x0D11 domStatusForm domStatusBody)
  | 0x0D20 => some (runForm 0x0D20 stcLaneSetForm stcLaneSetBody)
  | 0x0D21 => some (runForm 0x0D21 stcLaneReleaseForm stcLaneReleaseBody)
  | _ => none

/-- The run of a code of R345, by its family. -/
def knownRun (host : HostMem) (code : Nat) : Option Run :=
  match code / 256 with
  | 1 => devRun code
  | 2 => grpRun code
  | 3 => trbRun code
  | 4 => schRun host code
  | 5 => conjRun code
  | 6 => epRun code
  | 7 => pgRun code
  | 8 => keyRun code
  | 9 => timRun code
  | 10 => pwrRun code
  | 11 => diagRun code
  | 12 => fwRun code
  | 13 => twinRun code
  | _ => none

/-- An unknown command (R341, R349). -/
def unknownRun : Run := fun _ s =>
  if s.rst.phase = .shallows || s.rst.phase = .decommission then (.badState, s)
  else (.badCmd, s)

def commandRun (host : HostMem) (code : Nat) : Run := (knownRun host code).getD unknownRun

/-- The code that a request buffer holds (R340). -/
def Mb.code (b : Mb) : Nat := leNat (trange 0 b.req 0 2)

/-- The request that a mailbox's buffer holds (R340). -/
def Mb.request (mb : Nat) (b : Mb) : MbReq :=
  let u (o n : Nat) : Nat := leNat (trange 0 b.req o n)
  { mb := mb, seq := BitVec.ofNat 16 (u 2 2), length := BitVec.ofNat 32 (u 4 4), flags := BitVec.ofNat 32 (u 8 4), status := BitVec.ofNat 32 (u 12 4)
    payload := trange 0 b.req 16 (min 4080 (u 4 4)) }

/-- A write of RING to a mailbox's doorbell (R336, R337). -/
def State.doorbell (mb : Nat) (host : HostMem) (s : State) : State :=
  let b := s.box mb
  let r := b.request mb
  (s.ring b.code (commandRun host b.code) r).modMbx (Mbx.keepHost r.origin host)

/-- Answer the commands that waited for a CP or for PERT.DOORBELL, in the order of their rings (R330, R338). -/
def State.serveDue (s : State) : State :=
  if !s.cpServes then s
  else
    let now := s.mbx.waiting.filter (Waiting.ripe s.tick)
    let s := s.modMbx fun m => { (m.queue.foldl (fun m r => m.put s.journals r) m) with
      queue := [], waiting := m.waiting.filter fun w => !w.ripe s.tick }
    now.foldl (fun s w => s.take (commandRun w.host w.code.toNat) w) s

/-- In P3 the ROM answers the command that MB0 may still hold (R337, R349). -/
def State.serveP3 (s : State) : State :=
  s.mbx.waiting.foldl (fun s w => s.take (commandRun [] w.code.toNat) w) (s.modMbx fun m => { m with waiting := [] })

end Sys2Proof.Machine
end

