-- ==== Sys2Proof/Machine/Frame.lean ====
section
/-!
DEFINITION. The core frame boundary, the second boundary and PPS_IN (chapters 01, 02, 09). The frame that ends is worked off
first, then the CFN advances, and the changes that take effect at the boundary follow in the order of `State.nextFrame`
(log entry 13).
-/

namespace Sys2Proof.Machine

/-! ### Modes (R21, R23-R26, R410, R416, R422) -/

/-- The data path stands still in Hold: when it ends nothing from before is left to send, so that every egress stream carries idle fill
(R112, R151). -/
def Dp.still (d : Dp) : Dp :=
  { d with
    eb0 := [], eb1 := [], ebBad := [], ebIdle := [], ebIdle1 := [], egress := [], leaving := []
    ing := tmap (fun _ (x : IngRun) => { x with buf := [], ann := [], annC := 0, annMaint := 0 }) d.ing
    eg := tmap (fun _ (x : EgRun) => { x with jC := 0, jMaint := 0, out := [] }) d.eg }

/-- Entry into Hold: an armed operation is Deferred, notices that are not distributed and marches end, the twin role becomes
SOLO, counting ends in the second that the boundary lies in or starts (R225), and the data path carries idle fill until a commit. -/
def State.toHold (s : State) : State :=
  let s := (((s.deferArmed 7).dropNotices).abortMarches fun _ => true).setMode .hold 5
  let s := if s.twin.role = .solo then s else s.endJoin.setRole .solo 6
  let due := s.glb.secDue
  (((s.modDp Dp.still).modSch fun c => { c with dataEnable := false }).modEng fun e => { e with holdSec := e.holdSec || !due, holdNext := due }).modGlb fun g => { g with triggers := [] }

/-- In Hold every receiver is powered down and every transmitter idle. -/
def Lane.hold (tick : Cfn) (l : Lane) : Lane :=
  if l.role = .off then l
  else { l with
    state := if l.retired then .retired else .waitSignal, since := if l.state = .waitSignal then l.since else tick
    pend := none, signal := false, txIdle := true, aligns := l.clearTrackers.aligns, lof := false, lom := false, stWords := none, stNow := none }

/-- Hold ends: the transmitters of lanes with a role run again, and the power state is what it was. -/
def State.toResume (s : State) : State :=
  let s := (s.setMode .provisioning 10).modGlb fun g => { g with power := if s.pwr.gateOn then 1 else 0, triggers := [] }
  { s with lanes := tmap (fun _ (l : Lane) => if l.role = LaneRole.off || l.retired then l else { l with txIdle := false }) s.lanes }

/-- The device is decommissioned: the transition of the life cycle, and the terminal mode. What runs ends without a completion (R348). -/
def State.toDecommission (s : State) : State :=
  ((s.lcApply .decommissioned).enterDecommission).serveP3

def State.untrigger (t : ModeTrigger) (s : State) : State := s.modGlb fun g => { g with triggers := without g.triggers t }

/-- The trigger of highest precedence changes the mode; one that is not legal is dropped (R24). -/
def State.modeStep (s : State) : State :=
  let has (t : ModeTrigger) : Bool := s.glb.triggers.contains t
  let m := s.glb.mode
  let open_ := m = .provisioning || m = .service || m = .degraded
  let lost := s.redundancyLost
  if s.rst.lcPend = some .decommissioned || has .decommission then s.toDecommission
  else if has .hold && (open_ || m = .mateFollow) then s.toHold
  else if m = .service && lost then s.setMode .degraded 1
  else if has .mateFollow && open_ then (s.untrigger .mateFollow).setMode .mateFollow 3
  else if has .leaveMate && m = .mateFollow then (s.untrigger .leaveMate).setMode (if lost then .degraded else .service) 4
  else if has .resume && m = .hold then s.toResume
  else s.modGlb fun g => { g with triggers := [] }

/-- The device degrades at the boundary at which a cover takes the work (R129, R214), and serves again at the boundary after
the redundancy came back. `m0` is the mode before this boundary, which changes once at the most (R24). -/
def State.modeLoss (m0 : Mode) (restored : Bool) (s : State) : State :=
  if s.glb.mode != m0 then s
  else if m0 = .service && s.redundancyLost then s.setMode .degraded 1
  else if m0 = .degraded && restored && !s.redundancyLost then s.setMode .service 2
  else s

/-- A life-cycle transition takes effect (R409). -/
def State.lcStep (s : State) : State :=
  match s.rst.lcPend with
  | some l => s.lcApply l
  | none => s

/-! ### The frame that ends -/

/-- The protection processor and the endpoints of the frame (R206, R222, R237, R321). -/
def State.overhead (inp : FrameInput) (s : State) : State :=
  let old := s.prot
  let p := s.protect
  let e := ({ p with prot := old } : State).endpointFrame inp.endpoints (s.apsCounts old p.prot)
  let new := p.prot
  let s := { e with prot := new }
  s.modTwin fun t => { (t.mirror (switches old new) fun n => (tget ({} : PgRun) new n).state) with mirrorIn := [] }

/-- The work of a frame in which the data path runs. -/
def State.workFrame (inp : FrameInput) (s : State) : State :=
  if s.traffic then ((s.dataFrame inp).overhead inp).declareFaults else s

/-! ### The boundary -/

/-- The edge for the last second boundary has had its time: none within 16,384 cycles is a missing edge (R54). -/
def Glb.judgePps (g : Glb) : Glb :=
  if g.ppsJudge != 1 then { g with ppsJudge := g.ppsJudge - 1 }
  else { g with ppsJudge := 0, ppsSeen := false, ppsBad := if g.track && !g.ppsSeen then g.ppsBad + 1 else g.ppsBad }

/-- The CFN advances, and the second where its boundary lies in the frame that begins or in the one that ended (R46, R49). -/
def Glb.advance (stopped : List Nat) (g : Glb) : Glb :=
  let due := g.bNext ≤ 16384
  { g with
    cfn := g.cfn + 1, tick := g.tick + 1, stopped := stopped, quadDown := g.quadFail
    secDue := g.secDue || due
    bNext := if due then ((g.bNext : Int) + 1600000000 + g.ppsCorr - 16384).toNat else g.bNext - 16384
    ppsNow := if due then g.ppsCorr else g.ppsNow
    ppsCorr := if due then 0 else g.ppsCorr
    ppsJudge := if due then 2 else g.ppsJudge }

/-- The stages' banks move on (R137, R151). -/
def Sch.shift (c : Sch) : Sch := { c with present2 := c.present1, present1 := c.present, dataPrev := c.dataEnable }

/-- Received stitch columns become those of the frame that begins (R310). -/
def Lane.shift (l : Lane) : Lane := { l with stNow := l.stWords, stWords := none }

/-- An operation with decision GO takes effect in the frame that begins (R150). -/
def State.effectDue (s : State) : Bool :=
  (s.sch.armState = .commitGo || s.sch.armState = .rollbackGo) && s.sch.armed.any (fun a => a.effect = s.cfn) && s.traffic

/-- Lanes and groups (R70, R76, R187, R461). `moved` tells that the mappers change their configuration. -/
def State.lineBoundary (inp : FrameInput) (s : State) : State :=
  let s := s.lanesBoundary s.tick
  let s := if s.glb.mode = .hold then { s with lanes := tmap (fun _ l => Lane.hold s.tick l) s.lanes } else s
  let s := s.groupsBoundary inp s.tick
  { s with lanes := tmap (fun _ (l : Lane) => { l with
      seen := l.defects, phyTx := l.phyCfg, phyRx := if l.state = LaneState.adapt && l.since = s.tick then BitVec.ofNat 3 (fld l.phyCfg.toNat 28 3) else l.phyRx }) s.lanes }

/-- Index changes take effect, lanes and groups move on, and the next indices are decided with the retirements of this
boundary; across a commit the commit does the first and the last (R194, R195, R202). -/
def State.conjBoundary (inp : FrameInput) (s : State) : State :=
  let due := s.effectDue
  let s := (if due then s else s.conjApplyAll).lineBoundary inp
  if due || !s.traffic then s else s.conjDecideAll

/-- What the mappers and the encrypt side take up two frames after a change (R137, R195, R187). -/
def State.mapperBoundary (s old : State) : State :=
  let bank := old.sch.present2 != s.sch.present2
  let idx := (tkeys s.grps).any fun g => old.idx2 g != s.idx2 g
  if !bank && !idx then s
  else
    let s := (tkeys s.grps).foldl (fun s g => s.markSlots g) s
    let s := if bank then s.keyCommitOut old.bank2 else s
    s.carryCounts old.egActive old.bank2

/-- Timing: configurations, candidates, selection, ordered swaps and FSYNC_OUT (R288, R300, R303, R305). -/
def State.timerBoundary (s : State) (inp : FrameInput) (old : State) : State :=
  let s := (((s.tuBoundary inp.tuCheck inp.tuPhase).modTim Tim.applyCfg).timBoundary inp.noEdge).swapBoundary
  let b := s.glb.bNext < 16384 || old.glb.bNext = 16384
  s.modTim fun t => if t.fsyncMode = 2 then { t with fsyncOut := b } else t.fsyncFrame s.cfn

/-- Acknowledgements of a commit notice, which count up to the boundary of F-4 (R146). -/
def State.takeAcks (acks : List Nat) (s : State) : State :=
  s.modSch fun c => { c with armed := c.armed.map fun a =>
    if a.noticed && 4 ≤ (a.target - s.cfn).toNat && (a.target - s.cfn).toNat ≤ 5 then { a with acks := acks.foldl addNew a.acks } else a }

/-- Everything that takes effect at the boundary of a running core. -/
def State.nextFrame (s : State) (inp : FrameInput) (old : State) : State :=
  let restored := !s.redundancyLost
  let m0 := s.glb.mode
  let fixed := s.readyFixed
  let s := ((s.modGlb fun g => g.judgePps.advance inp.stopped).modSch Sch.shift).modeStep.lcStep
  if !s.coreRuns then s
  else
    let s := { s with grps := tmap (fun _ r => Grp.shiftIdx r) s.grps, lanes := tmap (fun _ l => Lane.shift l) s.lanes }
    let s := ((s.conjBoundary inp).mapperBoundary old).futureBoundary fixed |>.pondsBoundary s.tick
    let s := (s.enginesBoundary s.tick old.bank1 (old.sch.present1 != s.sch.present1)).pgBoundary.keyBoundary
    let s := (s.ingBoundary inp).modPwr Pwr.bindBoundary
    let s := (s.timerBoundary inp old).twinBoundary inp.twinHbPin inp.twinActIn
    let s := s.pertBoundary.cpBoundary.powerBoundary.takeAcks inp.acks
    let s := s.modDp fun d => { d with resizes := d.resizes.map fun z => { z with phase := if inp.ramp.contains z.ing then 2 else 1 } }
    s.serveDue.reloadMicrocode.modeLoss m0 restored

/-- Cycles in which a request of master `i` - 768 waited for a working SRAM bank (R369). -/
def State.bankConflicts (i n : Nat) (s : State) : State :=
  if i < 778 then s.modBus fun b => { b with conflict := tmod 0 b.conflict (i - 768) fun c => satAdd c n } else s

/-- The event counts of a frame: counters below 768, and bank waits at 768 + master, which accrue whether or not the core runs. -/
def State.countPerf (l : List (Nat × Nat)) (s : State) : State :=
  l.foldl (fun s e => if e.1 < 768 then (if s.coreRuns && s.pert.acts e.1 then s.count e.1 e.2 else s) else s.bankConflicts e.1 e.2) s

/-- A core frame boundary (R36): the frame in progress ends with what the outside gave it, and the next begins. -/
def execFrameBoundary (inp : FrameInput) (s : State) : Result :=
  done (if !s.coreRuns then s.countPerf inp.perf
    else (((s.workFrame inp).sendTokens.countPerf inp.perf).modPerf Perf.boundary).nextFrame inp s)

/-! ### Seconds (R50, R223-R226, R229, R262) -/

/-- The latched second's description (R226). -/
def State.latchRegisters (frames : Nat) (hold : Bool) (s : State) : State :=
  s.modEng fun e => { e with
    latchSec := s.glb.sec, firstCfn := s.cfn - BitVec.ofNat 48 frames, schedId := s.bank1.id
    latchInfo := BitVec.ofNat 32 (2 ^ 19 + b2n hold * 2 ^ 18 + b2n s.sch.committed * 2 ^ 17 + b2n e.aligned0 * 2 ^ 16 + (frames - 97640) % 65536)
    aligned0 := s.glb.ppsAligned, holdSec := e.holdNext, holdNext := false }

/-- A harvest configuration takes effect, and a record is due in the second frame of the second (R228, R230). -/
def Harvest.second (tick : Cfn) (h : Harvest) : Harvest :=
  let h := match h.pend with
    | some (en, base, n, mask) => { h with enable := en, base := base, entries := n, mask := mask, seq := 0, pend := none, renewed := h.running }
    | none => h
  { h with startAt := if h.enable then some (tick + 1) else none }

/-- The frame in progress starts a second (R49): the counters are latched, and candidates end their second. -/
def execSecondBoundary (meas : List CandMeas) (s : State) : Result :=
  done (if !s.coreRuns || !s.glb.secDue then s
    else
      let frames := (s.tick - s.glb.secStart).toNat
      let start := s.glb.secStart
      let hold := s.eng.holdSec
      let s := (s.modEng (Eng.latchSecond (hold || s.twin.secSuspect))).latchRegisters frames hold
      let s := s.modGlb fun g => { g with
        sec := satAdd g.sec 1, secFrames := frames, secStart := g.tick, secDue := false }
      let s := (s.modSch fun c => { c with committed := c.commitNext, commitNext := false }).modTwin fun t => { t with secSuspect := false }
      let s := s.modDp fun d => { d with ing := tmap (fun _ (x : IngRun) => { x with untrust := x.untrust.map (· - 1) }) d.ing }
      (s.modEng fun e => { e with harvest := e.harvest.second s.tick }).timSecond meas start)

/-! ### PPS_IN (R51-R55) -/

/-- LOS_COUNT, where 0 acts as 1. -/
def Glb.losCount (g : Glb) : Nat := max 1 (fld g.ppsCtrl.toNat 8 8)

/-- An error wrapped into plus or minus half a second. An edge exactly half way between two boundaries is taken as early of the later one,
error -800,000,000: R53 has both ends in its range and names neither (DESIGN CHOICE, log entry 42). -/
def wrapErr (e : Int) : Int := (e + 800000000) % 1600000000 - 800000000

def clampErr (e : Int) : Int := max (-4096) (min 4096 e)

/-- The boundary that an edge is nearest to is still to begin its interval: the edge is early, or late in the frame in which the
boundary lies. -/
def Glb.ppsAhead (err : Int) (g : Glb) : Bool := err < 0 || g.bNext < 16384

/-- An accepted edge places the boundary after the one it is nearest to, in place of an earlier edge's correction (R53). -/
def Glb.ppsAccept (err : Int) (g : Glb) : Glb :=
  let c := clampErr err
  let ahead := g.ppsAhead err
  { g with
    ppsErr := err, ppsAligned := -8 ≤ err && err ≤ 8, ppsWasAligned := g.ppsWasAligned || (-8 ≤ err && err ≤ 8)
    ppsSlewing := err < -4096 || 4096 < err, ppsBad := 0, ppsAny := false
    ppsCorr := if ahead then c else g.ppsCorr
    ppsNow := if ahead then g.ppsNow else c
    bNext := if ahead then g.bNext else ((g.bNext : Int) - g.ppsNow + c).toNat
    ppsSeen := g.ppsSeen || (-16384 ≤ err && err ≤ 16384) }

/-- An outlier (R54). -/
def Glb.ppsOutlier (g : Glb) : Glb := { g with ppsSticky := g.ppsSticky ||| 1, ppsBad := g.ppsBad + 1 }

/-- An active edge of PPS_IN, `err` core cycles after its boundary. -/
def execPpsEdge (err : Int) (s : State) : Result :=
  let e := wrapErr err
  done (if !s.coreRuns || !s.glb.track then s
    else s.modGlb fun g => if g.ppsWasAligned && !g.ppsAny && (e < -16384 || 16384 < e) then g.ppsOutlier else g.ppsAccept e)

/-- PPS loss is declared (R54). A correction that the last accepted edge placed before the loss still applies: the spec does not say that it
is dropped (DESIGN CHOICE, log entry 42). -/
def execPpsLoss (s : State) : Result :=
  done (if s.coreRuns && s.glb.track && !s.glb.ppsAny && s.glb.losCount ≤ s.glb.ppsBad then
      s.modGlb fun g => { g with ppsSticky := g.ppsSticky ||| 2, ppsAligned := false, ppsSlewing := false, ppsAny := true }
    else s)

end Sys2Proof.Machine
end

