-- ==== Sys2Proof/Machine/Maint.lean ====
section
/-!
DEFINITION. The ponds' maintenance port (R109, R132, R133).
-/

namespace Sys2Proof.Machine

/-- The RW and W1C fields of a write to `POND.MAINT_CTRL` (R132). -/
def Pond.ctrl (v : Nat) (p : Pond) : Pond :=
  { p with op := BitVec.ofNat 2 (fld v 29 2), half := bitOf v 14, col := fld v 0 14, lost := p.lost && !bitOf v 27 }

/-- The half that the write port fills in this frame (R107). -/
def State.fillHalf (s : State) : Nat := s.cfn.toNat % 2

/-- The write port writes this pond in this frame. -/
def State.portWrites (s : State) (phys : Nat) : Bool :=
  s.traffic && (List.range 128).any fun n => (s.pnd.written s.tick n).contains phys

/-- The word that the write port has written in this frame at a column behind it, of the ingress stream of physical pond `phys`: the
demappers' words for the frame are known when it begins. Free are a scrub word (R41), and a justification word, which tells of
arrivals that the model takes at the frame's end (log entry 25). -/
def State.portWord (phys col : Nat) (s : State) : Option W64 :=
  ((List.range 128).find? fun n => (s.pnd.written s.tick n).contains phys).bind fun st =>
    if 16256 ≤ col && col < 16320 || (16000 ≤ col && col < 16128 && !s.stitch st) then none
    else some (tget 0 (s.ingressStream (prbsWords 64 s.dp.prbsAll).2 st (s.contextWords FrameInput.none)) col)

/-- A maintenance read returns a snapshot (R109, R133): what a maintenance write left behind the write port, else what the port wrote,
else what the half held. A scrub word is free (R41). -/
def State.maintRead (phys cycle : Nat) (s : State) : State :=
  let p := s.pond phys
  let h := b2n p.half
  let free (s : State) : State :=
    let d := s.draw 64
    d.2.modPond phys fun p => { p with data := d.1 }
  let scrub := 16256 ≤ p.col && p.col < 16320
  if s.portWrites phys && h = s.fillHalf && p.col < cycle then
    if scrub then free s
    else match (p.late.reverse.find? (·.1 = p.col)).map (·.2), s.portWord phys p.col with
    | some w, _ => s.modPond phys fun p => { p with data := w }
    | none, some w => s.modPond phys fun p => { p with data := w }
    | none, none => free s
  else
    let e := p.err h p.col
    let s := s.pondError phys h p.col e
    if scrub && e != 2 then free s else s.modPond phys fun q => { q with data := p.read h p.col }

/-- A maintenance write: lost in the cycle in which the write port writes the word; behind the port it stays, ahead of it
the column overwrites it. In the half that the crossbar reads, reads of this and earlier cycles keep the word before it (R109). -/
def State.maintWrite (phys cycle : Nat) (s : State) : State :=
  let p := s.pond phys
  let h := b2n p.half
  if s.portWrites phys && h = s.fillHalf then
    if p.col = cycle then
      ((s.modPond phys fun p => { p with lost := true, collCnt := satAdd p.collCnt 1 }).pondFlag phys 0).count 602 1
    else if p.col < cycle then s.modPond phys fun p => { p with late := p.late ++ [(p.col, p.data)] }
    else s.modPond phys (Pond.setWord h p.col p.data)
  else if s.traffic && h != s.fillHalf then s.modPond phys (Pond.replace h p.col cycle p.data)
  else s.modPond phys (Pond.setWord h p.col p.data)

/-- MAINT_DENY is set, and SWITCH where it becomes 1 (R132, R133, R359). -/
def State.denyMaint (phys : Nat) (s : State) : State :=
  if (s.pond phys).deny then s else (s.modPond phys fun p => { p with deny := true }).raise 22

/-- A write of `POND.MAINT_CTRL` in core cycle `cycle` of the frame: START acts at D2 and D3 only (R133). -/
def State.maintCtrl (phys v cycle : Nat) (s : State) : State :=
  if phys ≥ 132 then s
  else
    let s := s.modPond phys (Pond.ctrl v)
    let op := fld v 29 2
    if !bitOf v 28 || op = 0 || op = 3 then s
    else if s.rst.dbgLevel.toNat < 2 then s.denyMaint phys
    else if op = 1 then s.maintRead phys cycle else s.maintWrite phys cycle

/-- START with OP 0b01 (R133). -/
def execPondMaintRead (phys : Nat) (v : W32) (cycle : Nat) (s : State) : Result := done (s.maintCtrl phys v.toNat cycle)

/-- START with OP 0b10 (R109, R133). -/
def execPondMaintWrite (phys : Nat) (v : W32) (cycle : Nat) (s : State) : Result := done (s.maintCtrl phys v.toNat cycle)

end Sys2Proof.Machine
end

