-- ==== Sys2Proof/Machine/Registers.lean ====
section
/-!
DEFINITION. Register accesses: the address map, the reads and writes of every register by its access codes, broadcast aliases,
the Future-bank window, mailbox buffers and the bus matrix (chapter 15, and the register tables of the other chapters).
Addresses are offsets in PF0 BAR0 (R351); what PCIe reaches besides is numbered from 0x1000_0000 (log entry 12).
-/

namespace Sys2Proof.Machine

/-! ### Reads by block -/

/-- `GLB.MODE` (R358). -/
def State.modeReg (s : State) : Nat :=
  s.glb.mode.code * 2 ^ 28 + s.rst.lc.code * 2 ^ 25 + s.rst.dbgLevel.toNat * 2 ^ 23 + s.glb.power.toNat * 2 ^ 21 + b2n s.cps.active * 2 ^ 20

/-- The SCH group: the 14 registers in address order (R162). -/
def Sch.read (c : Sch) (o : Nat) : Nat :=
  if o < 0x10C then (c.regs[(o - 0x100) / 4]?).getD 0 else if o < 0x110 then 0 else (c.regs[(o - 0x110) / 4 + 3]?).getD 0

/-- The global block (R358). -/
def State.glbRead (s : State) (o : Nat) : Nat :=
  if o = 0x00 then s.devId.toNat
  else if o = 0x04 then s.modeReg
  else if o = 0x08 then s.glb.cfn.toNat % 2 ^ 32
  else if o = 0x0C then s.glb.cfn.toNat / 2 ^ 32
  else if o = 0x10 then s.glb.sec.toNat
  else if o = 0x14 then s.glb.secFrames
  else if o = 0x20 then s.intSummary.toNat
  else if o = 0x24 then s.glb.intEnable.toNat
  else if o = 0x30 then s.glb.remap.toNat
  else if o = 0x40 then s.glb.bcastAddr.toNat
  else if o = 0x44 then s.glb.accErrAddr.toNat
  else if o = 0x48 then s.glb.accErrInfo.toNat
  else if 0x100 ≤ o && o < 0x13C then s.sch.read o
  else if o = 0x200 then s.twin.stat
  else 0

/-- The bytes of an MB7 record (R340, R342). -/
def EvRec.bytes (r : EvRec) : List Byte := msgHeader r.command.toNat r.seq 48 r.flags.toNat r.status.toNat ++ padTo 48 r.body

/-- A byte of the event ring; a slot that no record was written to reads 0 (R343). -/
def Mbx.ringByte (m : Mbx) (i : Nat) : Byte :=
  match tfind m.ring (i / 64) with
  | some r => (r.bytes[i % 64]?).getD 0
  | none => 0

/-- Mailbox `n` (R336). -/
def Mbx.read (m : Mbx) (n o : Nat) : Nat :=
  let b := m.box n
  let word (byte : Nat → Byte) (i : Nat) : Nat := leNat ((List.range 4).map fun k => byte (i + k))
  if o < 0x1000 then (if n = 7 then 0 else word (tget 0 b.req) o)
  else if o < 0x2000 then word (if n = 7 then m.ringByte else tget 0 b.resp) (o - 0x1000)
  else if o = 0x2004 then
    (match b.state with | .idle => 0 | .busy => 1 | .done => 2 | .closed => 3) * 2 ^ 30 + b2n b.ignored * 2 ^ 29 + b2n b.reject * 2 ^ 28 + b.seq.toNat
  else if o = 0x2008 then b2n b.intEn
  else if n != 7 then 0
  else if o = 0x200C then m.prod.toNat
  else if o = 0x2010 then m.cons.toNat
  else if o = 0x2014 then m.drop.toNat
  else 0

/-- The reset block (R402). FUNC_IN_RESET reads 1 from request to release (R401). -/
def State.rstRead (s : State) (o : Nat) : Nat :=
  let r := s.rst
  if o = 0x00 then r.count * 2 ^ 30 + r.failCause * 2 ^ 27 + r.lastSrc * 2 ^ 23 + b2n r.fuseCopy * 2 ^ 22 + b2n r.bootOkSeen * 2 ^ 21
  else if o = 0x08 then r.funcSel.toNat
  else if o = 0x10 then (r.inReset ||| r.pend).toNat % 2 ^ 32
  else if o = 0x14 then (r.inReset ||| r.pend).toNat / 2 ^ 32
  else if o = 0x18 then r.pend.toNat % 2 ^ 32
  else if o = 0x1C then r.pend.toNat / 2 ^ 32
  else if o = 0x20 then r.sticky.toNat * 2 ^ 27
  else if o = 0x24 then r.critInfo.toNat
  else if o = 0x28 then b2n r.ioHold * 2 + b2n r.ioRelease
  else if 0x100 ≤ o && o < 0x180 then
    let e := tget (0, 0) r.weirLog ((o - 0x100) / 8)
    if o % 8 = 0 then e.1.toNat else e.2.toNat
  else 0

/-- The reset value of `BUS.QOS[m]` (R365). -/
def qos0 (m : Nat) : BitVec 5 := 0x10 ||| (([8, 8, 0xC, 4, 0xA, 2] : List (BitVec 5))[m]?).getD 6

/-- The QoS value of a master's request (R365): `BUS.QOS[m].QOS`, or with FIXED 0 the value that a CP or an engine gateway supplies. -/
def Bus.requestQos (b : Bus) (m : Nat) (own : BitVec 4) : BitVec 4 :=
  let r := tget (qos0 m) b.qos m
  if !r.getLsbD 4 && (m < 2 || 6 ≤ m) then own else r.setWidth 4

/-- A request that waits at a target: its master, its QoS value and the cycles it has waited (R364). -/
structure BusRequest where
  master : Nat
  qos    : BitVec 4
  waited : Nat
  deriving DecidableEq, Repr

/-- Its value at a burst boundary: raised by 1 for each 256 cycles of waiting, up to 15 (R364). -/
def BusRequest.value (r : BusRequest) : Nat := min 15 (r.qos.toNat + r.waited / 256)

/-- The master that a target grants at a burst boundary (R364): the highest value wins, and of equal values the first master after the
one served last. One sender gives its accesses one at a time, so no row of the model makes two requests wait together (log entry 41). -/
def arbitrate (last : Nat) (l : List BusRequest) : Option Nat :=
  let best := l.foldl (fun v r => max v r.value) 0
  ((List.range 10).map fun i => (last + 1 + i) % 10).find? fun m => l.any fun r => r.master = m && r.value = best

/-- The bus matrix block (R365, R369). -/
def Bus.read (b : Bus) (o : Nat) : Nat :=
  if o < 0x28 then (tget (qos0 (o / 4)) b.qos (o / 4)).toNat
  else if o = 0x100 then b.errInfo.toNat
  else if o = 0x104 then b.errAddr.toNat % 2 ^ 32
  else if o = 0x108 then b.errAddr.toNat / 2 ^ 32
  else if 0x200 ≤ o && o < 0x228 then (tget 0 b.conflict ((o - 0x200) / 4)).toNat
  else 0

/-- The timing common block (R51, R306). -/
def State.timRead (s : State) (o : Nat) : Nat :=
  if o = 0x000 then s.tim.selCtrl.toNat
  else if o = 0x004 then s.tim.stat
  else if 0x100 ≤ o && o < 0x1A0 then s.tim.candReg ((o - 0x100) / 4)
  else if o = 0xF00 then s.glb.ppsCtrl.toNat
  else if o = 0xF04 then b2n s.glb.ppsAligned * 2 ^ 31 + s.glb.ppsSticky.toNat * 2 ^ 29 + b2n s.glb.ppsSlewing * 2 ^ 28
  else if o = 0xF08 then toS 32 s.glb.ppsErr
  else 0

/-- The power manager (R425). -/
def State.pwrRead (s : State) (o : Nat) : Nat :=
  let p := s.pwr
  if o = 0x00 then
    b2n p.warn * 2 ^ 31 + b2n p.trip * 2 ^ 30 + b2n p.avsOn * 2 ^ 29 + b2n s.rst.scanDirty * 2 ^ 28 + p.hot.toNat * 2 ^ 24 +
    p.sticky.toNat * 2 ^ 10 + b2n s.key.tamperEvt * 2 ^ 9
  else if o = 0x04 then b2n p.avsEnable * 2 ^ 31 + b2n p.avsPec * 2 ^ 7 + p.avsAddr.toNat
  else if o = 0x08 then p.measMv.toNat * 2 ^ 16 + p.cmdMv.toNat
  else if o = 0x10 then s.key.tamperCfg.toNat
  else if o = 0x14 then b2n (!s.key.tamperSet.isEmpty) * 2 ^ 31 + s.key.tamperSrc.toNat
  else if 0x100 ≤ o && o < 0x140 then
    let t := tget (false, 0) p.temps ((o - 0x100) / 4)
    b2n t.1 * 2 ^ 31 + toS 16 t.2
  else 0

/-- The key desk (R275); on the SLG9128-N it reads 0 (R1). -/
def State.keyRead (s : State) (o : Nat) : Nat :=
  let k := s.key
  if s.rst.variant = 2 then 0
  else if o = 0 then k.owner * 2 ^ 30
  else if o = 4 then k.deskOp.toNat * 2 ^ 28 + k.deskSlot.toNat
  else if o = 8 then b2n k.busy.isSome * 2 ^ 31 + k.result * 2 ^ 28 + k.sticky.toNat * 2 ^ 22 + k.lastSlot
  else 0

/-- A lane block (R66, R327, R461). -/
def Lane.read (l : Lane) (o : Nat) : Nat :=
  if o = 0x100 then l.stat
  else if o = 0x200 then min 16383 l.stDelay * 2 ^ 18 + l.stSticky.toNat * 2 ^ 14 + l.stPeer.toNat * 2 ^ 8
  else if o = 0x300 then l.phyCfg.toNat
  else 0

/-- A group context; without a group its registers hold their reset values (R67, R204). -/
def State.grpRead (s : State) (g o : Nat) : Nat :=
  match s.grp g with
  | none => 0
  | some r =>
    let target := ((r.notice.map fun (n : Notice) => n.target).getD 0).toNat
    if o = 0x00 then s.grpStat g r
    else if o = 0x04 then min 0xFFFF r.skewNs
    else if o = 0x08 then r.conj
    else if o = 0x0C then target % 2 ^ 32
    else if o = 0x10 then target / 2 ^ 32
    else 0

/-- A pond's window (R132). -/
def Pond.regs (p : Pond) (o : Nat) : Nat :=
  if o = 0x00 then p.role.toNat * 2 ^ 30 + p.logical * 2 ^ 23 + p.sticky.toNat * 2 ^ 19 + b2n p.retired * 2 ^ 18 + b2n p.deny * 2 ^ 17
  else if o = 0x10 then p.op.toNat * 2 ^ 29 + b2n p.lost * 2 ^ 27 + b2n p.half * 2 ^ 14 + p.col
  else if o = 0x14 then p.data.toNat % 2 ^ 32
  else if o = 0x18 then p.data.toNat / 2 ^ 32
  else if o = 0x20 then p.ceCnt.toNat
  else if o = 0x24 then p.collCnt.toNat
  else 0

/-- The crossbar block (R132). -/
def Pnd.xbarRead (p : Pnd) (o : Nat) : Nat :=
  if o < 0x200 then p.phys (o / 4)
  else if o < 0x400 then (tget 0 p.conflict ((o - 0x200) / 4)).toNat
  else if o < 0x600 then (tget 0 p.dstdup ((o - 0x400) / 4)).toNat
  else if o = 0x600 then b2n p.bypass
  else 0

/-- The latch description registers (R226). -/
def Eng.latchRead (e : Eng) (o : Nat) : Nat :=
  if o = 0x00 then e.latchSec.toNat
  else if o = 0x04 then e.latchInfo.toNat
  else if o = 0x08 then e.firstCfn.toNat % 2 ^ 32
  else if o = 0x0C then e.firstCfn.toNat / 2 ^ 32
  else if o = 0x10 then e.schedId.toNat % 2 ^ 32
  else if o = 0x14 then e.schedId.toNat / 2 ^ 32
  else 0

/-- An aliased offset: the member lanes and the offset in their blocks (R353). -/
def aliasOf (a : Nat) : Option (List Nat × Nat) :=
  let set (lo n : Nat) : List Nat := (List.range n).map (lo + ·)
  if 0x200000 ≤ a && a < 0x202000 then some (set 0 128, a % 0x2000)
  else if 0x202000 ≤ a && a < 0x222000 then some (set ((a - 0x202000) / 0x2000 * 8) 8, a % 0x2000)
  else if 0x222000 ≤ a && a < 0x22A000 then some (set ((a - 0x222000) / 0x2000 * 32) 32, a % 0x2000)
  else none

/-- The value of a register of PF0 BAR0 whose reading is the same for every master and has no effect of its own; the counter
block, TU.STAT and the aliases are read in `State.fabricRead`. -/
def State.peek (s : State) (a : Nat) : W32 :=
  BitVec.ofNat 32 (
    if a < 0x10000 then s.glbRead a
    else if a < 0x30000 then s.mbx.read ((a - 0x10000) / 0x4000) (a % 0x4000)
    else if a < 0x40000 then s.rstRead (a - 0x30000)
    else if a < 0x50000 then s.bus.read (a - 0x40000)
    else if a < 0x70000 then 0
    else if a < 0x80000 then s.timRead (a - 0x70000)
    else if a < 0x90000 then s.pwrRead (a - 0x80000)
    else if a < 0xA0000 then (s.perf.read (a - 0x90000)).toNat
    else if a < 0xB0000 then (s.pert.read (a - 0xA0000)).toNat
    else if a < 0xC0000 then s.keyRead (a - 0xB0000)
    else if 0x100000 ≤ a && a < 0x200000 then (s.lane ((a - 0x100000) / 0x2000)).read (a % 0x2000)
    else if 0x300000 ≤ a && a < 0x380000 then s.grpRead ((a - 0x300000) / 0x1000) (a % 0x1000)
    else if 0x400000 ≤ a && a < 0x484000 then (s.pond ((a - 0x400000) / 0x1000)).regs (a % 0x1000)
    else if 0x490000 ≤ a && a < 0x4A0000 then s.pnd.xbarRead (a - 0x490000)
    else if 0x1000000 ≤ a && a < 0x2000000 then
      let e := (s.futureBank.entry ((a - 0x1000000) / 8)).toNat
      if a % 8 = 0 then e % 2 ^ 32 else e / 2 ^ 32
    else if 0x2000000 ≤ a && a < 0x2800000 then (s.eng.latched ((a - 0x2000000) / 32) (a % 32 / 4)).toNat
    else if 0x2800000 ≤ a && a < 0x2800018 then s.eng.latchRead (a - 0x2800000)
    else if 0x4000000 ≤ a && a < 0x4004000 then (tget 0 s.sch.descs ((a - 0x4000000) / 4)).toNat
    else 0)

/-! ### Reachability (R355, R356, R389, R394, R410) -/

/-- Why the registers of an island on the core die or a quadrant die cannot be reached: function in reset or not yet released
(1), or island gated (0). -/
def State.islandCause (s : State) (f island : Nat) : Option Nat :=
  if s.coreDown || s.inReset f then some 1 else if s.gatedMask.getLsbD island then some 0 else none

def State.laneCause (s : State) (n : Nat) : Option Nat := s.islandCause (24 + n / 8) (n / 8)

/-- Some block claims the address (R351); the others are reserved (R10). -/
def claimed (a : Nat) : Bool :=
  a < 0xC0000 || (0x100000 ≤ a && a < 0x22A000) || (0x300000 ≤ a && a < 0x380000) || (0x400000 ≤ a && a < 0x484000) ||
  (0x490000 ≤ a && a < 0x4A0000) || (0x1000000 ≤ a && a < 0x2800018) || (0x4000000 ≤ a && a < 0x4004000)

/-- The cause of R356 for which a register cannot be reached. In `Decommission` PF0 serves only GLB and MB0 (R21); the
reset block, and the mailboxes that are CLOSED, stay reachable (R348, R356; DEDUCED, log entry 40). -/
def State.unreachable (s : State) (a : Nat) : Option Nat :=
  let inReset (f : Nat) : Option Nat := if s.inReset f then some 1 else none
  if a < 0x10000 then none
  else if s.rst.phase = .decommission && 0x40000 ≤ a then (if claimed a then some 1 else none)
  else if a < 0x30000 then inReset (7 + (a - 0x10000) / 0x4000)
  else if a < 0x50000 then none
  else if a < 0x60000 then (if s.tuDown then some 1 else inReset 15)
  else if a < 0x70000 then (if s.tuDown then some 1 else inReset 16)
  else if a < 0x80000 then (if s.rst.phase = .shallows || s.tuDown then some 1 else none)
  else if a < 0x90000 then none
  else if a < 0xB0000 then inReset 43
  else if a < 0xC0000 then (if s.coreDown then some 1 else inReset 17)
  else if 0x100000 ≤ a && a < 0x200000 then s.laneCause ((a - 0x100000) / 0x2000)
  else if 0x300000 ≤ a && a < 0x380000 then s.laneCause ((a - 0x300000) / 0x1000)
  else if (0x400000 ≤ a && a < 0x484000) || (0x490000 ≤ a && a < 0x4A0000) || (0x1000000 ≤ a && a < 0x2000000) ||
      (0x2800000 ≤ a && a < 0x2800018) then (if s.coreDown then some 1 else none)
  else if 0x2000000 ≤ a && a < 0x2800000 then s.islandCause (20 + (a - 0x2000000) / 0x200000) (16 + (a - 0x2000000) / 0x200000)
  else none

/-! ### Reading (R6, R7, R354) -/

/-- The registers that are the lowest word of a value wider than 32 bits (R6). -/
def wideLow (a : Nat) : Bool :=
  [0x08, 0x110, 0x118, 0x120, 0x128, 0x130, 0x30010, 0x30018, 0x40104, 0xA0010, 0x2800008, 0x2800010].contains a ||
  (0x90000 ≤ a && a < 0x93800 && a % 0x2000 < 0x1800 && a % 8 = 0) ||
  (0x300000 ≤ a && a < 0x380000 && a % 0x1000 = 0x0C) || (0x400000 ≤ a && a < 0x484000 && a % 0x1000 = 0x14) ||
  (0x1000000 ≤ a && a < 0x2000000 && a % 8 = 0) || (0x4000000 ≤ a && a < 0x4004000 && a % 16 = 0)

/-- The clearing of an RC register (R7). -/
def State.clearRc (a : Nat) (s : State) : State :=
  if a = 0x138 then s.modSch fun c => { c with futWrRej := 0 }
  else if a = 0x10000 + 7 * 0x4000 + 0x2014 then s.modMbx fun m => { m with drop := 0 }
  else if 0x40200 ≤ a && a < 0x40228 then s.modBus fun b => { b with conflict := tdel b.conflict ((a - 0x40200) / 4) }
  else if 0x400000 ≤ a && a < 0x484000 && a % 0x1000 = 0x20 then s.modPond ((a - 0x400000) / 0x1000) fun p => { p with ceCnt := 0 }
  else if 0x400000 ≤ a && a < 0x484000 && a % 0x1000 = 0x24 then s.modPond ((a - 0x400000) / 0x1000) fun p => { p with collCnt := 0 }
  else if 0x490200 ≤ a && a < 0x490400 then s.modPnd fun p => { p with conflict := tdel p.conflict ((a - 0x490200) / 4) }
  else if 0x490400 ≤ a && a < 0x490600 then s.modPnd fun p => { p with dstdup := tdel p.dstdup ((a - 0x490400) / 4) }
  else s

/-- A read through an alias (R354, R355). -/
def State.readAlias (a : Nat) (members : List Nat) (o : Nat) (s : State) : W32 × State :=
  match (members.filter fun n => (s.laneCause n).isNone).map fun n => (s.lane n).read o with
  | [] => (BitVec.allOnes 32, s.accErr a false 3)
  | v :: r =>
    (BitVec.ofNat 32 v, if r.all (· = v) then s
      else (s.modGlb fun g => { g with bcastAddr := BitVec.ofNat 24 a }).raise 26)

/-- A read of one register by a master: its value and effects, without the latches. -/
def State.readWord (m : BusMaster) (a : Nat) (s : State) : W32 × State :=
  match aliasOf a with
  | some (l, o) => s.readAlias a l o
  | none =>
    match s.unreachable a with
    | some c => (BitVec.allOnes 32, s.accErr a false c)
    | none =>
      if a = 0x50000 || a = 0x60000 then
        let d := s.draw 16
        (BitVec.ofNat 32 (s.tuStat (a / 0x10000 - 5) d.1), d.2)
      else if 0x90000 ≤ a && a < 0xA0000 then s.perfRead m (a - 0x90000)
      else (s.peek a, s.clearRc a)

def State.latched (m : BusMaster) (a : Nat) (s : State) : Option W32 := tfind (tget [] s.bus.latch (busIndex m)) a

def State.setLatch (m : BusMaster) (a : Nat) (v : W32) (s : State) : State :=
  s.modBus fun b => { b with latch := tmod [] b.latch (busIndex m) fun t => tins t a v }

/-- A read of the word at a 4-byte-aligned address of PF0 BAR0 by a master: the lowest word of a wide value latches the next
word, and a latched word reads as it was latched (R6, R357). -/
def State.fabricRead (m : BusMaster) (a : Nat) (s : State) : W32 × State :=
  match if (s.unreachable a).isSome || (0x90000 ≤ a && a < 0xA0000 && !s.perfMay m 1) then none else s.latched m a with
  | some v => (v, s)
  | none =>
    let p := s.readWord m a
    if wideLow a && (s.unreachable a).isNone then (p.1, p.2.setLatch m (a + 4) (s.readWord m (a + 4)).1) else p

/-! ### Writing by block (R7) -/

/-- The implemented fields of `GLB.INT_ENABLE` (R359). -/
def intMask : W32 := 0xFFE01FE1#32

/-- A write of 1 to `GLB.INT_EOI.EOI` (R360). -/
def State.eoi (v : W32) (s : State) : State := if v.getLsbD 0 && s.intA then s.modGlb Glb.sendMsix else s

/-- The vector mask of PF0's MSI-X; unmasking sends a held message if `A` is still non-zero (R360). -/
def State.setMsixMask (mask : Bool) (s : State) : State :=
  if mask then s.modGlb fun g => { g with msixMask := true }
  else
    let send := s.glb.msixHeld && s.intA
    s.modGlb fun g => { g with msixMask := false, msixHeld := false, msixSent := if send then g.msixSent + 1 else g.msixSent }

/-- A write of `GLB.REMAP`: only the CPs can write it (R366). Another master's is recorded with the register's address in that master's
map (R363). -/
def State.writeRemap (m : BusMaster) (v : W32) (s : State) : State :=
  if m = .cpA || m = .cpB then s.modGlb fun g => { g with remap := v.setWidth 2 }
  else s.decodeError m true 6 (if m = .pcie then 0x30 else 0x20000030)

def State.glbWrite (m : BusMaster) (o : Nat) (v : W32) (s : State) : State :=
  if o = 0x20 then s.modGlb fun g => { g with intSticky := g.intSticky &&& ~~~(v &&& 0x0FE00000#32) }
  else if o = 0x24 then s.modGlb fun g => { g with intEnable := v &&& intMask }
  else if o = 0x28 then s.eoi v
  else if o = 0x30 then s.writeRemap m v
  else if o = 0x100 then s.modSch fun c => { c with sticky := w1c c.sticky v.toNat 4 }
  else if o = 0x200 then s.modTwin fun t => { t with sticky := w1c t.sticky v.toNat 21 }
  else s

/-- A host write of a word of a request buffer (R337). -/
def State.writeRequest (n o : Nat) (v : W32) (s : State) : State :=
  if (s.box n).state = .busy then s.modBox n fun b => { b with reject := true }
  else s.modBox n fun b => { b with req := tover 0 o (leBytes 4 v.toNat) b.req }

/-- A write of CONS: one that would pass PROD is ignored (R343). -/
def Mbx.setCons (v : W32) (m : Mbx) : Mbx :=
  let c : W16 := v.setWidth 16
  if (c - m.cons).toNat ≤ (m.prod - m.cons).toNat then { m with cons := c } else m

def State.mbWrite (n o : Nat) (v : W32) (host : HostMem) (s : State) : State :=
  if o < 0x1000 then (if n = 7 then s else s.writeRequest n o v)
  else if o = 0x2000 then (if v.getLsbD 0 then s.doorbell n host else s)
  else if o = 0x2004 then s.modBox n fun b => { b with ignored := b.ignored && !v.getLsbD 29, reject := b.reject && !v.getLsbD 28 }
  else if o = 0x2008 then s.modBox n fun b => { b with intEn := v.getLsbD 0 }
  else if o = 0x2010 && n = 7 then s.modMbx (Mbx.setCons v)
  else s

/-- `RST.WEIR_LOG[i].VALID` is W1C. -/
def Rst.clearWeir (i : Nat) (r : Rst) : Rst := { r with weirLog := tmod (0, 0) r.weirLog i fun e => (e.1 &&& 0x7FFFFFFF#32, e.2) }

def State.rstWrite (m : BusMaster) (o : Nat) (v : W32) (s : State) : State :=
  if o = 0x00 then (if v.getLsbD 0 then s.bootOk m else s)
  else if o = 0x04 then s.rstCtrl v
  else if o = 0x08 then s.funcCtrl v []
  else if o = 0x20 then s.modRst fun r => { r with sticky := w1c r.sticky v.toNat 27 }
  else if o = 0x28 then (if v.getLsbD 0 then s.modRst fun r => { r with ioHold := false, ioRelease := true } else s)
  else if 0x100 ≤ o && o < 0x180 && o % 8 = 0 && v.getLsbD 31 then s.modRst (Rst.clearWeir ((o - 0x100) / 8))
  else s

def Bus.write (o : Nat) (v : W32) (b : Bus) : Bus :=
  if o < 0x28 then { b with qos := tput (qos0 (o / 4)) b.qos (o / 4) (v.setWidth 5) }
  else if o = 0x100 && v.getLsbD 31 then { b with errInfo := b.errInfo &&& 0x7FFFFFFF#32 }
  else b

def Tim.write (o : Nat) (v : W32) (t : Tim) : Tim :=
  if o = 0x000 then { t with selCtrl := v &&& 0xFFF0007F#32 }
  else if o = 0x004 then { t with sticky := w1c t.sticky v.toNat 2 }
  else if 0x100 ≤ o && o < 0x1A0 then t.modCand ((o - 0x100) / 4) fun c => { c with sticky := w1c c.sticky v.toNat 7 }
  else t

def State.timWrite (o : Nat) (v : W32) (s : State) : State :=
  if o = 0xF00 then s.modGlb fun g => { g with ppsCtrl := v &&& 0xFF07#32 }
  else if o = 0xF04 then s.modGlb fun g => { g with ppsSticky := w1c g.ppsSticky v.toNat 29 }
  else s.modTim (Tim.write o v)

/-- `PWR.TAMPER_CFG` is writable in Blank, Provisioned and Field-Return (R9, R425). -/
def State.writeTamperCfg (v : W32) (s : State) : State :=
  if s.rst.lc = .blank || s.rst.lc = .provisioned || s.rst.lc = .fieldReturn then s.modKey fun k => { k with tamperCfg := v.setWidth 4 }
  else s.raise 25

/-- In P3 the AVS loop does not run: a write there sets the fields alone. -/
def State.writeAvs (v : W32) (s : State) : State :=
  if s.glb.power = 3 then s.modPwr fun p => { p with avsEnable := v.getLsbD 31, avsPec := v.getLsbD 7, avsAddr := v.setWidth 7 }
  else s.modPwr (Pwr.avsConfig v)

def State.pwrWrite (o : Nat) (v : W32) (s : State) : State :=
  if o = 0x00 then (s.modPwr fun p => { p with sticky := w1c p.sticky v.toNat 10 }).modKey fun k => { k with tamperEvt := k.tamperEvt && !v.getLsbD 9 }
  else if o = 0x04 then s.writeAvs v
  else if o = 0x10 then s.writeTamperCfg v
  else s

/-- A write of `KEY.DESK_CMD`: OP and SLOT are taken, and START runs the operation (R275). An unwrap fault is an event of its
own row. -/
def State.writeDeskCmd (v : W32) (s : State) : State :=
  let op := fld v.toNat 28 3
  let slot := fld v.toNat 0 14
  let s := s.modKey fun k => { k with deskOp := BitVec.ofNat 3 op, deskSlot := BitVec.ofNat 14 slot }
  if !v.getLsbD 31 then s
  else if op = 1 then s.desk 1 slot (deskLoadRun slot {})
  else if op = 2 then s.desk 2 slot fun s => if s.activateBad slot then (2, s) else (0, s.activate slot)
  else if op = 3 then s.desk 3 slot fun s => (0, s.modKey (Key.modSlot slot (Slot.erase false)))
  else if op = 4 then s.desk 4 slot fun s => (0, s.modKey (Key.modSlot slot (Slot.erase true)))
  else s.modKey Key.deskNoOp

def State.keyWrite (o : Nat) (v : W32) (s : State) : State :=
  if s.rst.variant = 2 then s
  else if o = 0 then
    let s := if v.getLsbD 1 then s.modKey (Key.leave 1) else s
    if v.getLsbD 0 then s.modKey (Key.claim 1) else s
  else if o = 4 then s.writeDeskCmd v
  else if o = 8 then s.modKey fun k => { k with sticky := w1c k.sticky v.toNat 22 }
  else if 0x10 ≤ o && o < 0x40 then s.modKey fun k => { k with data := tput 0 k.data ((o - 0x10) / 4) v }
  else s

/-- The taps of a `LANE.PHY_CFG` value, reduced in the order POST1, PRE1, PRE2 until their sum is 32 (R461). -/
def phyValue (v : W32) : W32 :=
  let v := v &&& 0xFFFFF03F#32
  let pre2 := fld v.toNat 24 4
  let pre1 := fld v.toNat 18 6
  let post1 := fld v.toNat 12 6
  let post := min post1 (32 - (pre2 + pre1))
  let pre := min pre1 (32 - pre2)
  BitVec.ofNat 32 (setFld (setFld v.toNat 12 6 post) 18 6 pre)

/-- A lane block's writable registers. -/
def Lane.write (o : Nat) (v : W32) (l : Lane) : Lane :=
  if o = 0x100 then { l with sticky := w1c l.sticky v.toNat 16 }
  else if o = 0x200 then { l with stSticky := w1c l.stSticky v.toNat 14 }
  else if o = 0x300 then { l with phyCfg := phyValue v }
  else l

def Grp.write (o : Nat) (v : W32) (r : Grp) : Grp :=
  if o = 0x00 then { r with sticky := w1c r.sticky v.toNat 26 }
  else if o = 0x08 then { r with conjSticky := w1c r.conjSticky v.toNat 14 }
  else r

/-- A pond's window; a maintenance access started here falls in core cycle 0 of the frame. -/
def State.pondWrite (p o : Nat) (v : W32) (s : State) : State :=
  if o = 0x00 then s.modPond p fun x => { x with sticky := w1c x.sticky v.toNat 19, deny := x.deny && !v.getLsbD 17 }
  else if o = 0x10 then s.maintCtrl p v.toNat 0
  else if o = 0x14 then s.modPond p fun x => { x with data := x.data &&& 0xFFFFFFFF00000000#64 ||| v.setWidth 64 }
  else if o = 0x18 then s.modPond p fun x => { x with data := x.data &&& 0xFFFFFFFF#64 ||| (v.setWidth 64 <<< 32) }
  else s

/-! ### The Future-bank window (R117, R140) -/

/-- A window write that the device discards. -/
def Sch.rejectWrite (c : Sch) : Sch := { (c.flag 2) with futWrRej := satAdd c.futWrRej 1 }

/-- The window takes writes: the Future bank is OPEN, and no destructive march runs on it (R140, R379). -/
def State.windowOpen (s : State) : Bool := s.sch.futState = .opened && !s.futureMarched

/-- A +0 write: held for its master while the window takes writes. -/
def State.windowLo (m : BusMaster) (k : Nat) (v : W32) (s : State) : State :=
  s.modSch fun c =>
    if s.windowOpen then { c with held := tins c.held (busIndex m) (k, v) } else { c.rejectWrite with held := tdel c.held (busIndex m) }

/-- The bank with a whole entry stored: its check bits are fresh. -/
def Bank.store (k : Nat) (e : BitVec 48) (b : Bank) : Bank :=
  { b with
    cmap := tput 0 b.cmap k e, mapBad := tdel b.mapBad k, dead := without b.dead k
    written := if b.undef.isSome then addNew b.written k else b.written }

/-- A +4 write: stores the entry with the +0 word its master holds, or is discarded. A gated cluster whose stream the entry
names is ungated (R415). -/
def State.windowHi (m : BusMaster) (k : Nat) (v : W32) (s : State) : State :=
  if !s.windowOpen then s.modSch fun c => { c.rejectWrite with held := tdel c.held (busIndex m) }
  else match tfind s.sch.held (busIndex m) with
    | some (k', lo) =>
      if k' != k then s.modSch Sch.rejectWrite
      else
        let e : BitVec 48 := BitVec.ofNat 48 (v.toNat % 65536 * 2 ^ 32 + lo.toNat)
        let s := s.modSch fun c => { (c.modBank c.future (Bank.store k e)) with held := tdel c.held (busIndex m) }
        if Entry.v e then s.ungate (maskOf ((entryStreams (keyStream k) e).map (· / 8))) else s
    | none => s.modSch Sch.rejectWrite

/-! ### Writing -/

/-- A write through an alias: applied to every reachable member (R353, R355). -/
def State.writeAlias (a : Nat) (members : List Nat) (o : Nat) (v : W32) (s : State) : State :=
  match members.filter fun n => (s.laneCause n).isNone with
  | [] => s.accErr a true 3
  | l => { s with lanes := l.foldl (fun t n => tmod {} t n (Lane.write o v)) s.lanes }

/-- A full-word write of a register of PF0 BAR0 by a master. -/
def State.poke (m : BusMaster) (a : Nat) (v : W32) (host : HostMem) (s : State) : State :=
  if a < 0x10000 then s.glbWrite m a v
  else if a < 0x30000 then s.mbWrite ((a - 0x10000) / 0x4000) (a % 0x4000) v host
  else if a < 0x40000 then s.rstWrite m (a - 0x30000) v
  else if a < 0x50000 then s.modBus (Bus.write (a - 0x40000) v)
  else if a = 0x50000 then s.modTim fun t => { t with faultA := t.faultA && !v.getLsbD 29 }
  else if a = 0x60000 then s.modTim fun t => { t with faultB := t.faultB && !v.getLsbD 29 }
  else if a < 0x70000 then s
  else if a < 0x80000 then s.timWrite (a - 0x70000) v
  else if a < 0x90000 then s.pwrWrite (a - 0x80000) v
  else if a < 0xA0000 then s.perfWrite m (a - 0x90000) v
  else if a < 0xB0000 then s.pertWrite (a - 0xA0000) v
  else if a < 0xC0000 then s.keyWrite (a - 0xB0000) v
  else if 0x100000 ≤ a && a < 0x200000 then s.modLane ((a - 0x100000) / 0x2000) (Lane.write (a % 0x2000) v)
  else if 0x300000 ≤ a && a < 0x380000 then s.modGrp ((a - 0x300000) / 0x1000) (Grp.write (a % 0x1000) v)
  else if 0x400000 ≤ a && a < 0x484000 then s.pondWrite ((a - 0x400000) / 0x1000) (a % 0x1000) v
  else if a = 0x490600 then s.modPnd fun p => { p with bypass := v.getLsbD 0 }
  else if 0x1000000 ≤ a && a < 0x2000000 then
    (if a % 8 = 0 then s.windowLo m ((a - 0x1000000) / 8) v else s.windowHi m ((a - 0x1000000) / 8) v)
  else if 0x2000000 ≤ a && a < 0x2800000 then s.modEng fun e => { e with
      eps := tmod {} e.eps ((a - 0x2000000) / 32) fun x => { x with latched := tput 0 x.latched (a % 32 / 4) v } }
  else if 0x4000000 ≤ a && a < 0x4004000 then s.modSch fun c => { c with
      descs := tput 0 c.descs ((a - 0x4000000) / 4) v, load := c.load.map fun l => { l with undef := true } }
  else s

/-- A write of the word at a 4-byte-aligned address of PF0 BAR0: discarded where its byte enables are not all set (R5) or the
register cannot be reached (R356); PF0's writes of the endpoint window are discarded without error (R351), where the latch description
is read-only for every master (R226). R5 speaks of PCIe requests; the model
takes it for every master (DESIGN CHOICE, log entry 42). -/
def State.fabricWrite (m : BusMaster) (a : Nat) (be : BitVec 4) (v : W32) (host : HostMem) (s : State) : State :=
  if be != 0xF then s
  else match aliasOf a with
    | some (l, o) => s.writeAlias a l o v
    | none =>
      if 0x2000000 ≤ a && a < 0x2800018 && (m = .pcie || 0x2800000 ≤ a) then s
      else match s.unreachable a with
        | some c => s.accErr a true c
        | none => s.poke m a v host

/-! ### The bus matrix (R362, R363) -/

/-- The target of a PF0 BAR0 offset: 6 register fabric, 7 tense window, 8 endpoint store, 9 key desk. -/
def fabricTarget (a : Nat) : Nat :=
  if 0x1000000 ≤ a && a < 0x2000000 then 7 else if 0x2000000 ≤ a && a < 0x2800018 then 8 else if 0xB0000 ≤ a && a < 0xC0000 then 9 else 6

/-- The target and the address in it that a master's address names: PF0 BAR0, and PF1 and the vector table by log entry 12, for
PCIe; the map of R363 for every other. Target 11 is PCIe configuration space, which no matrix path crosses. -/
def State.decode (m : BusMaster) (a : Nat) (s : State) : Nat × Nat :=
  if m = .pcie then
    if 0x10000000 ≤ a && a < 0x10200000 then (4, a - 0x10000000)
    else if 0x11000000 ≤ a && a < 0x14000000 then (11, a)
    else (fabricTarget a, a)
  else if a < 0x200000 then
    (if m = .cpA && s.glb.remap.getLsbD 0 then (1, a) else if m = .cpB && s.glb.remap.getLsbD 1 then (2, a) else (0, a % 0x10000))
  else if 0x10000000 ≤ a && a < 0x10800000 then (1 + (a - 0x10000000) / 0x200000, a % 0x200000)
  else if 0x11000000 ≤ a && a < 0x11040000 then (5, a - 0x11000000)
  else if 0x12000000 ≤ a && a < 0x12010000 then (0, a - 0x12000000)
  else if 0x20000000 ≤ a && a < 0x24004000 then (fabricTarget (a - 0x20000000), a - 0x20000000)
  else if 0x100000000 ≤ a && a < 0x100000000 + 2 ^ 40 then (10, a - 0x100000000)
  else (15, a)

/-- The paths of R362: (reads, writes). The debug paths are open at D2 and D3 only. -/
def State.paths (m : BusMaster) (s : State) : List Nat × List Nat :=
  match m with
  | .cpA | .cpB => ([0, 1, 2, 3, 4, 5, 6, 7, 8, 9, 10], [1, 2, 3, 4, 5, 6, 7, 8, 9, 10])
  | .dmaS => ([3, 10], [3, 7])
  | .dmaP => ([8], [10])
  | .pcie => ([4, 6, 7, 8, 9, 11], [4, 6, 7, 8, 9, 11])
  | .debug => if s.rst.dbgLevel.toNat < 2 then ([], []) else ([0, 1, 2, 3, 4, 6, 7, 8], [1, 2, 3, 4, 6, 7, 8])
  | _ => ([3, 8], [8])

/-- A destructive march runs on the memory behind an address of a target (R379). -/
def State.targetMarched (t a : Nat) (s : State) : Bool :=
  s.mem.marches.any fun r => r.destr && ((t = 3 && r.memory = 0x02) || (t = 4 && r.memory = 0x03) || (t = 7 && r.memory = 0x12 + s.sch.future) ||
    (t = 8 && a < 0x2800000 && r.memory = 0x0A + (a - 0x2000000) / 0x200000))

/-- An engine gateway reaches the endpoint store of its own island, and W2 while the boot ROM or the active CP passes it the microcode: in
the start, and after its island's reset until the reload is done (R362, R333, R398). -/
def State.gatewayMay (m : BusMaster) (t a : Nat) (s : State) : Bool :=
  busIndex m < 6 || (if t = 8 then a < 0x2800000 && (a - 0x2000000) / 0x200000 = busIndex m - 6
    else s.rst.phase = .romBoot || s.rst.phase = .nganas || (s.rst.phase = .started && (tfind s.eng.istore (busIndex m - 6)).isNone))

/-- The matrix grants an access; otherwise it ends in a decode error. Window writes under a march are discarded by the window (R140), and
PF0's writes of the endpoint window are always discarded without error (R351). -/
def State.granted (m : BusMaster) (write : Bool) (d : Nat × Nat) (s : State) : Bool :=
  (if write then (s.paths m).2 else (s.paths m).1).contains d.1 && s.gatewayMay m d.1 d.2 &&
  !(s.targetMarched d.1 d.2 && !(write && (d.1 = 7 || (d.1 = 8 && m = .pcie))))

/-- PF1's windows are inert (R361). -/
def State.pf1Off (s : State) : Bool := s.rst.phase = .shallows || s.rst.phase = .decommission

/-- A byte of a working SRAM bank; after a march that ended early its content is undefined (R379). -/
def Bus.mask (b : Bus) (k i : Nat) : Byte := (maskWord (tfind b.sramBase k) i).setWidth 8
def Bus.byte (b : Bus) (k i : Nat) : Byte := tget 0 (tget [] b.sram k) i ^^^ b.mask k i

def Bus.setByte (k i : Nat) (v : Byte) (b : Bus) : Bus := { b with sram := tmod [] b.sram k fun t => tput 0 t i (v ^^^ b.mask k i) }

/-- A word of bank `k` written by its byte enables. -/
def Bus.setWord (k i : Nat) (be : BitVec 4) (v : W32) (b : Bus) : Bus :=
  ((List.range 4).filter be.getLsbD).foldl (fun b n => b.setByte k (i + n) (BitVec.ofNat 8 (v.toNat / 256 ^ n))) b

/-- A word of the secure scratchpad; after a march that ended early its content is undefined (R379). -/
def Bus.secWord (k : Nat) (b : Bus) : W64 := tget 0 b.secPad k ^^^ maskWord b.secBase k

def Bus.modSec (k : Nat) (f : W64 → W64) (b : Bus) : Bus := { b with secPad := tput 0 b.secPad k (f (b.secWord k) ^^^ maskWord b.secBase k) }

def padWord (hi : Bool) (w : W64) : W32 := if hi then (w >>> 32).setWidth 32 else w.setWidth 32

/-- The address bits and the type bits of a BAR register (R350): 64-bit, 256 MiB and 16 KiB for PF0, 2 MiB prefetchable and 64 KiB for
PF1; any other BAR reads 0. -/
def barMask (f i : Nat) : W32 × W32 :=
  if i = 1 || i = 3 then (0xFFFFFFFF, 0)
  else if i = 0 then (if f = 0 then (0xF0000000, 0x4) else (0xFFE00000, 0xC))
  else if i = 2 then (if f = 0 then (0xFFFFC000, 0x4) else (0xFFFF0000, 0x4))
  else (0, 0)

/-- A function's configuration space as far as R350 and R361 name it: identifiers, PF1's Command register, and the BARs; PF1's read 0 in
`Shallows` and `Decommission`. The offsets are those of PCI (PRESUMED, log entry 12). -/
def State.configRead (f o : Nat) (s : State) : W32 :=
  if o = 0 then 0x9128#16 ++ Config.vendorId
  else if o = 4 then (if f = 1 then BitVec.ofNat 32 (b2n s.glb.bme * 4 + b2n s.glb.mse * 2) else 0)
  else if 0x10 ≤ o && o < 0x28 && !(f = 1 && s.pf1Off) then tget 0 s.glb.bars (8 * f + (o - 0x10) / 4) ||| (barMask f ((o - 0x10) / 4)).2
  else 0

/-- PF1's Bus Master Enable and Memory Space Enable (R361): a transfer that runs ends with the first. What the second does elsewhere the
spec does not say, and accesses are taken whatever it holds (DESIGN CHOICE, log entry 12). -/
def State.writeCommand (v : W32) (s : State) : State :=
  let s := s.modGlb fun g => { g with mse := v.getLsbD 1 }
  if v.getLsbD 2 then s.modGlb fun g => { g with bme := true } else s.loseBme

def State.configWrite (f o : Nat) (v : W32) (s : State) : State :=
  if o = 4 && f = 1 then s.writeCommand v
  else if 0x10 ≤ o && o < 0x28 && !(f = 1 && s.pf1Off) then
    s.modGlb fun g => { g with bars := tput 0 g.bars (8 * f + (o - 0x10) / 4) (v &&& (barMask f ((o - 0x10) / 4)).1) }
  else s

/-- The place in PCIe of log entry 12 that an address of target 11 names, with the function it belongs to: PF1 BAR2 and the vector table
of PF0 are windows of functions 3 and 2, configuration space of neither. -/
def pcieFunction (a : Nat) : Option Nat := if a < 0x12000000 then some 3 else if a < 0x13000000 then some 2 else none

/-- A window of PF1, or PF0's vector table, whose function is in reset, or W3 before its island is released (R350, R389, R399). -/
def State.windowDown (t a : Nat) (s : State) : Bool :=
  if t = 4 then s.inReset 3 || s.cpDown else (pcieFunction a).any s.inReset

/-- An access there is answered under R356 with CAUSE 1. It has no offset in PF0 BAR0, so the recorded one is free (DESIGN CHOICE, log
entry 39). -/
def State.windowErr (write : Bool) (s : State) : State :=
  let d := s.draw 28
  d.2.accErr d.1.toNat write 1

/-- PF1's status register, the MSI-X tables and pending bits of both functions, and configuration space (R350), by log entry 12. -/
def State.pf1Read (a : Nat) (s : State) : W32 :=
  if 0x13000000 ≤ a then s.configRead (if a < 0x13001000 then 1 else 0) (a % 0x1000)
  else BitVec.ofNat 32 (
    if a < 0x12000000 && s.pf1Off then 0
    else if a = 0x11000000 then b2n s.sch.load.isSome * 2 ^ 31 + b2n s.glb.dmaPBusy * 2 ^ 30 + s.glb.dmaSticky.toNat * 2 ^ 28
    else if 0x11008000 ≤ a && a < 0x1100800C then (tget 0 s.glb.msixTab (4 + (a - 0x11008000) / 4)).toNat
    else if a = 0x1100800C then b2n s.glb.pf1Mask
    else if a = 0x1100A000 then b2n s.glb.pf1Held
    else if 0x12000000 ≤ a && a < 0x1200000C then (tget 0 s.glb.msixTab ((a - 0x12000000) / 4)).toNat
    else if a = 0x1200000C then b2n s.glb.msixMask
    else if a = 0x12002000 then b2n s.glb.msixHeld
    else 0)

/-- The vector mask of PF1's MSI-X; unmasking sends a held message. -/
def Glb.setPf1Mask (mask : Bool) (g : Glb) : Glb :=
  if mask then { g with pf1Mask := true } else { g with pf1Mask := false, pf1Held := false, pf1Sent := if g.pf1Held then g.pf1Sent + 1 else g.pf1Sent }

def State.pf1Write (a : Nat) (v : W32) (s : State) : State :=
  if a < 0x12000000 && s.pf1Off then s
  else if a = 0x11000000 then s.modGlb fun g => { g with dmaSticky := w1c g.dmaSticky v.toNat 28 }
  else if 0x11008000 ≤ a && a < 0x1100800C then s.modGlb fun g => { g with msixTab := tput 0 g.msixTab (4 + (a - 0x11008000) / 4) v }
  else if a = 0x1100800C then s.modGlb (Glb.setPf1Mask (v.getLsbD 0))
  else if 0x12000000 ≤ a && a < 0x1200000C then s.modGlb fun g => { g with msixTab := tput 0 g.msixTab ((a - 0x12000000) / 4) v }
  else if a = 0x1200000C then s.setMsixMask (v.getLsbD 0)
  else if 0x13000000 ≤ a then s.configWrite (if a < 0x13001000 then 1 else 0) (a % 0x1000) v
  else s

/-- The journal lies in the top 256 KiB of the standby CP's bank (R329, R368). Its coding is Nganas' own, so what those bytes read as is
free once a record was written (DESIGN CHOICE, log entry 41); the records themselves stand in `Mbx.journal`. -/
def State.journalAt (k a : Nat) (s : State) : Bool :=
  k = s.standbyOf 1 && 0x1C0000 ≤ a && (!s.mbx.journal.isEmpty || s.cps.applied != 0)

/-- What a target answers to a read. The boot ROM's content and host memory are not the model's: their words are free. -/
def State.targetRead (m : BusMaster) (t a : Nat) (s : State) : W32 × State :=
  if t = 0 || t = 10 || (t ≤ 2 && s.journalAt (t - 1) a) then s.draw 32
  else if m = .pcie && t = 4 && s.pf1Off then (0, s)
  else if m = .pcie && (t = 4 || t = 11) && s.windowDown t a then (BitVec.allOnes 32, s.windowErr false)
  else if t ≤ 4 then (BitVec.ofNat 32 (leNat ((List.range 4).map fun i => s.bus.byte (t - 1) (a + i))), s)
  else if t = 5 then (padWord (a % 8 = 4) (s.bus.secWord (a / 8)), s)
  else if t = 11 then (s.pf1Read a, s)
  else s.fabricRead m a

def State.targetWrite (m : BusMaster) (t a : Nat) (be : BitVec 4) (v : W32) (host : HostMem) (s : State) : State :=
  if t = 10 || (m = .pcie && t = 4 && s.pf1Off) then s
  else if m = .pcie && (t = 4 || t = 11) && s.windowDown t a then s.windowErr true
  else if t ≤ 4 then s.modBus (Bus.setWord (t - 1) a be v)
  else if t = 5 then s.modBus (Bus.modSec (a / 8) fun w =>
    let keep : W64 := if a % 8 = 4 then 0xFFFFFFFF#64 else 0xFFFFFFFF00000000#64
    let byte (i : Nat) : W64 := if be.getLsbD i then 0 else BitVec.ofNat 64 (0xFF * 2 ^ (8 * (a % 8 + i)))
    let old : W64 := keep ||| byte 0 ||| byte 1 ||| byte 2 ||| byte 3
    w &&& old ||| ((v.setWidth 64 <<< (8 * (a % 8))) &&& ~~~old))
  else if t = 11 then (if be = 0xF then s.pf1Write a v else s)
  else s.fabricWrite m a be v host

/-- One read of the word at an aligned address by a master: granted and answered, or a decode error without data (R362). -/
def State.readOne (m : BusMaster) (addr : Nat) (s : State) : Option W32 × State :=
  let d := s.decode m addr
  if s.held then (none, s)
  else if !s.granted m false d then (none, s.decodeError m false d.1 (BitVec.ofNat 64 addr))
  else
    let p := s.targetRead m d.1 d.2
    (some p.1, p.2.count (560 + busIndex m) 1)

/-- One write of the word at an aligned address by a master. -/
def State.writeOne (m : BusMaster) (addr : Nat) (be : BitVec 4) (v : W32) (host : HostMem) (s : State) : State :=
  let d := s.decode m addr
  if s.held then s
  else if !s.granted m true d then s.decodeError m true d.1 (BitVec.ofNat 64 addr)
  else (s.targetWrite m d.1 d.2 be v host).count (560 + busIndex m) 1

/-- A 32-bit read by a master. One that is not aligned reads both words that hold its bytes, the lower first (R5). -/
def State.busRead (m : BusMaster) (addr : Nat) (s : State) : State :=
  let k := addr % 4
  let p := s.readOne m (addr - k)
  if k = 0 then (match p.1 with
    | some v => p.2.readAnswer m v
    | none => p.2)
  else
    let q := p.2.readOne m (addr - k + 4)
    match p.1, q.1 with
    | some lo, some hi => q.2.readAnswer m (BitVec.setWidth 32 ((hi ++ lo) >>> (8 * k)))
    | _, _ => q.2

/-- A 32-bit write by a master. One that is not aligned writes the bytes of two words, the lower first (R5). -/
def State.busWrite (m : BusMaster) (addr : Nat) (be : BitVec 4) (v : W32) (host : HostMem) (s : State) : State :=
  let k := addr % 4
  if k = 0 then s.writeOne m addr be v host
  else (s.writeOne m (addr - k) (be <<< k) (v <<< (8 * k)) host).writeOne m (addr - k + 4) (be >>> (4 - k)) (v >>> (32 - 8 * k)) host

/-! ### The rows -/

/-- A write of a register that has no row of its own (R7). -/
def execRegisterWrite (m : BusMaster) (addr : Nat) (be : BitVec 4) (v : W32) (host : HostMem) (s : State) : Result :=
  done (s.busWrite m addr be v host)

/-- A read whose word is the lowest of a wide value, or one of the words latched with it (R6). -/
def execCoherentRead (m : BusMaster) (addr : Nat) (s : State) : Result := done (s.busRead m addr)

/-- A read that clears an RC field (R7). -/
def execClearingRead (m : BusMaster) (addr : Nat) (s : State) : Result := done (s.busRead m addr)

/-- A host write through a broadcast alias (R353). -/
def execAliasWrite (addr : Nat) (be : BitVec 4) (v : W32) (s : State) : Result := done (s.busWrite .pcie addr be v [])

/-- A host read through a broadcast alias (R354). -/
def execAliasRead (addr : Nat) (s : State) : Result := done (s.busRead .pcie addr)

/-- The vector of PF0 is unmasked (R360). -/
def execMsixUnmask (s : State) : Result := done (s.setMsixMask false)

/-- A write of `GLB.INT_EOI` (R360). -/
def execIntEoi (v : W32) (s : State) : Result := done (s.busWrite .pcie 0x28 0xF v [])

/-- A host write into a request buffer (R337). -/
def execMbRequestWrite (mb off : Nat) (be : BitVec 4) (v : W32) (s : State) : Result :=
  done (if 8 ≤ mb || 0x1000 ≤ off then s else s.busWrite .pcie (0x10000 + 0x4000 * mb + off) be v [])

/-- A host write of `MB.EV_CONS` (R343). -/
def execMbEvConsWrite (be : BitVec 4) (v : W32) (s : State) : Result := done (s.busWrite .pcie 0x2E010 be v [])

/-- A write of the +0 word of Future-bank entry `idx` (R117). -/
def execFutureWindowWriteLo (m : BusMaster) (idx : Nat) (be : BitVec 4) (v : W32) (s : State) : Result :=
  done (if 2097152 ≤ idx then s else s.busWrite m ((if m = .pcie then 0x1000000 else 0x21000000) + 8 * idx) be v [])

/-- A write of the +4 word of Future-bank entry `idx` (R117, R140). -/
def execFutureWindowWriteHi (m : BusMaster) (idx : Nat) (be : BitVec 4) (v : W32) (s : State) : Result :=
  done (if 2097152 ≤ idx then s else s.busWrite m ((if m = .pcie then 0x1000004 else 0x21000004) + 8 * idx) be v [])

/-- An access that ends in a decode error (R362, R364). -/
def execBusDecodeError (m : BusMaster) (write : Bool) (target : Nat) (addr : W64) (s : State) : Result :=
  done (s.decodeError m write target addr)

/-- A write of `GLB.REMAP` (R366). -/
def execRemapWrite (m : BusMaster) (v : W32) (s : State) : Result := done (s.writeRemap m v)

/-- A host write of `LANE.PHY_CFG` (R461). -/
def execPhyCfgWrite (lane : Nat) (be : BitVec 4) (v : W32) (s : State) : Result :=
  done (if 128 ≤ lane then s else s.busWrite .pcie (0x100300 + 0x2000 * lane) be v [])

end Sys2Proof.Machine
end

