-- ==== Sys2Proof/Machine/Scrub.lean ====
section
/-!
DEFINITION. The background scrub (chapter 16).
-/

namespace Sys2Proof.Machine

/-- The words of a memory, where the scrub visits it (R367, R373). -/
def scrubWords (m : Nat) : Nat :=
  if m ≤ 0x03 then 262144 else if m = 0x04 then 32768 else if m = 0x05 then 131072 else if m ≤ 0x09 then 524288
  else if m ≤ 0x0D then 1572864 else if m ≤ 0x11 then 32768 else if m ≤ 0x14 then 2097152
  else if m ≤ 0x17 then 10 * 2 ^ 40 else if m = 0x18 then 98304 else 0

/-- A correctable error found by the scrub: the word is rewritten (R373). -/
def State.scrubCorrect (m w : Nat) (s : State) : State := (s.memCorrect m w).freshWord m w

/-- An uncorrectable word of tense bank `b` is known: it reopens a VALID Future bank at the next boundary with `fail` in CHK_FAIL
(R144), and a Past bank that holds it cannot be rolled back to (R157). -/
def State.bankError (b : Nat) (fail : W32) (s : State) : State :=
  let s := s.modSch fun c =>
    if c.future = b && c.futState = .valid then { c with pendReopen := some (c.pendReopen.getD fail) }
    else if c.past = b then { c with pastValid := false } else c
  if s.sch.future = b && s.sch.futState = .valid && s.readyFixed then s.raise 22 else s

/-- An uncorrectable error goes to the memory's owner; where the spec gives the owner no action, it is only counted. -/
def State.scrubFail (m w : Nat) (mask : BitVec 72) (s : State) : State :=
  let s := s.modMemRun m (MemRun.note false)
  if m ≤ 0x01 then s.cpBankError m
  else if 0x06 ≤ m && m ≤ 0x09 then s.engineFault ((m - 6) * 256 + w / 2048) 4
  else if 0x12 ≤ m && m ≤ 0x14 then
    let s := (s.modSch (Sch.modBank (m - 0x12) fun b => if uncorrectable mask then { b with mapBad := tput 0 b.mapBad w mask } else b)).bankError (m - 0x12) (BitVec.ofNat 32 (0xC0000000 + w * 128))
    if s.sch.present = m - 0x12 then
      (s.modSch (Sch.modBank (m - 0x12) fun b => { b with mapBad := tdel b.mapBad w, dead := addNew b.dead w })).raise 22 |>.startYield
    else s
  else if 0x15 ≤ m && m ≤ 0x17 then
    (s.modSch (Sch.modBank (m - 0x15) fun b => { b with tblBad := addNew b.tblBad w })).bankError (m - 0x15) 0xC0000000
  else s

/-- A word of a bank that is known to be uncorrectable: an entry that acts as V = 0, or a word of the other tables (R126, R144). -/
def State.knownBad (memory word : Nat) (s : State) : Bool :=
  (0x12 ≤ memory && memory ≤ 0x14 && (s.sch.bank (memory - 0x12)).dead.contains word) ||
    (0x15 ≤ memory && memory ≤ 0x17 && (s.sch.bank (memory - 0x15)).tblBad.contains word)

/-- The scrub visits a word now: it pauses in Hold (R416), and the SLG9128-N has no slot-state table (R367). -/
def State.scrubs (memory word : Nat) (s : State) : Bool :=
  word < scrubWords memory && s.glb.mode != .hold && (s.rst.phase = .started || s.rst.phase = .releaseWait || s.rst.phase = .ppsWait) &&
    !s.rst.scanDirty && !(memory = 0x18 && s.rst.variant = 2)

/-- One scrub step: `mask` is the error it finds in the word beside what is stored. -/
def execScrubStep (memory word : Nat) (mask : BitVec 72) (s : State) : Result :=
  let stored : BitVec 72 := if 0x12 ≤ memory && memory ≤ 0x14 then tget 0 (s.sch.bank (memory - 0x12)).mapBad word else 0
  let found := stored ^^^ mask
  done (if !s.scrubs memory word then s
    else if s.knownBad memory word then s.scrubFail memory word found
    else match popc 72 found.toNat with
      | 0 => if memory < 0x12 || 0x14 < memory then s
        else s.modSch (Sch.modBank (memory - 0x12) fun b => { b with mapBad := tdel b.mapBad word })
      | 1 => s.scrubCorrect memory word
      | _ => s.scrubFail memory word found)

end Sys2Proof.Machine
end

