-- ==== Sys2Proof/Machine/Dispatch.lean ====
section
/-!
DEFINITION. The dispatch: one arm per command, each one direct call of the command's meaning.
-/

namespace Sys2Proof.Machine

def exec (i : Instr) (s : State) : Host.Outcome State Fault Refusal :=
  match i with
  | .powerOn => Sys2Proof.Machine.execPowerOn s
  | .resetNAssert => Sys2Proof.Machine.execResetNAssert s
  | .resetRelease => Sys2Proof.Machine.execResetRelease s
  | .fuseLoadDone => Sys2Proof.Machine.execFuseLoadDone s
  | .pllLockTimeout island => Sys2Proof.Machine.execPllLockTimeout island s
  | .bringUpMarchDone first e => Sys2Proof.Machine.execBringUpMarchDone first e s
  | .flashBoot ucodeOk => Sys2Proof.Machine.execFlashBoot ucodeOk s
  | .bootTimeout => Sys2Proof.Machine.execBootTimeout s
  | .bootOk m => Sys2Proof.Machine.execBootOk m s
  | .coreRelease ppsEdge => Sys2Proof.Machine.execCoreRelease ppsEdge s
  | .ppsAlignTimeout => Sys2Proof.Machine.execPpsAlignTimeout s
  | .hostColdReset v => Sys2Proof.Machine.execHostColdReset v s
  | .hostWarmReset v => Sys2Proof.Machine.execHostWarmReset v s
  | .functionResetRequest v txns => Sys2Proof.Machine.execFunctionResetRequest v txns s
  | .pendingResetApply f txns => Sys2Proof.Machine.execPendingResetApply f txns s
  | .functionResetRelease f => Sys2Proof.Machine.execFunctionResetRelease f s
  | .pcieFlr pf txns => Sys2Proof.Machine.execPcieFlr pf txns s
  | .perstNAssert txns => Sys2Proof.Machine.execPerstNAssert txns s
  | .critParityError unit word => Sys2Proof.Machine.execCritParityError unit word s
  | .ioHoldRelease => Sys2Proof.Machine.execIoHoldRelease s
  | .tamperAlarm src => Sys2Proof.Machine.execTamperAlarm src s
  | .wipeComplete firstDirty secondDirty => Sys2Proof.Machine.execWipeComplete firstDirty secondDirty s
  | .frameBoundary inp => Sys2Proof.Machine.execFrameBoundary inp s
  | .secondBoundary meas => Sys2Proof.Machine.execSecondBoundary meas s
  | .ppsEdge err => Sys2Proof.Machine.execPpsEdge err s
  | .ppsLoss => Sys2Proof.Machine.execPpsLoss s
  | .signalDetected lane => Sys2Proof.Machine.execSignalDetected lane s
  | .signalLost lane => Sys2Proof.Machine.execSignalLost lane s
  | .adaptConverged lane => Sys2Proof.Machine.execAdaptConverged lane s
  | .adaptTimeout lane => Sys2Proof.Machine.execAdaptTimeout lane s
  | .lineFrame lane f => Sys2Proof.Machine.execLineFrame lane f s
  | .huntAccept lane => Sys2Proof.Machine.execHuntAccept lane s
  | .huntTimeout lane => Sys2Proof.Machine.execHuntTimeout lane s
  | .dlofDeclare lane => Sys2Proof.Machine.execDlofDeclare lane s
  | .cdrLockLoss lane => Sys2Proof.Machine.execCdrLockLoss lane s
  | .burstDetected lane ucw frames => Sys2Proof.Machine.execBurstDetected lane ucw frames s
  | .laneTryWindowEnd lane => Sys2Proof.Machine.execLaneTryWindowEnd lane s
  | .deskewDone g delays => Sys2Proof.Machine.execDeskewDone g delays s
  | .osmcPdu g subtype rest => Sys2Proof.Machine.execOsmcPdu g subtype rest s
  | .osmcTimeout g => Sys2Proof.Machine.execOsmcTimeout g s
  | .osmcInfoTx g => Sys2Proof.Machine.execOsmcInfoTx g s
  | .tribOpen tnum => Sys2Proof.Machine.execTribOpen tnum s
  | .dfcmovfDeclare tnum => Sys2Proof.Machine.execDfcmovfDeclare tnum s
  | .dfcmovfClear tnum => Sys2Proof.Machine.execDfcmovfClear tnum s
  | .stitchFrame lane f => Sys2Proof.Machine.execStitchFrame lane f s
  | .stitchToken lane tok => Sys2Proof.Machine.execStitchToken lane tok s
  | .mirrorRecord word => Sys2Proof.Machine.execMirrorRecord word s
  | .commitNotice => Sys2Proof.Machine.execCommitNotice s
  | .domainReadiness => Sys2Proof.Machine.execDomainReadiness s
  | .domainVeto => Sys2Proof.Machine.execDomainVeto s
  | .commitDecision => Sys2Proof.Machine.execCommitDecision s
  | .commitTakeEffect => Sys2Proof.Machine.execCommitTakeEffect s
  | .rollbackTakeEffect => Sys2Proof.Machine.execRollbackTakeEffect s
  | .domainIdCheck => Sys2Proof.Machine.execDomainIdCheck s
  | .schLoadDone => Sys2Proof.Machine.execSchLoadDone s
  | .dmaSReadError => Sys2Proof.Machine.execDmaSReadError s
  | .bmeLost => Sys2Proof.Machine.execBmeLost s
  | .schCopyDone => Sys2Proof.Machine.execSchCopyDone s
  | .schCheckDone => Sys2Proof.Machine.execSchCheckDone s
  | .scrubStep memory word mask => Sys2Proof.Machine.execScrubStep memory word mask s
  | .marchStep mismatch => Sys2Proof.Machine.execMarchStep mismatch s
  | .pondPermanentFault phys => Sys2Proof.Machine.execPondPermanentFault phys s
  | .pondRepairMarchDone phys first second => Sys2Proof.Machine.execPondRepairMarchDone phys first second s
  | .diagMarchDone found => Sys2Proof.Machine.execDiagMarchDone found s
  | .engineFaultEvent e cause => Sys2Proof.Machine.execEngineFaultEvent e cause s
  | .engineRestart e => Sys2Proof.Machine.execEngineRestart e s
  | .engineSelfTestDone e pass => Sys2Proof.Machine.execEngineSelfTestDone e pass s
  | .engineWindowEnd e => Sys2Proof.Machine.execEngineWindowEnd e s
  | .harvestStart => Sys2Proof.Machine.execHarvestStart s
  | .harvestDone => Sys2Proof.Machine.execHarvestDone s
  | .harvestTruncate => Sys2Proof.Machine.execHarvestTruncate s
  | .holdOffExpire pg protect sd => Sys2Proof.Machine.execHoldOffExpire pg protect sd s
  | .wtrExpire pg => Sys2Proof.Machine.execWtrExpire pg s
  | .apsAccept pg v => Sys2Proof.Machine.execApsAccept pg v s
  | .fopNrTimeout pg => Sys2Proof.Machine.execFopNrTimeout pg s
  | .encryptBlockStart tnum => Sys2Proof.Machine.execEncryptBlockStart tnum s
  | .headerReceived tnum h => Sys2Proof.Machine.execHeaderReceived tnum h s
  | .tagCheck tnum tag missing => Sys2Proof.Machine.execTagCheck tnum tag missing s
  | .untrustClear tnum => Sys2Proof.Machine.execUntrustClear tnum s
  | .pipeMismatch cluster side pipe consecutive => Sys2Proof.Machine.execPipeMismatch cluster side pipe consecutive s
  | .pipeHandover cluster side tnum => Sys2Proof.Machine.execPipeHandover cluster side tnum s
  | .pipeSelfTestDone cluster side pipe pass => Sys2Proof.Machine.execPipeSelfTestDone cluster side pipe pass s
  | .spareKat cluster side pass => Sys2Proof.Machine.execSpareKat cluster side pass s
  | .candActivityLoss k => Sys2Proof.Machine.execCandActivityLoss k s
  | .candWtrExpire k => Sys2Proof.Machine.execCandWtrExpire k s
  | .qlTimeout k => Sys2Proof.Machine.execQlTimeout k s
  | .disputeCompare k l offI offJ => Sys2Proof.Machine.execDisputeCompare k l offI offJ s
  | .disputeClear k => Sys2Proof.Machine.execDisputeClear k s
  | .timTransitionEnd => Sys2Proof.Machine.execTimTransitionEnd s
  | .timLock => Sys2Proof.Machine.execTimLock s
  | .timLockLoss phaseNs => Sys2Proof.Machine.execTimLockLoss phaseNs s
  | .hoReady estimatePpt => Sys2Proof.Machine.execHoReady estimatePpt s
  | .holdoverLimit => Sys2Proof.Machine.execHoldoverLimit s
  | .tuPeriodicSwap => Sys2Proof.Machine.execTuPeriodicSwap s
  | .tuEdgeMissing => Sys2Proof.Machine.execTuEdgeMissing s
  | .heartbeatLoss pair unit partnerSees refereeSees => Sys2Proof.Machine.execHeartbeatLoss pair unit partnerSees refereeSees s
  | .unitReady pair unit => Sys2Proof.Machine.execUnitReady pair unit s
  | .resyncTimeout pair unit => Sys2Proof.Machine.execResyncTimeout pair unit s
  | .unitWindowEnd pair unit => Sys2Proof.Machine.execUnitWindowEnd pair unit s
  | .cpPeriodicSwap => Sys2Proof.Machine.execCpPeriodicSwap s
  | .journalRecord => Sys2Proof.Machine.execJournalRecord s
  | .twinHbLoss => Sys2Proof.Machine.execTwinHbLoss s
  | .twinActivate => Sys2Proof.Machine.execTwinActivate s
  | .twinStandbyTakeover => Sys2Proof.Machine.execTwinStandbyTakeover s
  | .twinJoinAligned partnerCfn => Sys2Proof.Machine.execTwinJoinAligned partnerCfn s
  | .twinJoinDone => Sys2Proof.Machine.execTwinJoinDone s
  | .twinHandover cause => Sys2Proof.Machine.execTwinHandover cause s
  | .conjPinEdge pin rising => Sys2Proof.Machine.execConjPinEdge pin rising s
  | .tempSample readings => Sys2Proof.Machine.execTempSample readings s
  | .avsTick counts => Sys2Proof.Machine.execAvsTick counts s
  | .avsPoll readVoutMv statusWord => Sys2Proof.Machine.execAvsPoll readVoutMv statusWord s
  | .pmbusRetry success => Sys2Proof.Machine.execPmbusRetry success s
  | .pmbusAlert statusWord => Sys2Proof.Machine.execPmbusAlert statusWord s
  | .islandGate bit => Sys2Proof.Machine.execIslandGate bit s
  | .resizeComplete ing eg cause => Sys2Proof.Machine.execResizeComplete ing eg cause s
  | .pondFlip => Sys2Proof.Machine.execPondFlip s
  | .pertCountdownEnd control => Sys2Proof.Machine.execPertCountdownEnd control s
  | .tagRecord t => Sys2Proof.Machine.execTagRecord t s
  | .perfSnapshotDone => Sys2Proof.Machine.execPerfSnapshotDone s
  | .jtagScan => Sys2Proof.Machine.execJtagScan s
  | .jtagDebugSet level => Sys2Proof.Machine.execJtagDebugSet level s
  | .jtagFuseProgram variant uniqueId kekSeed trim repairs => Sys2Proof.Machine.execJtagFuseProgram variant uniqueId kekSeed trim repairs s
  | .devResetStart => Sys2Proof.Machine.execDevResetStart s
  | .mailboxReopen mb => Sys2Proof.Machine.execMailboxReopen mb s
  | .msixUnmask => Sys2Proof.Machine.execMsixUnmask s
  | .intEoi v => Sys2Proof.Machine.execIntEoi v s
  | .mbRequestWrite mb off be v => Sys2Proof.Machine.execMbRequestWrite mb off be v s
  | .mbEvConsWrite be v => Sys2Proof.Machine.execMbEvConsWrite be v s
  | .futureWindowWriteLo m idx be v => Sys2Proof.Machine.execFutureWindowWriteLo m idx be v s
  | .futureWindowWriteHi m idx be v => Sys2Proof.Machine.execFutureWindowWriteHi m idx be v s
  | .coherentRead m addr => Sys2Proof.Machine.execCoherentRead m addr s
  | .clearingRead m addr => Sys2Proof.Machine.execClearingRead m addr s
  | .aliasWrite addr be v => Sys2Proof.Machine.execAliasWrite addr be v s
  | .aliasRead addr => Sys2Proof.Machine.execAliasRead addr s
  | .registerWrite m addr be v host => Sys2Proof.Machine.execRegisterWrite m addr be v host s
  | .busDecodeError m write target addr => Sys2Proof.Machine.execBusDecodeError m write target addr s
  | .remapWrite m v => Sys2Proof.Machine.execRemapWrite m v s
  | .phyCfgWrite lane be v => Sys2Proof.Machine.execPhyCfgWrite lane be v s
  | .pondMaintRead phys v cycle => Sys2Proof.Machine.execPondMaintRead phys v cycle s
  | .pondMaintWrite phys v cycle => Sys2Proof.Machine.execPondMaintWrite phys v cycle s
  | .keyDeskClaim => Sys2Proof.Machine.execKeyDeskClaim s
  | .keyDeskRelease => Sys2Proof.Machine.execKeyDeskRelease s
  | .deskLoad slot e => Sys2Proof.Machine.execDeskLoad slot e s
  | .deskActivate slot => Sys2Proof.Machine.execDeskActivate slot s
  | .deskEraseNext slot => Sys2Proof.Machine.execDeskEraseNext slot s
  | .deskEraseSlot slot => Sys2Proof.Machine.execDeskEraseSlot slot s
  | .keyDeskComplete => Sys2Proof.Machine.execKeyDeskComplete s
  | .perfFreeze freeze => Sys2Proof.Machine.execPerfFreeze freeze s
  | .perfSnapshot => Sys2Proof.Machine.execPerfSnapshot s
  | .perfClear => Sys2Proof.Machine.execPerfClear s
  | .tagBufferClear => Sys2Proof.Machine.execTagBufferClear s
  | .devInfo r => Sys2Proof.Machine.execDevInfo r s
  | .devDecommission r burnOk => Sys2Proof.Machine.execDevDecommission r burnOk s
  | .devCpSwap r => Sys2Proof.Machine.execDevCpSwap r s
  | .devReset r txns => Sys2Proof.Machine.execDevReset r txns s
  | .devLcChallenge r => Sys2Proof.Machine.execDevLcChallenge r s
  | .devLcAdvance r burnOk => Sys2Proof.Machine.execDevLcAdvance r burnOk s
  | .devDebugSet r => Sys2Proof.Machine.execDevDebugSet r s
  | .devRedCfg r => Sys2Proof.Machine.execDevRedCfg r s
  | .devUnitStatus r => Sys2Proof.Machine.execDevUnitStatus r s
  | .devUnitReadmit r => Sys2Proof.Machine.execDevUnitReadmit r s
  | .devGpioCfg r => Sys2Proof.Machine.execDevGpioCfg r s
  | .grpCreate r => Sys2Proof.Machine.execGrpCreate r s
  | .grpDelete r => Sys2Proof.Machine.execGrpDelete r s
  | .grpStatus r => Sys2Proof.Machine.execGrpStatus r s
  | .laneRetire r => Sys2Proof.Machine.execLaneRetire r s
  | .laneReadmit r => Sys2Proof.Machine.execLaneReadmit r s
  | .grpSetOptions r => Sys2Proof.Machine.execGrpSetOptions r s
  | .trbStatus r => Sys2Proof.Machine.execTrbStatus r s
  | .trbResize r => Sys2Proof.Machine.execTrbResize r s
  | .trbResizeAbort r => Sys2Proof.Machine.execTrbResizeAbort r s
  | .schLoad r host => Sys2Proof.Machine.execSchLoad r host s
  | .schCopy r => Sys2Proof.Machine.execSchCopy r s
  | .schPrepare r => Sys2Proof.Machine.execSchPrepare r s
  | .schUnprepare r => Sys2Proof.Machine.execSchUnprepare r s
  | .schArm r => Sys2Proof.Machine.execSchArm r s
  | .schDisarm r => Sys2Proof.Machine.execSchDisarm r s
  | .schRollback r => Sys2Proof.Machine.execSchRollback r s
  | .schStatus r => Sys2Proof.Machine.execSchStatus r s
  | .conjNotice r => Sys2Proof.Machine.execConjNotice r s
  | .conjCancel r => Sys2Proof.Machine.execConjCancel r s
  | .conjPinCfg r => Sys2Proof.Machine.execConjPinCfg r s
  | .conjStatus r => Sys2Proof.Machine.execConjStatus r s
  | .epPlace r => Sys2Proof.Machine.execEpPlace r s
  | .epConfig r => Sys2Proof.Machine.execEpConfig r s
  | .epStatus r => Sys2Proof.Machine.execEpStatus r s
  | .epHarvestCfg r => Sys2Proof.Machine.execEpHarvestCfg r s
  | .engStatus r => Sys2Proof.Machine.execEngStatus r s
  | .engReadmit r => Sys2Proof.Machine.execEngReadmit r s
  | .pgCommand r => Sys2Proof.Machine.execPgCommand r s
  | .pgStatus r => Sys2Proof.Machine.execPgStatus r s
  | .pgList r => Sys2Proof.Machine.execPgList r s
  | .keyLock r => Sys2Proof.Machine.execKeyLock r s
  | .keyLoad r e => Sys2Proof.Machine.execKeyLoad r e s
  | .keyActivate r => Sys2Proof.Machine.execKeyActivate r s
  | .keyErase r => Sys2Proof.Machine.execKeyErase r s
  | .keyStatus r => Sys2Proof.Machine.execKeyStatus r s
  | .keyPipeStatus r => Sys2Proof.Machine.execKeyPipeStatus r s
  | .keyPipeReadmit r => Sys2Proof.Machine.execKeyPipeReadmit r s
  | .timCfg r => Sys2Proof.Machine.execTimCfg r s
  | .timCandCfg r => Sys2Proof.Machine.execTimCandCfg r s
  | .timSetQl r => Sys2Proof.Machine.execTimSetQl r s
  | .timStatus r => Sys2Proof.Machine.execTimStatus r s
  | .timHistory r => Sys2Proof.Machine.execTimHistory r s
  | .timSwap r => Sys2Proof.Machine.execTimSwap r s
  | .pwrHold r => Sys2Proof.Machine.execPwrHold r s
  | .pwrResume r => Sys2Proof.Machine.execPwrResume r s
  | .pwrStatus r => Sys2Proof.Machine.execPwrStatus r s
  | .pwrGateUnused r => Sys2Proof.Machine.execPwrGateUnused r s
  | .diagMarch r => Sys2Proof.Machine.execDiagMarch r s
  | .diagLog r => Sys2Proof.Machine.execDiagLog r s
  | .diagPondSpare r => Sys2Proof.Machine.execDiagPondSpare r s
  | .diagPondRestore r => Sys2Proof.Machine.execDiagPondRestore r s
  | .diagMemStatus r => Sys2Proof.Machine.execDiagMemStatus r s
  | .diagPerfAccess r => Sys2Proof.Machine.execDiagPerfAccess r s
  | .fwInfo r => Sys2Proof.Machine.execFwInfo r s
  | .fwWrite r => Sys2Proof.Machine.execFwWrite r s
  | .fwSelect r => Sys2Proof.Machine.execFwSelect r s
  | .fwLiveUpdate r => Sys2Proof.Machine.execFwLiveUpdate r s
  | .fwRecoverStart r => Sys2Proof.Machine.execFwRecoverStart r s
  | .twinJoin r => Sys2Proof.Machine.execTwinJoin r s
  | .twinLeave r => Sys2Proof.Machine.execTwinLeave r s
  | .twinStatus r => Sys2Proof.Machine.execTwinStatus r s
  | .twinCfg r => Sys2Proof.Machine.execTwinCfg r s
  | .twinYield r => Sys2Proof.Machine.execTwinYield r s
  | .domCfg r => Sys2Proof.Machine.execDomCfg r s
  | .domStatus r => Sys2Proof.Machine.execDomStatus r s
  | .stcLaneSet r => Sys2Proof.Machine.execStcLaneSet r s
  | .stcLaneRelease r => Sys2Proof.Machine.execStcLaneRelease r s
  | .quadrantFailure q => Sys2Proof.Machine.execQuadrantFailure q s
  | .jtagCpHalt unit halt => Sys2Proof.Machine.execJtagCpHalt unit halt s
  | .tamperConditionEnd e => Sys2Proof.Machine.execTamperConditionEnd e s
  | .powerDown => Sys2Proof.Machine.execPowerDown s
  | .elasticBufferRecentring cluster => Sys2Proof.Machine.execElasticBufferRecentring cluster s
  | .cpBankUncorrectableError unit => Sys2Proof.Machine.execCpBankUncorrectableError unit s

end Sys2Proof.Machine
end

