-- ==== Sys2Proof/Safety.lean ====
section
/-!
DEFINITION. The terms in which claims are made: what a step leaves unchanged, when a mailbox takes a command and how it is
answered, and the invariants.
-/

namespace Sys2Proof.Machine

/-- The outcome is a next state that has property `P`. -/
def Answers (o : Result) (P : State → Prop) : Prop := ∃ t, o = .next t ∧ P t

/-- The parts of the device. -/
inductive Part where
  | rst | glb | lanes | grps | sch | pnd | dp | eng | prot | key | tim | twin | mbx | cps | bus | mem | pwr | perf | pert | drawn | pending
  deriving DecidableEq, Repr

/-- A part is the same in two states. Of the global block that means all but the interrupt outputs, which follow every change
of a source (R360). -/
def Same (s t : State) : Part → Prop
  | .rst => t.rst = s.rst
  | .glb => t.glb = { s.glb with aPrev := t.glb.aPrev, msixHeld := t.glb.msixHeld, msixSent := t.glb.msixSent }
  | .lanes => t.lanes = s.lanes
  | .grps => t.grps = s.grps
  | .sch => t.sch = s.sch
  | .pnd => t.pnd = s.pnd
  | .dp => t.dp = s.dp
  | .eng => t.eng = s.eng
  | .prot => t.prot = s.prot
  | .key => t.key = s.key
  | .tim => t.tim = s.tim
  | .twin => t.twin = s.twin
  | .mbx => t.mbx = s.mbx
  | .cps => t.cps = s.cps
  | .bus => t.bus = s.bus
  | .mem => t.mem = s.mem
  | .pwr => t.pwr = s.pwr
  | .perf => t.perf = s.perf
  | .pert => t.pert = s.pert
  | .drawn => t.drawn = s.drawn
  | .pending => t.pending = s.pending

/-- Every part but those named is the same. -/
def FrameBut (touched : List Part) (s t : State) : Prop := ∀ p, p ∉ touched → Same s t p

/-- The frame of a command: whatever next state it gives, it changes no part but those named. -/
def Touches (c : Instr) (touched : List Part) : Prop := ∀ s t, exec c s = .next t → FrameBut touched s t

/-- The mailbox is IDLE or DONE, reachable, and its command is answered in the step of its RING: a CP serves, nothing delays it, and
no command rung earlier waits to be taken (R330, R337, R338, R451). -/
def MbReady (r : MbReq) (s : State) : Prop :=
  r.mb < 7 ∧ s.rst.phase = .started ∧ s.inReset (7 + r.mb) = false ∧ ((s.box r.mb).state = .idle ∨ (s.box r.mb).state = .done) ∧
  s.cpServes = true ∧ s.pert.bellDelay r.mb = 0 ∧ s.mbx.waiting.any (Waiting.ripe s.tick) = false

/-- The state in which a command runs: its request stands in the buffer and was taken from it. -/
def State.filled (code : Nat) (r : MbReq) (s : State) : State := (s.modBox r.mb (Mb.fill code r)).rung code r

/-- The request has the form R341 asks of its command, and its mailbox and the device's variant allow the command. -/
def Admitted (code : Nat) (f : Form) (r : MbReq) (s : State) : Prop :=
  f.check r = none ∧ f.object r (s.filled code r) = true ∧ s.denies r code = false

/-- The mailbox is DONE with a response of this status and payload (R337, R340). -/
def Answered (code : Nat) (r : MbReq) (status : Nat) (payload : List Byte) (t : State) : Prop :=
  (t.box r.mb).state = .done ∧ (t.box r.mb).seq = r.seq ∧
  trange 0 (t.box r.mb).resp 0 (16 + payload.length) = msgHeader code r.seq payload.length 0 status ++ payload

/-- What every mailbox exchange touches besides its command's own effect: the mailbox with the journal, and the counter of its
doorbell. -/
def exchangeParts : List Part := [.mbx, .perf]

/-- The command was taken and answered with OK and a payload of `n` bytes, and nothing changed but the exchange itself and the
parts named. -/
def Reports (code : Nat) (r : MbReq) (n : Nat) (touched : List Part) (s t : State) : Prop :=
  ∃ p, Answered code r 0 p t ∧ p.length = n ∧ FrameBut (exchangeParts ++ touched) s t

/-- Every lane but `n` is as it was. -/
def OnlyLane (n : Nat) (s t : State) : Prop := ∀ k, k ≠ n → t.lane k = s.lane k

/-- Every pond but `n` is as it was. -/
def OnlyPond (n : Nat) (s t : State) : Prop := ∀ k, k ≠ n → t.pond k = s.pond k

/-! ### Invariants -/

/-- The three banks hold the three tenses, each one (R135, R136). -/
def BankRoles (s : State) : Prop :=
  s.sch.present < 3 ∧ s.sch.past < 3 ∧ s.sch.future < 3 ∧ s.sch.present ≠ s.sch.past ∧ s.sch.present ≠ s.sch.future ∧
  s.sch.past ≠ s.sch.future

/-- Each mode runs in the power state that R21 names for it (R414). -/
def ModePower (s : State) : Prop := s.glb.power = s.glb.mode.power s.glb.power

/-- The debug level is one that the life-cycle state allows, with authorisation where it asks for it (R417). -/
def DebugAllowed (s : State) : Prop := s.rst.dbgLevel.toNat ≤ s.rst.lc.authLevel

/-! ### The canonical form of the memories: addresses rising, and no entry that equals what an unlisted address holds -/

def Pond.wf (p : Pond) : Bool := twf 0 p.h0 && twf 0 p.h1

def Bank.wf (b : Bank) : Bool := twf 0 b.cmap

def Mb.wf (m : Mb) : Bool := twf 0 m.req && twf 0 m.resp

def Bus.wf (b : Bus) : Bool := twf [] b.sram && b.sram.all (fun e => twf 0 e.2) && twf 0 b.secPad && b.engPad.all fun e => twf 0 e.2

/-- Every pond, connection map, mailbox buffer, SRAM bank and scratchpad has the canonical form. -/
def State.memWf (s : State) : Bool :=
  s.pnd.ponds.all (fun e => e.2.wf) && s.sch.bank0.wf && s.sch.bank1.wf && s.sch.bank2.wf && s.mbx.boxes.all (fun e => e.2.wf) && s.bus.wf

end Sys2Proof.Machine
end

