-- ==== Sys2Proof/Certificates/Slice0/Obligations.lean ====
section
/-!
DEFINITION. The statements for the provers. A clause says that a command answers a next state under hypotheses on the state and
its operands alone, what that state holds, and (`FrameBut`) that every part of the device not named is unchanged.
-/

open Sys2Proof Sys2Proof.Machine

/-! ### The queue and the whole machine -/

/-- A step runs the command at the front of the queue on the state with the queue's rest; an empty queue idles (log entry 15). -/
def Obligations.StepRunsFrontCommand : Prop :=
  (∀ s c r, s.pending = c :: r → step s = exec c { s with pending := r }) ∧ ∀ s, s.pending = [] → step s = .next s

/-- Every command completes with a next state, in every state: no condition the spec describes stops this device. -/
def Obligations.EveryCommandAnswers : Prop := ∀ c s, Answers (exec c s) fun _ => True

/-- No command changes the queue, so a step takes exactly one command from it. -/
def Obligations.CommandsKeepQueue : Prop := ∀ c s t, exec c s = .next t → t.pending = s.pending

/-- The roles of the banks stay a permutation of the three banks through every step (R135, R136). -/
def Obligations.StepKeepsBankRoles : Prop := ∀ s t, BankRoles s → step s = .next t → BankRoles t

/-- Every step keeps each mode in the power state that R21 names for it. -/
def Obligations.StepKeepsModePower : Prop := ∀ s t, ModePower s → step s = .next t → ModePower t

/-- Every step keeps the debug level within what R417 lets the life-cycle state reach. -/
def Obligations.StepKeepsDebugAllowed : Prop := ∀ s t, DebugAllowed s → step s = .next t → DebugAllowed t

/-- What reset leaves: the invariants hold, and the registers read their reset values. The values of registers without a
reset value, and that the model starts in the cold reset of power-on, are the model's choices (log entries 1 to 4). -/
def Obligations.ResetState : Prop :=
  BankRoles State.reset ∧ ModePower State.reset ∧ DebugAllowed State.reset ∧ State.reset.pending = [] ∧
  State.reset.peek 0x00 = 0x91281B00 ∧ State.reset.peek 0x04 = 0x22000000 ∧ State.reset.peek 0x20 = 0 ∧ State.reset.peek 0x24 = 0 ∧
  State.reset.peek 0x100 = 0x18000000 ∧ State.reset.peek 0x10000 = 0 ∧ State.reset.peek 0x12004 = 0xC0000000 ∧
  State.reset.peek 0x12008 = 1 ∧ State.reset.peek 0x30028 = 2 ∧ State.reset.peek 0x40008 = 0x1C ∧ State.reset.peek 0x70000 = 0x69400000 ∧
  State.reset.peek 0x70004 = 0x1F960000 ∧ State.reset.peek 0x70F00 = 0x400 ∧ State.reset.peek 0x80004 = 0xC0 ∧ State.reset.peek 0x80008 = 0x2D0 ∧
  State.reset.peek 0x80010 = 0xF ∧ State.reset.peek 0x97004 = 0x100000 ∧ State.reset.peek 0x100300 = 0x00200028 ∧
  (∀ p, p < 128 → State.reset.peek (0x400000 + 0x1000 * p) = BitVec.ofNat 32 (p * 2 ^ 23)) ∧
  (∀ p, 128 ≤ p → p < 132 → State.reset.peek (0x400000 + 0x1000 * p) = 0x80000000) ∧
  (∀ n, n < 128 → State.reset.peek (0x490000 + 4 * n) = BitVec.ofNat 32 n)

/-! ### Resets and the start -/

/-- Power-on, RESET_N, host resets and the reset that DEV_RESET or FW_RECOVER_START asked for: the source each records, its kind,
and what a cold and a warm reset clear and keep (R385, R386, R402, R403). -/
def Obligations.ResetSources : Prop :=
  (∀ s, Answers (exec .powerOn s) fun t =>
    t.rst.phase = .inReset ∧ t.rst.coldKind = true ∧ t.rst.powered = true ∧ t.rst.lastSrc = 0 ∧ t.rst.count = 0 ∧ t.rst.failCause = 0 ∧
    t.sch = {} ∧ t.lanes = [] ∧ t.tim = {} ∧ t.mbx = {} ∧ t.key.slots = []) ∧
  (∀ s, s.rst.powered = true → Answers (exec .resetNAssert s) fun t =>
    t.rst.phase = .inReset ∧ t.rst.coldKind = true ∧ t.rst.lastSrc = 1 ∧ t.rst.count = s.rst.count ∧ t.rst.failCause = s.rst.failCause ∧
    t.rst.fuse0 = s.rst.fuse0 ∧ t.sch = {} ∧ t.lanes = [] ∧ t.tim = {} ∧ t.twin = {} ∧ t.mem = {}) ∧
  (∀ s (v : W32), s.rst.powered = true → fld v.toNat 16 16 = 0x6E6E → v.getLsbD 1 = true → Answers (exec (.hostColdReset v) s) fun t =>
    t.rst.phase = .inReset ∧ t.rst.coldKind = true ∧ t.rst.lastSrc = 2 ∧ t.rst.count = s.rst.count ∧ t.sch = {} ∧ t.tim = {}) ∧
  (∀ s (v : W32), s.rst.powered = true → s.rst.phase ≠ .inReset → fld v.toNat 16 16 = 0x6E6E → v.getLsbD 1 = false → v.getLsbD 0 = true →
    Answers (exec (.hostWarmReset v) s) fun t =>
      t.rst.phase = .inReset ∧ t.rst.coldKind = false ∧ t.rst.lastSrc = 4 ∧ t.rst.count = s.rst.count ∧ t.rst.shadowOk = s.rst.shadowOk ∧
      t.rst.kek = s.rst.kek ∧ t.tim.state = s.tim.state ∧ t.tim.estimate = s.tim.estimate ∧ t.tim.selCtrl = s.tim.selCtrl ∧
      t.sch = {} ∧ t.lanes = [] ∧ t.twin = {} ∧ t.mem = {} ∧ t.key.slots = []) ∧
  (∀ s, s.rst.devReset = some 3 → Answers (exec .devResetStart s) fun t => t.rst.lastSrc = 2 ∧ t.rst.phase = .inReset ∧ t.rst.coldKind = true) ∧
  (∀ s, s.rst.devReset = some 2 → Answers (exec .devResetStart s) fun t => t.rst.lastSrc = 4 ∧ t.rst.phase = .inReset) ∧
  (∀ s, s.rst.devReset = some 9 → Answers (exec .devResetStart s) fun t =>
    t.rst.lastSrc = 9 ∧ t.rst.phase = .inReset ∧ t.rst.recoverSlot = s.rst.recoverSlot) ∧
  (∀ s, Answers (exec .powerDown s) fun t =>
    t.rst.powered = false ∧ t.rst.ioHold = true ∧ t.rst.fuse0 = s.rst.fuse0 ∧ t.rst.fuse1 = s.rst.fuse1 ∧ t.cps.slot0 = s.cps.slot0 ∧
    t.cps.slot1 = s.cps.slot1 ∧ t.cps.bootPointer = s.cps.bootPointer ∧ t.lanes = [] ∧ t.sch = {})

/-- A parity error in critical state is recorded and acts as its unit says (R395); a tamper alarm wipes the key store and the
scratchpad (R279, R371); the host releases the output hold (R405). -/
def Obligations.ParityTamperAndHold : Prop :=
  (∀ s (w : BitVec 28), s.starting = false → Answers (exec (.critParityError 0 w) s) fun t =>
    t.rst.phase = .inReset ∧ t.rst.lastSrc = 3 ∧ t.rst.coldKind = true) ∧
  (∀ s (w : BitVec 28), Answers (exec (.critParityError 1 w) s) fun t =>
    t.rst.count = 2 ∧ t.rst.sticky.getLsbD 2 = true ∧ t.rst.critInfo = BitVec.ofNat 32 (2 ^ 28 + w.toNat) ∧ t.rst.phase = s.rst.phase) ∧
  (∀ s (w : BitVec 28) u, 2 ≤ u → u ≤ 7 → s.starting = false → Answers (exec (.critParityError u w) s) fun t =>
    t.rst.phase = .inReset ∧ t.rst.lastSrc = 6) ∧
  (∀ s, Answers (exec .ioHoldRelease s) fun t =>
    t.rst = { s.rst with ioHold := false, ioRelease := true } ∧ FrameBut [.rst] s t) ∧
  (∀ s, s.rst.phase ≠ .inReset → s.key.tamperCfg.getLsbD 3 = true → Answers (exec (.tamperAlarm 0x0B) s) fun t =>
    0x0B ∈ t.key.tamperSet ∧ t.key.tamperSrc = 0x0B ∧ t.key.tamperEvt = true ∧ t.key.slots = [] ∧ t.key.failAll = true ∧ t.bus.secPad = []) ∧
  (∀ s, s.key.wiping = true → s.key.wipeBad = false → Answers (exec (.wipeComplete false false) s) fun t =>
    t.key.wiping = false ∧ t.key.wipeBad = false) ∧
  (∀ s, s.key.wiping = true → Answers (exec (.wipeComplete true true) s) fun t => t.key.wipeBad = true ∧ t.key.wiping = false) ∧
  (∀ s src, s.key.tamperSet = [src.toNat] → Answers (exec (.tamperConditionEnd ⟨src, false⟩) s) fun t => t.key = { s.key with tamperSet := [] } ∧ FrameBut [.key] s t) ∧
  (∀ s src n, n ∈ s.key.tamperSet → n ≠ src.toNat → Answers (exec (.tamperConditionEnd ⟨src, false⟩) s) fun t => t.key.tamperOn = true ∧ FrameBut [.key] s t) ∧
  (∀ s src, Answers (exec (.tamperConditionEnd ⟨src, true⟩) s) fun t => t.perf = s.perf.count 766 1 ∧ FrameBut [.perf] s t)

/-- The start sequence of R393: release, fuse load, march, boot, BOOT_OK, core release. -/
def Obligations.StartSequence : Prop :=
  (∀ s, s.rst.phase = .inReset → s.rst.powered = true → s.rst.coldKind = true → Answers (exec .resetRelease s) fun t => t.rst.phase = .fuseLoad) ∧
  (∀ s, s.rst.phase = .inReset → s.rst.powered = true → s.rst.coldKind = false → s.rst.shadowOk = true → s.rst.lc ≠ .decommissioned →
    s.rst.count < 3 → Answers (exec .resetRelease s) fun t => t.rst.phase = .march ∧ t.rst.count = s.rst.count) ∧
  (∀ s, s.rst.phase = .inReset → s.rst.powered = true → s.rst.coldKind = false → s.rst.shadowOk = true → s.rst.lc ≠ .decommissioned →
    s.rst.count = 3 → Answers (exec .resetRelease s) fun t => t.rst.phase = .shallows ∧ t.glb.mode = .shallows ∧ t.glb.power = 3) ∧
  (∀ s, s.rst.phase = .fuseLoad → (s.rst.fuse0.blank && s.rst.fuse1.blank) = false → s.rst.fuse0.crcOk = true →
    lcOf s.rst.fuse0 s.rst.fuse1 ≠ .decommissioned → s.rst.count < 3 → Answers (exec .fuseLoadDone s) fun t =>
      t.rst.phase = .march ∧ t.rst.fuseCopy = false ∧ t.rst.shadowOk = true ∧ t.rst.variant = s.rst.fuse0.variant ∧
      t.rst.lc = lcOf s.rst.fuse0 s.rst.fuse1) ∧
  (∀ s, s.rst.phase = .fuseLoad → (s.rst.fuse0.blank && s.rst.fuse1.blank) = false → s.rst.fuse0.crcOk = false → s.rst.fuse1.crcOk = false →
    Answers (exec .fuseLoadDone s) fun t => t.rst.phase = (if lcOf s.rst.fuse0 s.rst.fuse1 = .decommissioned then .decommission else .shallows) ∧
      t.rst.failCause = 4 ∧ t.rst.count = s.rst.count ∧ t.rst.shadowOk = false) ∧
  (∀ s w, s.rst.phase = .march → Answers (exec (.bringUpMarchDone [] ⟨[], w⟩) s) fun t => t.rst.phase = .romBoot ∧ t.rst.marchOk = true ∧ t.mem.wires = w) ∧
  (∀ s k, s.rst.phase = .romBoot → s.cps.bootSlot (s.rst.recoverSlot.getD s.cps.bootPointer) = some k →
    Answers (exec (.flashBoot true) s) fun t =>
      t.rst.phase = .nganas ∧ t.cps.running = k ∧ t.cps.version = (s.cps.image k).version ∧ t.eng.ucodeId = (s.cps.image k).ucodeId ∧
      (∀ q, q < 4 → tfind t.eng.istore q = some (s.cps.image k).ucodeId) ∧ t.bus = s.bus.copyCp (s.cps.image k) ∧ t.glb.remap = 3) ∧
  (∀ c : Cps, c.bootCrc0.toNat = pointerCrc c.bootPtr0 → c.bootPointer = c.bootPtr0) ∧
  (∀ c : Cps, c.bootCrc0.toNat ≠ pointerCrc c.bootPtr0 → c.bootCrc1.toNat = pointerCrc c.bootPtr1 → c.bootPointer = c.bootPtr1) ∧
  (∀ (c : Cps) k, (c.image k).valid = true → c.bootSlot k = some k) ∧
  (∀ (c : Cps) k, (c.image k).valid = false → (c.image (1 - k)).valid = true → c.bootSlot k = some (1 - k)) ∧
  (∀ s m, m = .cpA ∨ m = .cpB → s.rst.phase = .nganas → s.rst.marchOk = true → s.rst.scanDirty = false → s.glb.alignAtStart = false →
    Answers (exec (.bootOk m) s) fun t => t.rst.bootOkSeen = true ∧ t.rst.count = 0 ∧ t.rst.phase = .releaseWait ∧ t.mbx.serving = true) ∧
  (∀ s, s.rst.phase = .releaseWait → s.pwr.gateOn = false → Answers (exec (.coreRelease false) s) fun t =>
    t.rst.phase = .started ∧ t.glb.released = true ∧ t.glb.cfn = 0 ∧ t.glb.sec = 0 ∧ t.glb.mode = .provisioning ∧ t.glb.power = 0) ∧
  (∀ s, s.rst.phase = .ppsWait → Answers (exec .ppsAlignTimeout s) fun t =>
    t.rst.phase = .started ∧ t.glb.released = true ∧ t.glb.cfn = 0 ∧ t.glb.ppsAligned = false ∧ t.glb.ppsSticky.getLsbD 1 = true)

/-- Failed starts (R392, R393): the count rises, the third enters Shallows, and an earlier one restarts by a warm reset of
source 0x5. -/
def Obligations.StartFailures : Prop :=
  (∀ s k, s.starting = true → k < 44 → s.rst.count < 2 → Answers (exec (.pllLockTimeout k) s) fun t =>
    t.rst.phase = .inReset ∧ t.rst.count = s.rst.count + 1 ∧ t.rst.failCause = 6 ∧ t.rst.lastSrc = 5) ∧
  (∀ s, s.starting = true → s.rst.count < 2 → Answers (exec .bootTimeout s) fun t =>
    t.rst.phase = .inReset ∧ t.rst.count = s.rst.count + 1 ∧ t.rst.failCause = 1 ∧ t.rst.lastSrc = 5) ∧
  (∀ s, s.starting = true → s.rst.count = 2 → Answers (exec .bootTimeout s) fun t =>
    t.rst.phase = .shallows ∧ t.rst.count = 3 ∧ t.rst.failCause = 1 ∧ t.glb.mode = .shallows ∧ t.glb.power = 3)

/-- Function resets (R387, R388, R397 to R402): where one is requested, put off, refused, applied and released; a read of PCIe in flight
at the weir brings all ones and is recorded with CAUSE 2 (R356, R399). -/
def Obligations.FunctionResets : Prop :=
  (∀ s (v : W32), v.getLsbD 31 = true → s.rst.phase = .started → fld v.toNat 0 6 < 44 → s.funcRefused (fld v.toNat 0 6) = false →
    s.inReset (fld v.toNat 0 6) = false → s.clockRuns (fld v.toNat 0 6) = true →
    Answers (exec (.functionResetRequest v []) s) fun t => t.rst.inReset.getLsbD (fld v.toNat 0 6) = true ∧ t.rst.funcSel = BitVec.ofNat 6 v.toNat) ∧
  (∀ s (v : W32), v.getLsbD 31 = true → s.rst.phase = .started → fld v.toNat 0 6 < 44 → s.funcRefused (fld v.toNat 0 6) = false →
    s.inReset (fld v.toNat 0 6) = false → s.clockRuns (fld v.toNat 0 6) = false →
    Answers (exec (.functionResetRequest v []) s) fun t =>
      t.rst.pend.getLsbD (fld v.toNat 0 6) = true ∧ t.rst.sticky.getLsbD 0 = true ∧ t.rst.inReset = s.rst.inReset) ∧
  (∀ s (v : W32), v.getLsbD 31 = true → s.rst.phase = .started → fld v.toNat 0 6 < 44 → s.funcRefused (fld v.toNat 0 6) = true →
    Answers (exec (.functionResetRequest v []) s) fun t =>
      t.rst.sticky.getLsbD 1 = true ∧ t.rst.inReset = s.rst.inReset ∧ t.rst.pend = s.rst.pend) ∧
  (∀ s f, f < 44 → s.rst.pend.getLsbD f = true → s.clockRuns f = true → Answers (exec (.pendingResetApply f []) s) fun t =>
    t.rst.inReset.getLsbD f = true ∧ t.rst.pend.getLsbD f = false) ∧
  (∀ s f, f < 44 → s.rst.inReset.getLsbD f = true → s.rst.phase = .started → s.clockRuns f = true → (f = 17 → s.key.busy = none) →
    Answers (exec (.functionResetRelease f) s) fun t => t.rst.inReset.getLsbD f = false) ∧
  (∀ s, s.rst.phase = .started → s.rst.inReset = 0 → s.rst.pend = 0 → s.rst.scanDirty = false → Answers (exec (.pcieFlr 0 []) s) fun t =>
    t.rst.inReset.getLsbD 2 = true) ∧
  (∀ s, s.rst.phase = .started → s.rst.inReset = 0 → s.rst.pend = 0 → s.rst.scanDirty = false → Answers (exec (.perstNAssert []) s) fun t =>
    t.rst.inReset = 0x7FBC) ∧
  (∀ s n, n < 8 → s.rst.phase = .started → (s.box n).state = .closed → s.cpServes = true → s.rst.bootOkSeen = true → s.inReset (7 + n) = false →
    Answers (exec (.mailboxReopen n) s) fun t => (t.box n).state = .idle ∧ FrameBut [.mbx] s t) ∧
  (∀ s, Answers (exec .bmeLost s) fun t => t.glb.bme = false ∧ (s.sch.load.isSome = true → t.glb.dmaSticky.getLsbD 1 = true ∧ t.sch.load = none)) ∧
  (∀ s, s.key.busy.isSome = true → Answers (exec (.functionResetRelease 17) s) fun t => FrameBut [] s t) ∧
  (∀ s f n a, f < 44 → f ≠ 3 → a < 2 ^ 28 → s.rst.pend.getLsbD f = true → s.clockRuns f = true → s.glb.intSticky.getLsbD 27 = false →
    Answers (exec (.pendingResetApply f [⟨1, 4, 6, n, a⟩]) s) fun t => tget 0 t.bus.readData 4 = 0xFFFFFFFF#32 ∧
      t.glb.intSticky.getLsbD 27 = true ∧ t.glb.accErrAddr.toNat = a ∧ t.glb.accErrInfo = 0x40000000 ∧ t.rst.weirCount = s.rst.weirCount + 1)

/-! ### Registers and the host interface -/

/-- Register writes: the writable bits of INT_ENABLE and BUS.QOS, the write-1-to-clear bits of INT_SUMMARY and SCH.STAT, a write without all
byte enables (R5), a reserved address between the blocks (R10), a register whose function is in reset (R356); GLB.REMAP, which takes a CP's
write and records another master's as a decode error (R366); and a decode error of any master at any target, which is recorded with its
direction, target, master and address where none is (R364, R365), and of which the first is kept; the endpoint window, in which PF0's
writes are discarded (R351) and a CP's are stored (R362). -/
def Obligations.RegisterWrites : Prop :=
  (∀ s (v : W32), s.rst.phase ≠ .inReset → Answers (exec (.registerWrite .pcie 0x24 0xF v []) s) fun t =>
    t.glb.intEnable = v &&& 0xFFE01FE1#32 ∧ FrameBut [.glb, .perf] s t) ∧
  (∀ s (v : W32), s.rst.phase ≠ .inReset → Answers (exec (.registerWrite .pcie 0x20 0xF v []) s) fun t =>
    t.glb.intSticky = s.glb.intSticky &&& ~~~(v &&& 0x0FE00000#32) ∧ FrameBut [.glb, .perf] s t) ∧
  (∀ s (v : W32), s.rst.phase ≠ .inReset → Answers (exec (.registerWrite .pcie 0x100 0xF v []) s) fun t =>
    t.sch.sticky = w1c s.sch.sticky v.toNat 4 ∧ FrameBut [.sch, .perf] s t) ∧
  (∀ s (v : W32), s.rst.phase ≠ .inReset → Answers (exec (.registerWrite .pcie 0x40010 0xF v []) s) fun t =>
    t.bus.read 0x10 = v.toNat % 32 ∧ FrameBut [.bus, .perf] s t) ∧
  (∀ s (v : W32) a (be : BitVec 4), s.rst.phase ≠ .inReset → a < 0x10000000 → be ≠ 0xF →
    Answers (exec (.registerWrite .pcie a be v []) s) fun t => FrameBut [.perf] s t) ∧
  (∀ s (v : W32), s.rst.phase = .started → s.inReset 24 = true → s.glb.intSticky.getLsbD 27 = false →
    Answers (exec (.registerWrite .pcie 0x100100 0xF v []) s) fun t =>
      t.glb.intSticky.getLsbD 27 = true ∧ t.glb.accErrAddr = 0x100100 ∧ t.glb.accErrInfo = 0xA0000000 ∧ FrameBut [.glb, .perf] s t) ∧
  (∀ s m (v : W32), (m = .cpA ∨ m = .cpB) → Answers (exec (.remapWrite m v) s) fun t => t.glb.remap = v.setWidth 2 ∧ FrameBut [.glb] s t) ∧
  (∀ s (v : W32), s.bus.errInfo.getLsbD 31 = false → Answers (exec (.remapWrite .pcie v) s) fun t =>
    t.glb.remap = s.glb.remap ∧ t.bus.errInfo = 0xC0000064 ∧ t.bus.errAddr = 0x30 ∧ FrameBut [.bus] s t) ∧
  (∀ s m (v : W32), m ≠ .cpA → m ≠ .cpB → s.bus.errInfo.getLsbD 31 = false → Answers (exec (.remapWrite m v) s) fun t =>
    t.glb.remap = s.glb.remap ∧ t.bus = { s.bus with errInfo := BitVec.ofNat 32 (0xC0000060 + busIndex m), errAddr := if m = .pcie then 0x30 else 0x20000030 } ∧ FrameBut [.bus] s t) ∧
  (∀ s m w n (a : W64), n < 16 → s.bus.errInfo.getLsbD 31 = false → Answers (exec (.busDecodeError m w n a) s) fun t =>
    t.bus = { s.bus with errInfo := BitVec.ofNat 32 (2 ^ 31 + b2n w * 2 ^ 30 + n * 16 + busIndex m), errAddr := a } ∧ FrameBut [.bus] s t) ∧
  [BusMaster.cpA, .cpB, .dmaS, .dmaP, .pcie, .debug, .eg0, .eg1, .eg2, .eg3].map busIndex = [0, 1, 2, 3, 4, 5, 6, 7, 8, 9] ∧
  (∀ s (v : W32) a, s.rst.phase ≠ .inReset → 0xC0000 ≤ a → a < 0x100000 → Answers (exec (.registerWrite .pcie a 0xF v []) s) fun t =>
    FrameBut [.perf] s t) ∧
  (∀ s m w n (a : W64), s.bus.errInfo.getLsbD 31 = true → Answers (exec (.busDecodeError m w n a) s) fun t => FrameBut [] s t) ∧
  (∀ s (v : W32) a, 0x2000000 ≤ a → a < 0x2800018 → a % 4 = 0 → s.rst.phase = .started → Answers (exec (.registerWrite .pcie a 0xF v []) s) fun t =>
    FrameBut [.perf] s t) ∧
  (∀ s m (v : W32) ep i, (m = .cpA ∨ m = .cpB) → ep < 262144 → i < 8 → s.rst.phase = .started → s.unreachable (0x2000000 + 32 * ep + 4 * i) = none →
    s.mem.marches = [] → Answers (exec (.registerWrite m (0x22000000 + 32 * ep + 4 * i) 0xF v []) s) fun t =>
      tget 0 (tget ({} : EpRun) t.eng.eps ep).latched i = v ∧ FrameBut [.eng, .perf] s t)

/-- A write to an RWP field in a life-cycle state that its row does not name (R9). `PWR.TAMPER_CFG` holds the RWP fields, which
are writable in Blank, Provisioned and Field-Return. -/
def Obligations.RwpReject : Prop :=
  (∀ s m a (v : W32), (m = .pcie ∧ a = 0x80010) ∨ ((m = .cpA ∨ m = .cpB) ∧ a = 0x20080010) → s.rst.phase = .started →
    s.rst.lc = .operational ∨ s.rst.lc = .decommissioned → Answers (exec (.registerWrite m a 0xF v []) s) fun t =>
      t.key.tamperCfg = s.key.tamperCfg ∧ t.glb.intSticky.getLsbD 25 = true ∧ FrameBut [.glb, .perf] s t) ∧
  (∀ s m a (v : W32), (m = .pcie ∧ a = 0x80010) ∨ ((m = .cpA ∨ m = .cpB) ∧ a = 0x20080010) → s.rst.phase = .started →
    s.rst.lc = .blank ∨ s.rst.lc = .provisioned ∨ s.rst.lc = .fieldReturn → Answers (exec (.registerWrite m a 0xF v []) s) fun t =>
      t.key.tamperCfg = v.setWidth 4 ∧ t.glb.intSticky = s.glb.intSticky ∧ FrameBut [.key, .perf] s t)

/-- Reads (R6, R7): a coherent read latches the upper word for its master, which then reads as it was latched; a clearing read
returns the count and clears it. -/
def Obligations.RegisterReads : Prop :=
  (∀ s, s.rst.phase ≠ .inReset → s.latched .pcie 0x08 = none → Answers (exec (.coherentRead .pcie 0x08) s) fun t =>
    tget 0 t.bus.readData 4 = BitVec.ofNat 32 (s.glb.cfn.toNat % 2 ^ 32) ∧
    t.latched .pcie 0x0C = some (BitVec.ofNat 32 (s.glb.cfn.toNat / 2 ^ 32)) ∧ FrameBut [.bus, .perf] s t) ∧
  (∀ s v, s.rst.phase ≠ .inReset → s.latched .pcie 0x0C = some v → Answers (exec (.coherentRead .pcie 0x0C) s) fun t =>
    tget 0 t.bus.readData 4 = v ∧ FrameBut [.bus, .perf] s t) ∧
  (∀ s, s.rst.phase ≠ .inReset → s.latched .pcie 0x138 = none → Answers (exec (.clearingRead .pcie 0x138) s) fun t =>
    tget 0 t.bus.readData 4 = s.sch.futWrRej ∧ t.sch.futWrRej = 0 ∧ FrameBut [.bus, .perf, .sch] s t) ∧
  (∀ s p, p < 132 → s.rst.phase = .started → s.latched .pcie (0x400020 + 0x1000 * p) = none →
    Answers (exec (.clearingRead .pcie (0x400020 + 0x1000 * p)) s) fun t =>
      tget 0 t.bus.readData 4 = (s.pond p).ceCnt ∧ (t.pond p).ceCnt = 0 ∧ FrameBut [.bus, .perf, .pnd] s t)

/-- Broadcast aliases: which lanes each addresses, and a write through one reaches every reachable member with each field's own
access code (R353, R355). -/
def Obligations.AliasWrite : Prop :=
  (∀ o, o < 0x2000 → aliasOf (0x200000 + o) = some ((List.range 128).map (0 + ·), o)) ∧
  (∀ j o, j < 16 → o < 0x2000 → aliasOf (0x202000 + 0x2000 * j + o) = some ((List.range 8).map (8 * j + ·), o)) ∧
  (∀ q o, q < 4 → o < 0x2000 → aliasOf (0x222000 + 0x2000 * q + o) = some ((List.range 32).map (32 * q + ·), o)) ∧
  (∀ s a (v : W32) l o, a < 0x10000000 → a % 4 = 0 → aliasOf a = some (l, o) → s.rst.phase ≠ .inReset → (∃ n ∈ l, s.laneCause n = none) →
    Answers (exec (.aliasWrite a 0xF v) s) fun t =>
      (∀ n ∈ l, s.laneCause n = none → t.lane n = (s.lane n).write o v) ∧
      (∀ n, n ∉ l ∨ s.laneCause n ≠ none → t.lane n = s.lane n) ∧ FrameBut [.lanes, .perf] s t) ∧
  (∀ s a (v : W32) l o, a < 0x10000000 → a % 4 = 0 → aliasOf a = some (l, o) → s.rst.phase ≠ .inReset → (∀ n ∈ l, s.laneCause n ≠ none) →
    Answers (exec (.aliasWrite a 0xF v) s) fun t => t.glb.intSticky.getLsbD 27 = true ∧ FrameBut [.glb, .perf] s t)

/-- A read through an alias returns the value of the lowest reachable member; members that differ set BCAST_MIXED and the alias
offset; no RC field is cleared (R354, R355). -/
def Obligations.AliasRead : Prop :=
  (∀ s a l o n r, aliasOf a = some (l, o) → a % 4 = 0 → s.rst.phase ≠ .inReset → (l.filter fun n => (s.laneCause n).isNone) = n :: r →
    s.latched .pcie a = none → (∀ k ∈ r, (s.lane k).read o = (s.lane n).read o) → Answers (exec (.aliasRead a) s) fun t =>
      tget 0 t.bus.readData 4 = BitVec.ofNat 32 ((s.lane n).read o) ∧ FrameBut [.bus, .perf] s t) ∧
  (∀ s a l o n r, aliasOf a = some (l, o) → a % 4 = 0 → s.rst.phase ≠ .inReset → (l.filter fun n => (s.laneCause n).isNone) = n :: r →
    s.latched .pcie a = none → (∃ k ∈ r, (s.lane k).read o ≠ (s.lane n).read o) → Answers (exec (.aliasRead a) s) fun t =>
      tget 0 t.bus.readData 4 = BitVec.ofNat 32 ((s.lane n).read o) ∧ t.glb.intSticky.getLsbD 26 = true ∧
      t.glb.bcastAddr = BitVec.ofNat 24 a ∧ FrameBut [.glb, .bus, .perf] s t)

/-- The Future-bank window (R117): a +0 word is held for its master, replaces one held before, and the +4 word of the same entry
stores the whole entry; another entry's +4 word, and every write while the bank is not OPEN or a destructive march runs on it, is
discarded and counted (R140, R379). -/
def Obligations.FutureWindow : Prop :=
  (∀ s k (v : W32), k < 2097152 → s.rst.phase = .started → s.windowOpen = true →
    Answers (exec (.futureWindowWriteLo .pcie k 0xF v) s) fun t =>
      tfind t.sch.held 4 = some (k, v) ∧ t.futureBank = s.futureBank ∧ FrameBut [.sch, .perf] s t) ∧
  (∀ s k (lo v : W32), k < 2097152 → s.rst.phase = .started → s.windowOpen = true → s.sch.future < 3 → tfind s.sch.held 4 = some (k, lo) →
    Answers (exec (.futureWindowWriteHi .pcie k 0xF v) s) fun t =>
      t.futureBank.entry k = BitVec.ofNat 48 (v.toNat % 65536 * 2 ^ 32 + lo.toNat) ∧ tfind t.sch.held 4 = none ∧
      (∀ k', k' ≠ k → t.futureBank.entry k' = s.futureBank.entry k') ∧ FrameBut [.sch, .perf, .pwr] s t) ∧
  (∀ s k (v : W32), k < 2097152 → s.rst.phase = .started → s.windowOpen = false ∨ (tfind s.sch.held 4).map Prod.fst ≠ some k →
    Answers (exec (.futureWindowWriteHi .pcie k 0xF v) s) fun t =>
      t.futureBank = s.futureBank ∧ t.sch.sticky.getLsbD 2 = true ∧ t.sch.futWrRej = satAdd s.sch.futWrRej 1 ∧ FrameBut [.sch, .perf] s t) ∧
  (∀ s k (v : W32), k < 2097152 → s.rst.phase = .started → s.windowOpen = false →
    Answers (exec (.futureWindowWriteLo .pcie k 0xF v) s) fun t =>
      t.futureBank = s.futureBank ∧ tfind t.sch.held 4 = none ∧ t.sch.sticky.getLsbD 2 = true ∧
      t.sch.futWrRej = satAdd s.sch.futWrRej 1 ∧ FrameBut [.sch, .perf] s t)

/-- The MB7 ring (R343): 64 slots of 64 bytes; a record goes into slot PROD mod 64 and PROD is incremented; a record that finds PROD - CONS = 64 is
dropped and counted; an unread record with INT_EN sets INT_SUMMARY.MBOX; the host consumes by advancing CONS, and a CONS that would pass
PROD is ignored. A record that is no completion carries PROD as its sequence number. -/
def Obligations.EventRing : Prop :=
  (∀ r : EvRec, r.body.length ≤ 48 → r.bytes.length = 64) ∧
  (∀ (m : Mbx) j r, (m.prod - m.cons).toNat ≠ 64 → (m.put j r).prod = m.prod + 1 ∧ (m.put j r).cons = m.cons ∧ (m.put j r).drop = m.drop ∧
    tfind (m.put j r).ring (m.prod.toNat % 64) = some (if r.flags.getLsbD 31 then r else { r with seq := m.prod }) ∧
    (∀ i, i ≠ m.prod.toNat % 64 → tfind (m.put j r).ring i = tfind m.ring i)) ∧
  (∀ (m : Mbx) j r, (m.prod - m.cons).toNat = 64 → m.put j r = { m with drop := satAdd m.drop 1 }) ∧
  (∀ s : State, s.mbx.prod ≠ s.mbx.cons → (s.box 7).intEn = true → s.intSummary.getLsbD 5 = true) ∧
  (∀ s (v : W32), s.rst.phase = .started → s.inReset 14 = false →
    (v.setWidth 16 - s.mbx.cons).toNat ≤ (s.mbx.prod - s.mbx.cons).toNat → Answers (exec (.mbEvConsWrite 0xF v) s) fun t =>
      t.mbx = { s.mbx with cons := v.setWidth 16 } ∧ FrameBut [.mbx, .perf] s t) ∧
  (∀ s (v : W32), s.rst.phase = .started → s.inReset 14 = false →
    (s.mbx.prod - s.mbx.cons).toNat < (v.setWidth 16 - s.mbx.cons).toNat → Answers (exec (.mbEvConsWrite 0xF v) s) fun t =>
      FrameBut [.perf] s t)

/-- Mailbox buffers and doorbells (R336, R337): the request buffer takes a word while the mailbox is not BUSY, and while it is BUSY the
write only sets BUF_WR_REJECT; a mailbox command on a BUSY or CLOSED mailbox, or on MB7, exchanges nothing and sets DB_IGNORED, on a BUSY
one BUF_WR_REJECT too; one that no CP serves, or that is rung behind an earlier one, leaves the mailbox BUSY with the command waiting
(R330, R338); a mailbox in reset takes nothing, and the access is recorded with CAUSE 1 (R356). The clauses on `mailboxRow` are about every
mailbox command. -/
def Obligations.MailboxDoorbell : Prop :=
  (∀ s n o (v : W32), n < 7 → o < 0x1000 → o % 4 = 0 → s.rst.phase = .started → s.inReset (7 + n) = false → (s.box n).state ≠ .busy →
    Answers (exec (.mbRequestWrite n o 0xF v) s) fun t =>
      t.box n = { s.box n with req := tover 0 o (leBytes 4 v.toNat) (s.box n).req } ∧ (∀ k, k ≠ n → t.box k = s.box k) ∧
      t.mbx = { s.mbx with boxes := t.mbx.boxes } ∧ FrameBut [.mbx, .perf] s t) ∧
  (∀ s n o (v : W32), n < 7 → o < 0x1000 → o % 4 = 0 → s.rst.phase = .started → s.inReset (7 + n) = false → (s.box n).state = .busy →
    Answers (exec (.mbRequestWrite n o 0xF v) s) fun t =>
      t.box n = { s.box n with reject := true } ∧ (∀ k, k ≠ n → t.box k = s.box k) ∧ t.mbx = { s.mbx with boxes := t.mbx.boxes } ∧
      FrameBut [.mbx, .perf] s t) ∧
  (∀ s o (v : W32), o < 0x1000 → o % 4 = 0 → s.rst.phase = .started → s.inReset 14 = false → Answers (exec (.mbRequestWrite 7 o 0xF v) s) fun t =>
    FrameBut [.perf] s t) ∧
  (∀ code f body r s, r.mb < 8 → s.rst.phase = .started → s.inReset (7 + r.mb) = false →
    r.mb = 7 ∨ (s.box r.mb).state = .busy ∨ (s.box r.mb).state = .closed → Answers (mailboxRow code f body r s) fun t =>
      t.box r.mb = { s.box r.mb with
        ignored := true, reject := (s.box r.mb).reject || (r.mb ≠ 7 && (s.box r.mb).state = .busy),
        req := if r.mb = 7 ∨ (s.box r.mb).state = .busy then (s.box r.mb).req else tover 0 0 (reqImage code r) (s.box r.mb).req } ∧
      (∀ k, k ≠ r.mb → t.box k = s.box k) ∧ t.mbx = { s.mbx with boxes := t.mbx.boxes } ∧ FrameBut [.mbx] s t) ∧
  (∀ code f body r s, r.mb < 7 → s.rst.phase = .started → s.inReset (7 + r.mb) = false → (s.box r.mb).state = .idle ∨ (s.box r.mb).state = .done →
    s.pert.bellDelay r.mb = 0 → s.cpServes = false ∨ s.mbx.waiting.any (Waiting.ripe s.tick) = true → Answers (mailboxRow code f body r s) fun t =>
      (t.box r.mb).state = .busy ∧ (t.box r.mb).req = tover 0 0 (reqImage code r) (s.box r.mb).req ∧ (t.box r.mb).resp = (s.box r.mb).resp ∧
      t.mbx.waiting = s.mbx.waiting ++ [⟨BitVec.ofNat 16 code, r, none, [], false⟩] ∧ FrameBut exchangeParts s t) ∧
  (∀ code f body r s, r.mb < 8 → s.rst.phase = .started → s.inReset (7 + r.mb) = true → s.glb.intSticky.getLsbD 27 = false →
    Answers (mailboxRow code f body r s) fun t => t.glb.intSticky.getLsbD 27 = true ∧ t.glb.accErrAddr.toNat = 0x10000 + 0x4000 * r.mb ∧
      t.glb.accErrInfo = 0xA0000000 ∧ FrameBut [.glb] s t)

/-- Interrupt outputs (R360). -/
def Obligations.InterruptOutputs : Prop :=
  (∀ s (v : W32), s.rst.phase ≠ .inReset → v.getLsbD 0 = true → s.intA = true → s.glb.aPrev = true → s.glb.msixMask = false →
    Answers (exec (.intEoi v) s) fun t => t.glb.msixSent = s.glb.msixSent + 1 ∧ FrameBut [.perf] s t) ∧
  (∀ s (v : W32), s.rst.phase ≠ .inReset → s.intA = false → Answers (exec (.intEoi v) s) fun t => t.glb.msixSent = s.glb.msixSent) ∧
  (∀ s, s.intA = true → s.glb.aPrev = true → s.glb.msixHeld = true → s.glb.msixMask = true → Answers (exec .msixUnmask s) fun t =>
    t.glb.msixMask = false ∧ t.glb.msixHeld = false ∧ t.glb.msixSent = s.glb.msixSent + 1) ∧
  (∀ s : State, s.intA = true → s.glb.aPrev = false → s.glb.msixMask = false → s.settle.glb.msixSent = s.glb.msixSent + 1) ∧
  (∀ s : State, s.intA = s.glb.aPrev → s.settle = s)

/-- `LANE.PHY_CFG` (R461): taps whose sum exceeds 32 are reduced in the order POST1, PRE1, PRE2 until the sum is 32; other values are
taken as written. -/
def Obligations.TransmitTaps : Prop :=
  (∀ (v : W32), fld (phyValue v).toNat 24 4 = fld v.toNat 24 4 ∧
    fld (phyValue v).toNat 18 6 = min (fld v.toNat 18 6) (32 - fld v.toNat 24 4) ∧
    fld (phyValue v).toNat 12 6 = min (fld v.toNat 12 6) (32 - fld v.toNat 24 4 - fld v.toNat 18 6) ∧
    fld (phyValue v).toNat 24 4 + fld (phyValue v).toNat 18 6 + fld (phyValue v).toNat 12 6 ≤ 32) ∧
  (∀ s n (v : W32), n < 128 → s.rst.phase = .started → s.laneCause n = none → Answers (exec (.phyCfgWrite n 0xF v) s) fun t =>
    (t.lane n).phyCfg = phyValue v ∧ (∀ k, k ≠ n → t.lane k = s.lane k) ∧ FrameBut [.lanes, .perf] s t)

/-- The key desk (R272, R275): claim, release, and an operation of PF0, whose result appears at its completion. -/
def Obligations.KeyDesk : Prop :=
  (∀ s, s.rst.variant ≠ 2 → s.key.owner = 0 → Answers (exec .keyDeskClaim s) fun t => t.key = { s.key with owner := 1 } ∧ FrameBut [.key] s t) ∧
  (∀ s, s.rst.variant ≠ 2 → s.key.owner ≠ 0 → Answers (exec .keyDeskClaim s) fun t =>
    t.key.owner = s.key.owner ∧ t.key.sticky.getLsbD 5 = true ∧ FrameBut [.key] s t) ∧
  (∀ s, s.key.owner = 1 → Answers (exec .keyDeskRelease s) fun t => t.key = { s.key with owner := 0 } ∧ FrameBut [.key] s t) ∧
  (∀ s k, k < 16384 → s.rst.variant ≠ 2 → s.key.busy = none → s.key.owner = 1 → s.key.blocked = true → Answers (exec (.deskLoad k {}) s) fun t =>
    t.key.busy = some (1, 5) ∧ t.key.slots = s.key.slots ∧ t.key.lastSlot = k) ∧
  (∀ s k i, k < 16384 → s.rst.variant ≠ 2 → s.key.busy = none → s.key.owner = 1 → s.key.blocked = false → s.loadsClosed = false →
    (s.key.slot k).loadHalf = some i → Answers (exec (.deskLoad k {}) s) fun t =>
      (∀ h, s.rst.unwrap s.key.wrapped {} = some (some h) → t.key.busy = some (1, 0) ∧ (t.key.slot k).loadPend = some (i, h)) ∧
      (s.rst.unwrap s.key.wrapped {} = some none → t.key.busy = some (1, 3) ∧ t.key.slot k = s.key.slot k) ∧
      (∀ j, j ≠ k → t.key.slot j = s.key.slot j) ∧ FrameBut [.key] s t) ∧
  (∀ s k, k < 16384 → s.rst.variant ≠ 2 → s.key.busy = none → s.key.owner = 1 → s.activateBad k = false → Answers (exec (.deskActivate k) s) fun t =>
    t.key.busy = some (2, 0) ∧ (t.key.slot k).actPend.isSome = true) ∧
  (∀ s k, k < 16384 → s.rst.variant ≠ 2 → s.key.busy = none → s.key.owner = 1 → Answers (exec (.deskEraseNext k) s) fun t =>
    t.key.busy = some (3, 0) ∧ t.key.slot k = (s.key.slot k).erase false ∧ FrameBut [.key] s t) ∧
  (∀ s k, k < 16384 → s.rst.variant ≠ 2 → s.key.busy = none → s.key.owner = 1 → Answers (exec (.deskEraseSlot k) s) fun t =>
    t.key.busy = some (4, 0) ∧ t.key.slot k = (s.key.slot k).erase true ∧ FrameBut [.key] s t) ∧
  (∀ s k, k < 16384 → s.rst.variant ≠ 2 → s.key.busy = none → s.key.owner ≠ 1 → Answers (exec (.deskEraseSlot k) s) fun t =>
    t.key.result = 1 ∧ t.key.busy = none ∧ t.key.slots = s.key.slots) ∧
  (∀ s op r, s.key.busy = some (op, r) → Answers (exec .keyDeskComplete s) fun t =>
    t.key = { s.key with busy := none, result := r, data := [] } ∧ FrameBut [.key] s t)

/-- The counter block's controls (R444, R448, R449): within the host's access level a control is taken, and otherwise DENIED_EVT
is set and nothing else changes. -/
def Obligations.CounterControls : Prop :=
  (∀ s f, s.perfMay .pcie 2 = true → Answers (exec (.perfFreeze f) s) fun t => t.perf = { s.perf with freeze := f } ∧ FrameBut [.perf] s t) ∧
  (∀ s, s.perfMay .pcie 2 = true → Answers (exec .perfSnapshot s) fun t => t.perf = { s.perf with reqSnap := true } ∧ FrameBut [.perf] s t) ∧
  (∀ s, s.perfMay .pcie 2 = true → Answers (exec .perfClear s) fun t => t.perf = { s.perf with reqClr := true } ∧ FrameBut [.perf] s t) ∧
  (∀ s, s.perfMay .pcie 3 = true → Answers (exec .tagBufferClear s) fun t => t.perf = { s.perf with tags := [], oldest := 0 } ∧ FrameBut [.perf] s t) ∧
  (∀ s f, s.perfMay .pcie 2 = false → Answers (exec (.perfFreeze f) s) fun t => t.perf = { s.perf with denied := true } ∧ FrameBut [.perf] s t) ∧
  (∀ s c, s.perf.copying = some c → Answers (exec .perfSnapshotDone s) fun t =>
    t.perf.snap = c ∧ t.perf.done = true ∧ t.perf.copying = none ∧ t.perf.cnt = s.perf.cnt ∧ FrameBut [.perf] s t) ∧
  (∀ s e, e.src < 6 → s.perf.tagCtrl.getLsbD 31 = true → s.perf.tagCtrl.getLsbD (24 + e.src) = true → s.perf.tags.length < 256 →
    s.perf.tagOpen e = true → Answers (exec (.tagRecord e) s) fun t => t.perf.tags = s.perf.tags ++ [tagWords e s.recCfn] ∧ FrameBut [.perf] s t) ∧
  (∀ s, fld s.pert.hb.toNat 0 16 = 0 → Answers (exec (.pertCountdownEnd 7) s) fun t =>
    t.pert.hb.getLsbD 31 = false ∧ t.pert.stitch = s.pert.stitch ∧ FrameBut [.pert] s t) ∧
  (∀ s c, c < 16 → Answers (exec (.elasticBufferRecentring c) s) fun t => t.perf = s.perf.count (748 + c) 1 ∧ FrameBut [.perf] s t) ∧
  (∀ s, s.perfMay .pcie 2 = false → Answers (exec .perfSnapshot s) fun t => t.perf = { s.perf with denied := true } ∧ FrameBut [.perf] s t) ∧
  (∀ s, s.perfMay .pcie 2 = false → Answers (exec .perfClear s) fun t => t.perf = { s.perf with denied := true } ∧ FrameBut [.perf] s t) ∧
  (∀ s, s.perfMay .pcie 3 = false → Answers (exec .tagBufferClear s) fun t => t.perf = { s.perf with denied := true } ∧ FrameBut [.perf] s t)

/-! ### Frames, seconds and PPS_IN -/

/-- A core frame boundary advances the CFN by one modulo 2^48 (R46), whatever the outside gives the frame; without a running core only
the waits for working SRAM banks are counted (R369). -/
def Obligations.FrameAdvancesCfn : Prop :=
  (∀ s inp, s.coreRuns = true → Answers (exec (.frameBoundary inp) s) fun t =>
    t.glb.cfn = s.glb.cfn + 1 ∧ t.glb.tick = s.glb.tick + 1) ∧
  (∀ s inp, s.coreRuns = false → Answers (exec (.frameBoundary inp) s) fun t => t.bus = { s.bus with conflict := t.bus.conflict } ∧ FrameBut [.bus] s t)

/-- A second boundary counts the second, latches its number and schedule ID and clears what the second collected (R50, R224, R226). An
edge of PPS_IN within the window is accepted and corrects by at most 4,096 core cycles; an outlier sets OUTLIER and corrects nothing; PPS
loss sets PPS_LOS and clears ALIGNED (R51, R53, R54). -/
def Obligations.SecondsAndPps : Prop :=
  (∀ s meas, s.coreRuns = true → s.glb.secDue = true → Answers (exec (.secondBoundary meas) s) fun t =>
    t.glb.sec = satAdd s.glb.sec 1 ∧ t.glb.secDue = false ∧ t.glb.secStart = s.glb.tick ∧ t.eng.latchSec = s.glb.sec ∧
    t.eng.schedId = s.bank1.id ∧ t.eng.firstCfn = s.glb.cfn - BitVec.ofNat 48 (s.glb.tick - s.glb.secStart).toNat ∧
    t.sch = { s.sch with committed := s.sch.commitNext, commitNext := false } ∧ FrameBut [.glb, .sch, .eng, .twin, .dp, .tim, .mbx] s t) ∧
  (∀ s meas, s.glb.secDue = false → Answers (exec (.secondBoundary meas) s) fun t => FrameBut [] s t) ∧
  (∀ s (e : Int), s.coreRuns = true → s.glb.track = true → 0 ≤ e → e ≤ 16384 → Answers (exec (.ppsEdge e) s) fun t =>
    t.glb.ppsErr = e ∧ t.glb.ppsAligned = decide (e ≤ 8) ∧
    (16384 ≤ s.glb.bNext → t.glb.bNext = ((s.glb.bNext : Int) - s.glb.ppsNow + min 4096 e).toNat ∧ t.glb.ppsNow = min 4096 e) ∧
    (s.glb.bNext < 16384 → t.glb.bNext = s.glb.bNext ∧ t.glb.ppsCorr = min 4096 e) ∧
    t.glb.ppsSticky = s.glb.ppsSticky ∧ t.glb.ppsBad = 0 ∧ FrameBut [.glb] s t) ∧
  (∀ s (e : Int), s.coreRuns = true → s.glb.track = true → -16384 ≤ e → e < 0 → Answers (exec (.ppsEdge e) s) fun t =>
    t.glb.ppsErr = e ∧ t.glb.ppsAligned = decide (-8 ≤ e) ∧ t.glb.ppsCorr = max (-4096) e ∧ t.glb.bNext = s.glb.bNext ∧
    t.glb.ppsSticky = s.glb.ppsSticky ∧ t.glb.ppsBad = 0 ∧ FrameBut [.glb] s t) ∧
  (∀ s (e : Int), s.coreRuns = true → s.glb.track = true → s.glb.ppsWasAligned = true → s.glb.ppsAny = false → 16384 < e → e < 800000000 →
    Answers (exec (.ppsEdge e) s) fun t =>
      t.glb.ppsSticky = s.glb.ppsSticky ||| 1 ∧ t.glb.bNext = s.glb.bNext ∧ t.glb.ppsAligned = s.glb.ppsAligned ∧
      t.glb.ppsErr = s.glb.ppsErr ∧ t.glb.ppsBad = s.glb.ppsBad + 1 ∧ FrameBut [.glb] s t) ∧
  (∀ s, s.coreRuns = true → s.glb.track = true → s.glb.ppsAny = false → s.glb.losCount ≤ s.glb.ppsBad → Answers (exec .ppsLoss s) fun t =>
    t.glb.ppsSticky = s.glb.ppsSticky ||| 2 ∧ t.glb.ppsAligned = false ∧ FrameBut [.glb] s t)

/-! ### Lanes and groups -/

/-- The alignment states of a lane (R73, R74, R75, R76). Each clause concludes that the command answers a next state, under conditions on the
state and the operands alone: SIGNAL_DETECTED enters ADAPT, ADAPT_CONVERGED enters HUNT, ADAPT_TIMEOUT adapts anew or is the permanent
fault, LINE_FRAME steps the trackers in HUNT and the runs of mismatches in LOCKED, HUNT_ACCEPT has the lane locked, and HUNT_TIMEOUT is a
failure event. -/
def Obligations.LaneAlignment : Prop :=
  (∀ s n, s.rst.scanDirty = false → (s.lane n).role ≠ .off → s.glb.mode ≠ .hold → (s.lane n).state = .waitSignal → (s.lane n).pend = none →
    100 ≤ since s.tick (s.lane n).since + 1 → Answers (exec (.signalDetected n) s) fun t =>
      t.lane n = { s.lane n with state := .adapt, since := s.tick, signal := true } ∧ OnlyLane n s t ∧ FrameBut [.lanes] s t) ∧
  (∀ s n, s.rst.scanDirty = false → (s.lane n).state = .adapt → (s.lane n).pend = none → since s.tick (s.lane n).since < 20000 → Answers (exec (.adaptConverged n) s) fun t =>
    (t.lane n).state = .hunt ∧ (t.lane n).since = s.tick ∧ (∀ k, ((t.lane n).align k).trackers = [] ∧ ((t.lane n).align k).ambig = false) ∧ OnlyLane n s t ∧ FrameBut [.lanes] s t) ∧
  (∀ s n, s.rst.scanDirty = false → (s.lane n).state = .adapt → (s.lane n).pend = none → (s.lane n).everLocked = false → 20000 ≤ since s.tick (s.lane n).since →
    Answers (exec (.adaptTimeout n) s) fun t =>
      (t.lane n).state = .adapt ∧ (t.lane n).since = s.tick ∧ (t.lane n).sticky.getLsbD 0 = true ∧ OnlyLane n s t ∧ FrameBut [.lanes] s t) ∧
  (∀ s n, s.rst.scanDirty = false → (s.lane n).state = .adapt → (s.lane n).pend = none → (s.lane n).everLocked = true → 20000 ≤ since s.tick (s.lane n).since →
    Answers (exec (.adaptTimeout n) s) fun t =>
      (t.lane n).pend = some (if s.retireAuto n then .toRetired s.glb.cfn else .toAdaptHeld) ∧ (t.lane n).sticky.getLsbD 0 = true ∧
      OnlyLane n s t ∧ FrameBut [.lanes, .cps, .mbx] s t) ∧
  (∀ s n f, s.rst.scanDirty = false → (s.lane n).role = .line → s.glb.mode ≠ .hold → (s.lane n).state = .hunt → f.logical < (s.lane n).width →
    Answers (exec (.lineFrame n f) s) fun t =>
      ((t.lane n).align f.logical).trackers = stepTrackers ((s.lane n).align f.logical).trackers f.sightings ∧
      ((t.lane n).align f.logical).ambig = (((s.lane n).align f.logical).ambig || ((s.lane n).align f.logical).ambiguous f.sightings) ∧
      (∀ k, k ≠ f.logical → (t.lane n).align k = (s.lane n).align k) ∧ (t.lane n).state = .hunt ∧ OnlyLane n s t ∧ FrameBut [.lanes] s t) ∧
  (∀ s n f, s.rst.scanDirty = false → (s.lane n).role = .line → s.glb.mode ≠ .hold → (s.lane n).state = .locked → f.logical < (s.lane n).width →
    (f.sightings.find? (·.1 = ((s.lane n).align f.logical).offset)) = none → Answers (exec (.lineFrame n f) s) fun t =>
      ((t.lane n).align f.logical).mismatch = ((s.lane n).align f.logical).mismatch + 1 ∧
      ((t.lane n).align f.logical).outOfSeq = ((s.lane n).align f.logical).outOfSeq ∧
      (∀ k, k ≠ f.logical → (t.lane n).align k = (s.lane n).align k) ∧ OnlyLane n s t ∧ FrameBut [.lanes, .eng, .perf] s t) ∧
  (∀ s n f x, s.rst.scanDirty = false → (s.lane n).role = .line → s.glb.mode ≠ .hold → (s.lane n).state = .locked → f.logical < (s.lane n).width → s.laneGroup n = none →
    (f.sightings.find? (·.1 = ((s.lane n).align f.logical).offset)) = some x → Answers (exec (.lineFrame n f) s) fun t =>
      ((t.lane n).align f.logical).mismatch = 0 ∧ ((t.lane n).align f.logical).lastMfi = x.2 ∧
      ((t.lane n).align f.logical).outOfSeq =
        (if x.2 = (((s.lane n).align f.logical).lastMfi + 1) % 256 then 0 else ((s.lane n).align f.logical).outOfSeq + 1) ∧
      OnlyLane n s t ∧ FrameBut [.lanes, .eng, .perf] s t) ∧
  (∀ s n (x : Nat → Tracker), s.rst.scanDirty = false → (s.lane n).state = .hunt → (s.lane n).pend = none →
    (∀ k, k < (s.lane n).width → ((s.lane n).align k).trackers = [x k] ∧ 3 ≤ (x k).run) → Answers (exec (.huntAccept n) s) fun t =>
      t.lane n = { s.lane n with pend := some .toLocked, aligns := (t.lane n).aligns } ∧
      (∀ k, k < (s.lane n).width → (t.lane n).align k = { (s.lane n).align k with offset := (x k).offset, lastMfi := (x k).mfi }) ∧
      OnlyLane n s t ∧ FrameBut [.lanes] s t) ∧
  (∀ s n, s.rst.scanDirty = false → (s.lane n).state = .hunt → (s.lane n).everLocked = true → (s.lane n).pend = none → 1000 ≤ since s.tick (s.lane n).since →
    (s.lane n).tries < 3 → Answers (exec (.huntTimeout n) s) fun t =>
      (t.lane n).pend = some .toAdaptTry ∧ OnlyLane n s t ∧ FrameBut [.lanes, .cps, .mbx] s t)

/-- Failure events (R75, R76, R81, R82): the sticky bit of the cause, three tries in 60 s, then the permanent fault, which retires
the lane where RETIRE_AUTO is set. -/
def Obligations.LaneFailures : Prop :=
  (∀ s n, s.rst.scanDirty = false → (s.lane n).role ≠ .off → (s.lane n).retired = false → (s.lane n).retiring = false → Answers (exec (.signalLost n) s) fun t =>
    t.lane n = { (s.lane n).flag 5 with signal := false, pend := some .toWait } ∧ OnlyLane n s t ∧ FrameBut [.lanes] s t) ∧
  (∀ s n, s.rst.scanDirty = false → (s.lane n).state = .locked → (s.lane n).pend = none → (s.lane n).tries < 3 → (∃ k, k < (s.lane n).width ∧ 5 ≤ ((s.lane n).align k).mismatch) →
    Answers (exec (.dlofDeclare n) s) fun t =>
      (t.lane n).sticky.getLsbD 4 = true ∧ (t.lane n).lof = true ∧ (t.lane n).pend = some .toAdaptTry ∧ OnlyLane n s t ∧
      FrameBut [.lanes, .eng, .grps, .cps, .mbx] s t) ∧
  (∀ s n, s.rst.scanDirty = false → (s.lane n).state = .locked → (s.lane n).pend = none → (s.lane n).tries < 3 → (∃ k, k < (s.lane n).width ∧ 5 ≤ ((s.lane n).align k).outOfSeq) →
    Answers (exec (.dlofDeclare n) s) fun t =>
      (t.lane n).sticky.getLsbD 3 = true ∧ (t.lane n).lom = true ∧ (t.lane n).pend = some .toAdaptTry ∧ OnlyLane n s t ∧
      FrameBut [.lanes, .eng, .grps, .cps, .mbx] s t) ∧
  (∀ s n, s.rst.scanDirty = false → (s.lane n).state = .locked → (s.lane n).pend = none → (s.lane n).tries < 3 → Answers (exec (.cdrLockLoss n) s) fun t =>
    t.lane n = { s.lane n with pend := some .toAdaptTry } ∧ OnlyLane n s t ∧
    FrameBut [.lanes, .cps, .mbx] s t) ∧
  (∀ s n, s.rst.scanDirty = false → (s.lane n).state = .locked → (s.lane n).pend = none → 3 ≤ (s.lane n).tries → Answers (exec (.cdrLockLoss n) s) fun t =>
    t.lane n = { s.lane n with pend := some (if s.retireAuto n then .toRetired s.glb.cfn else .toAdaptHeld) } ∧ OnlyLane n s t ∧
    FrameBut [.lanes, .cps, .mbx] s t) ∧
  (∀ s n u w, s.rst.scanDirty = false → (s.lane n).state = .locked → (s.lane n).pend = none → (s.lane n).tries < 3 → (s.burst n).1 ≤ u → w ≤ (s.burst n).2 →
    Answers (exec (.burstDetected n u w) s) fun t =>
      (t.lane n).sticky.getLsbD 2 = true ∧ (t.lane n).pend = some .toAdaptTry ∧ OnlyLane n s t ∧ FrameBut [.lanes, .perf, .eng, .cps, .mbx] s t) ∧
  (∀ s n w, s.rst.scanDirty = false → (s.lane n).window = some w → 5859375 ≤ since s.tick w → (s.lane n).retiring = false →
    (s.lane n).pend ≠ some .toAdaptHeld → Answers (exec (.laneTryWindowEnd n) s) fun t =>
      t.lane n = { s.lane n with tries := 0, window := none } ∧ OnlyLane n s t ∧ FrameBut [.lanes] s t)

/-- Deskew and OSMC (R70, R77, R78, R80): skew up to 4 µs aligns the group, more declares dLOL; a valid PDU gives the QL, whose loss for
5 s reads QL 0xF. -/
def Obligations.GroupEvents : Prop :=
  (∀ s g r l, s.rst.scanDirty = false → s.grp g = some r → r.state = .deskew → (∀ x ∈ l, ∀ y ∈ l, x ≤ y + 4000) → Answers (exec (.deskewDone g l) s) fun t =>
    (∃ r', t.grp g = some r' ∧ r'.state = .aligned ∧ r'.since = s.tick ∧ r'.sticky = r.sticky) ∧ FrameBut [.lanes, .grps] s t) ∧
  (∀ s g r x y, s.rst.scanDirty = false → s.grp g = some r → r.state = .deskew → r.lanes = 2 → r.otl = false → y + 4000 < x →
    (∀ m ∈ s.members g r, r.expects (s.members g r) m = true ∧ r.memberLocked m = true) → Answers (exec (.deskewDone g [x, y]) s) fun t =>
      (∃ r', t.grp g = some r' ∧ r'.state = .down ∧ r'.sticky.getLsbD 4 = true ∧ r'.since = s.tick) ∧ FrameBut [.grps] s t) ∧
  (∀ s g r b p q, s.rst.scanDirty = false → s.grp g = some r → r.osmcUp = true → esmcLevel s.tim.qlOpt (b :: p) = some q → Answers (exec (.osmcPdu g b p) s) fun t =>
    t.grp g = some { r with ql := q, qlAt := s.tick } ∧ FrameBut [.grps] s t) ∧
  (∀ s g r b p, s.rst.scanDirty = false → s.grp g = some r → esmcLevel s.tim.qlOpt (b :: p) = none ∨ r.osmcUp = false → Answers (exec (.osmcPdu g b p) s) fun t =>
    t.grp g = some r ∧ FrameBut [.grps] s t) ∧
  (∀ s g r, s.rst.scanDirty = false → s.grp g = some r → 488282 ≤ since s.tick r.qlAt → Answers (exec (.osmcTimeout g) s) fun t =>
    t.grp g = some { r with ql := 0xF } ∧ FrameBut [.grps] s t) ∧
  (∀ s g r, s.grp g = some r → r.otl = false → s.traffic = true → r.osmcAt.all (fun a => decide (97656 ≤ since s.tick a)) = true →
    Answers (exec (.osmcInfoTx g) s) fun t =>
      t.grp g = some { r with osmcInfo := r.osmcInfo + 1, osmcAt := some s.tick } ∧ FrameBut [.grps] s t) ∧
  (∀ s g r a, s.rst.scanDirty = false → s.grp g = some r → r.osmcAt = some a → since s.tick a < 97656 → Answers (exec (.osmcInfoTx g) s) fun t => FrameBut [] s t)

/-- Tributary contexts (R97, R98, R106): an open context, dFCMOVF, and the end of a resize. -/
def Obligations.TributaryEvents : Prop :=
  (∀ s n, 8 ≤ (tget ({} : EgRun) s.dp.eg n).bad → (tget ({} : EgRun) s.dp.eg n).openNow = false → Answers (exec (.tribOpen n) s) fun t =>
    tget ({} : EgRun) t.dp.eg n = { tget ({} : EgRun) s.dp.eg n with openNow := true } ∧
    (∀ k, k ≠ n → tget ({} : EgRun) t.dp.eg k = tget ({} : EgRun) s.dp.eg k) ∧ FrameBut [.dp, .mbx] s t) ∧
  (∀ s n, (tget ({} : IngRun) s.dp.ing n).discard = true → Answers (exec (.dfcmovfDeclare n) s) fun t =>
    tget ({} : IngRun) t.dp.ing n = { tget ({} : IngRun) s.dp.ing n with fcmovf := true } ∧ FrameBut [.dp] s t) ∧
  (∀ s n, 8 ≤ (tget ({} : IngRun) s.dp.ing n).clean → Answers (exec (.dfcmovfClear n) s) fun t =>
    tget ({} : IngRun) t.dp.ing n = { tget ({} : IngRun) s.dp.ing n with fcmovf := false } ∧ FrameBut [.dp] s t) ∧
  (∀ s i e c z, s.dp.running i e = some z → c ≤ 2 → Answers (exec (.resizeComplete i e c) s) fun t =>
    t.dp.running i e = none ∧ t.dp.ing = s.dp.ing ∧ t.dp.eg = s.dp.eg ∧ FrameBut [.dp, .mbx] s t)

/-! ### Stitch lanes, commits and schedules -/

/-- Stitch lanes (R309, R310, R311, R319, R323): a lane frame in time with the local CFN gives its columns, a late one or one of another CFN does not; a
token with a bad CRC is discarded; a heartbeat of the partner is noted; a mirrored activation waits for the next boundary. -/
def Obligations.StitchFrames : Prop :=
  (∀ s n f, s.lockedStitch n = true → s.glb.mode ≠ .hold → markerAt f (s.lane n) = true → (s.lane n).stCfn = some (s.glb.cfn - 1) →
    f.cfn = s.glb.cfn → f.delayNs ≤ 9500 → f.invalid = [] → s.twin.aligning = false → Answers (exec (.stitchFrame n f) s) fun t =>
      (t.lane n).stWords = some (stitchWords f) ∧ ((t.lane n).align 0).mismatch = 0 ∧ (t.lane n).stCfn = some s.glb.cfn ∧
      (t.lane n).stSticky = (s.lane n).stSticky ∧ (t.lane n).stDelay = f.delayNs ∧ OnlyLane n s t ∧ FrameBut [.lanes, .twin] s t) ∧
  (∀ s n f, s.lockedStitch n = true → s.glb.mode ≠ .hold → markerAt f (s.lane n) = true → (s.lane n).stCfn = some (f.cfn - 1) →
    9500 < f.delayNs → Answers (exec (.stitchFrame n f) s) fun t =>
      (t.lane n).stWords = none ∧ (t.lane n).stSticky.getLsbD 3 = true ∧ OnlyLane n s t ∧ FrameBut [.lanes, .twin] s t) ∧
  (∀ s n f, s.lockedStitch n = true → s.glb.mode ≠ .hold → markerAt f (s.lane n) = true → (s.lane n).stCfn = some (f.cfn - 1) →
    f.cfn ≠ s.glb.cfn → s.twin.aligning = false → Answers (exec (.stitchFrame n f) s) fun t =>
      (t.lane n).stWords = none ∧ (t.lane n).stSticky.getLsbD 2 = true ∧ OnlyLane n s t ∧ FrameBut [.lanes, .twin] s t) ∧
  (∀ s n (k : BitVec 168), s.lockedStitch n = true → s.glb.mode ≠ .hold → Token.crcOk k = false → Answers (exec (.stitchToken n k) s) fun t =>
    t.lane n = (s.lane n).stFlag 0 ∧ OnlyLane n s t ∧ FrameBut [.lanes] s t) ∧
  (∀ s n (k : BitVec 168), s.lockedStitch n = true → s.glb.mode ≠ .hold → Token.crcOk k = true → Token.kind k = 1 →
    s.twin.twinLanes.getLsbD n = true → Answers (exec (.stitchToken n k) s) fun t =>
      t.twin.hbTok = true ∧ t.twin.role = s.twin.role ∧ FrameBut [.twin] s t) ∧
  (∀ s (w : W64), s.twin.role = .follower → fld w.toNat 60 4 = 2 → Answers (exec (.mirrorRecord w) s) fun t =>
    t.key.slot (fld w.toNat 46 14) = { s.key.slot (fld w.toNat 46 14) with actPend := some (cfnAdd s.tick 1) } ∧ FrameBut [.key] s t) ∧
  (∀ s (w : W64), s.twin.role ≠ .follower → Answers (exec (.mirrorRecord w) s) fun t => FrameBut [] s t)

/-- The steps of an armed commit before F (R146 to R150, R158): the notice at F-5, readiness at F-4, vetoes at F-3, the decision at F-2. -/
def Obligations.CommitDecisions : Prop :=
  (∀ s a, s.sch.armed = some a → a.target - s.glb.cfn = 5 → s.glb.released = true → Answers (exec .commitNotice s) fun t =>
    t.sch = { s.sch with armed := some { a with noticed := true } } ∧ FrameBut [.sch] s t) ∧
  (∀ s a, s.sch.armed = some a → a.domain = true → s.undecided = true → cfnAdd s.glb.cfn 4 = a.target → a.ready = none → s.glb.released = true →
    Answers (exec .domainReadiness s) fun t =>
      t.sch = { s.sch with armed := some { a with ready := some (s.ownCause a) } } ∧
      t.twin = { s.twin with vote := some (s.voteToken 2 (if s.ownCause a = 0 then 1 else 2) a) } ∧ FrameBut [.sch, .twin] s t) ∧
  (∀ s a, s.sch.armed = some a → a.domain = true → s.undecided = true → cfnAdd s.glb.cfn 3 = a.target → a.ready.isSome = true →
    s.glb.released = true → Answers (exec .domainVeto s) fun t =>
      t.sch = { s.sch with armed := some { a with vetoTx := a.vetoTx || (a.vetoRx || a.badTok || s.domainLanes.any fun n => !a.heard.contains n) } } ∧
      t.twin.vote.isSome = true ∧ t.twin.role = s.twin.role ∧ FrameBut [.sch, .twin] s t) ∧
  (∀ s a, s.sch.armed = some a → s.undecided = true → cfnAdd s.glb.cfn 2 = a.target → s.glb.released = true → s.decisionCause a = 0 →
    s.pert.skewFrames = 0 → Answers (exec .commitDecision s) fun t =>
      t.sch = { s.sch with armState := if a.rollback then .rollbackGo else .commitGo, armed := some { a with effect := a.target } } ∧
      t.twin = { s.twin with domCommit := if a.domain then some a.target else s.twin.domCommit } ∧ FrameBut [.sch, .twin] s t) ∧
  (∀ s a, s.sch.armed = some a → s.undecided = true → cfnAdd s.glb.cfn 2 = a.target → s.glb.released = true → s.decisionCause a ≠ 0 →
    Answers (exec .commitDecision s) fun t =>
      t.sch.armState = .idle ∧ t.sch.armed = none ∧ t.sch.deferCause = s.decisionCause a ∧ t.sch.last = s.glb.cfn ∧
      t.sch.sticky.getLsbD 6 = true ∧ t.sch.present = s.sch.present ∧ t.sch.past = s.sch.past ∧ t.sch.future = s.sch.future ∧
      t.twin = { s.twin with domCommit := if a.domain then some a.target else s.twin.domCommit } ∧ FrameBut [.sch, .twin, .perf, .mbx] s t) ∧
  (∀ s f x, s.twin.domCommit = some f → s.glb.cfn = cfnAdd f 1 → s.twin.idSeen = [x] → x ≠ s.presentBank.id → Answers (exec .domainIdCheck s) fun t =>
    t.sch = s.sch.flag 0 ∧ t.twin = { s.twin with domCommit := none } ∧ FrameBut [.sch, .twin, .mbx] s t)

/-- Boundary F (R136, R150, R156): a commit rotates the three banks and sets DATA_ENABLE and COMMITTED, a rollback exchanges Present and
Past and sets ROLLED_BACK, a RESUME changes no bank. -/
def Obligations.TakingEffect : Prop :=
  (∀ s a, s.sch.armed = some a → s.sch.armState = .commitGo → s.glb.cfn = a.effect → s.traffic = true → a.resume = false →
    Answers (exec .commitTakeEffect s) fun t =>
      t.sch.present = s.sch.future ∧ t.sch.past = s.sch.present ∧ t.sch.future = s.sch.past ∧ t.sch.pastValid = true ∧
      t.sch.futState = .opened ∧ t.sch.armState = .idle ∧ t.sch.armed = none ∧ t.sch.dataEnable = true ∧ t.sch.last = s.glb.cfn ∧
      t.sch.sticky.getLsbD 7 = true ∧ t.sch.bank0 = s.sch.bank0 ∧ t.sch.bank1 = s.sch.bank1 ∧ t.sch.bank2 = s.sch.bank2) ∧
  (∀ s a, s.sch.armed = some a → s.sch.armState = .commitGo → s.glb.cfn = a.effect → s.traffic = true → a.resume = true →
    Answers (exec .commitTakeEffect s) fun t =>
      t.sch.present = s.sch.present ∧ t.sch.past = s.sch.past ∧ t.sch.future = s.sch.future ∧ t.sch.dataEnable = true ∧
      t.sch.armState = .idle ∧ t.sch.sticky.getLsbD 7 = true) ∧
  (∀ s a, s.sch.armed = some a → s.sch.armState = .rollbackGo → s.glb.cfn = a.effect → s.traffic = true →
    Answers (exec .rollbackTakeEffect s) fun t =>
      t.sch.present = s.sch.past ∧ t.sch.past = s.sch.present ∧ t.sch.future = s.sch.future ∧ t.sch.armState = .idle ∧
      t.sch.armed = none ∧ t.sch.last = s.glb.cfn ∧ t.sch.sticky.getLsbD 5 = true ∧ t.sch.bank0 = s.sch.bank0 ∧ t.sch.bank1 = s.sch.bank1 ∧
      t.sch.bank2 = s.sch.bank2)

/-- The ends of a load, a copy and a pass (R139, R141 to R144, R178 to R180, R330, R346): the Future bank becomes what was loaded or
copied, or VALID; a load that another processor took over reads its image anew; a rejected load or a failed pass leaves it OPEN with its
sticky bit. That a load whose descriptor window changed ends as a rejected one is the model's choice (log entry 21). -/
def Obligations.FutureBankEnds : Prop :=
  (∀ s l, s.sch.load = some l → l.undef = false → l.readErr = false → l.again = false → BankRoles s → Answers (exec .schLoadDone s) fun t =>
    t.presentBank = s.presentBank ∧ t.pastBank = s.pastBank ∧ t.sch.futState = .opened ∧ t.sch.load = none ∧
    (∀ b, loadImage s false l.image = .inr b → t.futureBank = b ∧ t.sch.digest = imgDigest l.image ∧ FrameBut [.sch, .perf, .mbx] s t) ∧
    (∀ e, loadImage s false l.image = .inl e → t.futureBank.id = 0 ∧ t.sch.sticky.getLsbD 1 = true ∧ FrameBut [.sch, .perf, .mbx, .drawn] s t)) ∧
  (∀ s l, s.sch.load = some l → l.undef = false → l.again = true → (deliver s.sch.descs l.host l.first l.count).fail = false → BankRoles s →
    Answers (exec .schLoadDone s) fun t =>
      t.presentBank = s.presentBank ∧ t.pastBank = s.pastBank ∧ t.sch.futState = .opened ∧ t.sch.load = none ∧
      (∀ x, s.loadOutcome l = .inr x → t.futureBank = x.1 ∧ t.sch.digest = imgDigest x.2) ∧
      (∀ e, s.loadOutcome l = .inl e → t.futureBank.id = 0 ∧ t.sch.sticky.getLsbD 1 = true)) ∧
  (∀ s l, s.sch.load = some l → l.undef = true ∨ (l.again = false ∧ l.readErr = true) → BankRoles s → Answers (exec .schLoadDone s) fun t =>
    t.presentBank = s.presentBank ∧ t.pastBank = s.pastBank ∧ t.futureBank.id = 0 ∧ t.sch.futState = .opened ∧ t.sch.load = none ∧
    t.sch.sticky.getLsbD 1 = true ∧ FrameBut [.sch, .perf, .mbx, .drawn, .glb] s t) ∧
  (∀ s l, s.sch.load = some l → s.sch.future < 3 → Answers (exec .dmaSReadError s) fun t =>
    t.futureBank.id = 0 ∧ t.sch.load = none ∧ t.sch.sticky.getLsbD 1 = true ∧ t.glb.dmaSticky = s.glb.dmaSticky ||| 1 ∧
    FrameBut [.glb, .sch, .perf, .mbx, .drawn] s t) ∧
  (∀ s b, s.sch.futState = .copying → s.sch.copySnap = some b → 8 ≤ since s.tick s.sch.passStart → s.sch.future < 3 →
    Answers (exec .schCopyDone s) fun t =>
      t.futureBank = b.emptied.1 ∧ t.sch.futState = .opened ∧ t.sch.copySnap = none ∧ FrameBut [.sch, .mem, .mbx] s t) ∧
  (∀ s, s.sch.futState = .checking → 8 ≤ since s.tick s.sch.passStart → (runChecker s s.futureBank.corrected s.checkBypass).count = 0 →
    s.futureBank.tblBad = [] → validations s s.futureBank.corrected = [] → Answers (exec .schCheckDone s) fun t =>
      t.sch.futState = .valid ∧ t.sch.chkFailCnt = 0 ∧ t.sch.sticky.getLsbD 4 = true ∧ FrameBut [.sch, .mem, .mbx] s t) ∧
  (∀ s, s.sch.futState = .checking → 8 ≤ since s.tick s.sch.passStart → 0 < (runChecker s s.futureBank.corrected s.checkBypass).count →
    Answers (exec .schCheckDone s) fun t =>
      t.sch.futState = .opened ∧ t.sch.sticky.getLsbD 3 = true ∧ t.sch.sticky.getLsbD 4 = true ∧ FrameBut [.sch, .mem, .mbx] s t)

/-! ### Memories and ponds -/

/-- Scrub and march steps (R373, R375, R376, R379): a good word changes nothing, a correctable error counts, an uncorrectable one in the
Present connection map makes its entry dead; the background march tests its row; a requested preserving march leaves the words, and a
destructive march of a pond leaves it wiped. -/
def Obligations.MemoryTests : Prop :=
  (∀ s m w, m < 0x12 → w < scrubWords m → s.glb.mode ≠ .hold → s.rst.phase = .started → s.rst.scanDirty = false →
    Answers (exec (.scrubStep m w 0) s) fun t => FrameBut [] s t) ∧
  (∀ s m w b, m < 0x12 → b < 72 → w < scrubWords m → s.glb.mode ≠ .hold → s.rst.phase = .started → s.rst.scanDirty = false → (s.memRun m).ces = [] →
    Answers (exec (.scrubStep m w (BitVec.ofNat 72 (2 ^ b))) s) fun t =>
      (t.memRun m).ce = satAdd (s.memRun m).ce 1 ∧ (∀ k, k ≠ m → t.memRun k = s.memRun k) ∧ FrameBut [.mem] s t) ∧
  (∀ s w, w < 2097152 → s.sch.present < 3 → s.glb.mode ≠ .hold → s.rst.phase = .started → s.rst.scanDirty = false →
    tget 0 s.presentBank.mapBad w = 0 → Answers (exec (.scrubStep (0x12 + s.sch.present) w 3) s) fun t =>
      w ∈ t.presentBank.dead ∧ (t.memRun (0x12 + s.sch.present)).ue = satAdd (s.memRun (0x12 + s.sch.present)).ue 1 ∧
      t.glb.intSticky.getLsbD 22 = true ∧ FrameBut [.glb, .sch, .mem, .twin] s t) ∧
  (∀ s row half, s.coreRuns = true → s.glb.mode ≠ .hold → marchRow s.glb.cfn = some (row, half) → Answers (exec (.marchStep []) s) fun t =>
    t.perf = s.perf.count 603 s.marched.length ∧ (∀ p, (t.pond p).h0 = (s.pond p).h0 ∧ (t.pond p).h1 = (s.pond p).h1) ∧
    t.mem = s.mem.endRow row half ∧ FrameBut [.pnd, .perf, .mem] s t) ∧
  (∀ s r l, s.mem.marches = r :: l → r.destr = false → Answers (exec (.diagMarchDone []) s) fun t =>
    t.mem = { s.mem with marches := l } ∧ (∀ p, (t.pond p).h0 = (s.pond p).h0 ∧ (t.pond p).h1 = (s.pond p).h1) ∧
    (∀ k, t.sch.bank k = { s.sch.bank k with mapBad := (t.sch.bank k).mapBad }) ∧ FrameBut [.mem, .mbx, .sch, .pnd, .dp] s t) ∧
  (∀ s r l n, s.mem.marches = r :: l → r.destr = true → r.memory = 0x40 + n → Answers (exec (.diagMarchDone []) s) fun t =>
    t.mem = { s.mem with marches := l } ∧ t.pond n = (s.pond n).wipe ∧ OnlyPond n s t ∧
    FrameBut [.mem, .mbx, .pnd] s t)

/-- Ponds (R127 to R130, R382, R452): a permanent fault of a pond in service starts the change-over to the lowest idle spare with the next
frame; a repair march without mismatches returns the pond, one with mismatches keeps them for the repair at the boundary, and a second
march that still finds one retires the pond; an armed flip changes exactly its bit. -/
def Obligations.PondEvents : Prop :=
  (∀ s p n sp, (s.pond p).fault = true → s.pnd.logicalOf p = some n → s.idleSpare = some sp → s.pnd.moves.find? (·.dst = p) = none →
    s.pnd.moves.any (·.src = p) = false → Answers (exec (.pondPermanentFault p) s) fun t =>
      t.pnd.moves = s.pnd.moves ++ [PondMove.of n p sp (cfnAdd s.tick 1) 0] ∧ t.pond p = { (s.pond p).noteFault s.tick with fault := false } ∧ OnlyPond p s t ∧
      FrameBut [.pnd, .cps, .mbx] s t) ∧
  (∀ s p a, p < 128 → (s.pond p).marchAt = some a → (s.pond p).role = 1 → (s.pond p).forced = false → (s.pond p).retired = false →
    (s.pond p).repair = [] → s.pnd.moves.find? (fun m => m.logical = p && !m.abandon) = none →
    cfnGe s.tick a = true → 39 ≤ since s.tick a → Answers (exec (.pondRepairMarchDone p [] []) s) fun t =>
      t.pnd.moves = s.pnd.moves ++ [PondMove.of p (s.pnd.phys p) p (cfnAdd s.tick 1) 1] ∧ (t.pond p).h0 = [] ∧ (t.pond p).h1 = [] ∧
      (t.pond p).marchAt = none ∧ OnlyPond p s t ∧ FrameBut [.pnd] s t) ∧
  (∀ s p a, 128 ≤ p → p < 132 → (s.pond p).marchAt = some a → (s.pond p).role = 1 → (s.pond p).forced = false → (s.pond p).retired = false →
    (s.pond p).repair = [] → cfnGe s.tick a = true → 39 ≤ since s.tick a → Answers (exec (.pondRepairMarchDone p [] []) s) fun t =>
      (t.pond p).role = 2 ∧ (t.pond p).h0 = [] ∧ (t.pond p).marchAt = none ∧ OnlyPond p s t ∧ FrameBut [.pnd] s t) ∧
  (∀ s p a (x : Mismatch), p < 132 → (s.pond p).marchAt = some a → (s.pond p).role = 1 → (s.pond p).forced = false → (s.pond p).retired = false →
    (s.pond p).repair = [] → cfnGe s.tick a = true → 39 ≤ since s.tick a → x.memory = 0x40 + p → (s.pond p).again = false →
    Answers (exec (.pondRepairMarchDone p [x] []) s) fun t =>
      (t.pond p).repair = [x] ∧ (t.pond p).role = 1 ∧ (t.pond p).retired = false ∧ (t.pond p).sticky.getLsbD 3 = true ∧ OnlyPond p s t ∧
      FrameBut [.pnd, .mem, .glb] s t) ∧
  (∀ s p a (x : Mismatch), p < 132 → (s.pond p).marchAt = some a → (s.pond p).role = 1 → (s.pond p).forced = false → (s.pond p).retired = false →
    (s.pond p).repair = [] → cfnGe s.tick a = true → 39 ≤ since s.tick a → x.memory = 0x40 + p → (s.pond p).again = true →
    Answers (exec (.pondRepairMarchDone p [] [x]) s) fun t =>
      (t.pond p).retired = true ∧ (t.pond p).role = 1 ∧ (t.memRun (0x40 + p)).unrep = true ∧ OnlyPond p s t ∧
      FrameBut [.pnd, .mem, .glb, .cps, .mbx] s t) ∧
  (∀ s, s.pert.pond.getLsbD 31 = true → s.pert.pond.getLsbD 30 = false → s.glb.released = true → s.glb.cfn = s.pert.pondCfn →
    fld s.pert.pond.toNat 21 8 < 132 → fld s.pert.pond.toNat 0 7 < 72 → Answers (exec .pondFlip s) fun t =>
      t.pert.pond.getLsbD 31 = false ∧ OnlyPond (fld s.pert.pond.toNat 21 8) s t ∧ FrameBut [.pnd, .perf, .pert] s t ∧
      ∀ k, tget 0 (t.pond (fld s.pert.pond.toNat 21 8)).bad k = tget 0 (s.pond (fld s.pert.pond.toNat 21 8)).bad k ^^^
        (if k = (s.glb.cfn.toNat + 1) % 2 * 16384 + fld s.pert.pond.toNat 7 14 then BitVec.ofNat 72 (2 ^ fld s.pert.pond.toNat 0 7) else 0))

/-- The maintenance port (R41, R109, R132, R133): START is denied below D2, which raises SWITCH; a read takes the word into MAINT_DATA, of
a scrub column any word; a write stores MAINT_DATA into the column of the half, and is lost in the cycle in which the write port writes
that column. -/
def Obligations.MaintenancePort : Prop :=
  (∀ s p (v : W32) c, p < 132 → v.getLsbD 28 = true → fld v.toNat 29 2 = 1 → s.rst.dbgLevel.toNat < 2 → Answers (exec (.pondMaintRead p v c) s) fun t =>
    (t.pond p).deny = true ∧ ((s.pond p).deny = false → t.glb.intSticky.getLsbD 22 = true) ∧ (t.pond p).data = (s.pond p).data ∧ OnlyPond p s t ∧
    FrameBut [.pnd, .glb] s t) ∧
  (∀ s p (v : W32) c, p < 132 → v.getLsbD 28 = true → fld v.toNat 29 2 = 1 → 2 ≤ s.rst.dbgLevel.toNat → s.portWrites p = false →
    (s.pond p).err (b2n (v.getLsbD 14)) (fld v.toNat 0 14) = 0 → fld v.toNat 0 14 < 16256 ∨ 16320 ≤ fld v.toNat 0 14 →
    Answers (exec (.pondMaintRead p v c) s) fun t =>
      (t.pond p).data = (s.pond p).raw (b2n (v.getLsbD 14)) (fld v.toNat 0 14) ∧ (t.pond p).h0 = (s.pond p).h0 ∧ (t.pond p).h1 = (s.pond p).h1 ∧
      OnlyPond p s t ∧ FrameBut [.pnd] s t) ∧
  (∀ s p (v : W32) c, p < 132 → v.getLsbD 28 = true → fld v.toNat 29 2 = 1 → 2 ≤ s.rst.dbgLevel.toNat → s.portWrites p = false →
    (s.pond p).err (b2n (v.getLsbD 14)) (fld v.toNat 0 14) = 0 → 16256 ≤ fld v.toNat 0 14 → fld v.toNat 0 14 < 16320 →
    Answers (exec (.pondMaintRead p v c) s) fun t =>
      (t.pond p).h0 = (s.pond p).h0 ∧ (t.pond p).h1 = (s.pond p).h1 ∧ OnlyPond p s t ∧ FrameBut [.pnd, .drawn] s t) ∧
  (∀ s p (v : W32) c, p < 132 → v.getLsbD 28 = true → fld v.toNat 29 2 = 2 → 2 ≤ s.rst.dbgLevel.toNat → s.portWrites p = false →
    Answers (exec (.pondMaintWrite p v c) s) fun t =>
      (t.pond p).raw (b2n (v.getLsbD 14)) (fld v.toNat 0 14) = (s.pond p).data ∧
      (∀ h k, h < 2 → h ≠ b2n (v.getLsbD 14) ∨ k ≠ fld v.toNat 0 14 → (t.pond p).raw h k = (s.pond p).raw h k) ∧
      OnlyPond p s t ∧ FrameBut [.pnd] s t) ∧
  (∀ s p (v : W32), p < 132 → v.getLsbD 28 = true → fld v.toNat 29 2 = 2 → 2 ≤ s.rst.dbgLevel.toNat → s.portWrites p = true →
    b2n (v.getLsbD 14) = s.fillHalf → Answers (exec (.pondMaintWrite p v (fld v.toNat 0 14)) s) fun t =>
      (t.pond p).lost = true ∧ (t.pond p).collCnt = satAdd (s.pond p).collCnt 1 ∧ (t.pond p).sticky.getLsbD 0 = true ∧
      (t.pond p).h0 = (s.pond p).h0 ∧ (t.pond p).h1 = (s.pond p).h1 ∧ OnlyPond p s t ∧ FrameBut [.pnd, .perf, .glb] s t)

/-! ### Engines, protection and ciphers -/

/-- Engines (R212, R216): a fault event is counted and waits for the boundary; an engine that is covered restarts into its self-test, which
puts it in service or retires it; 60 s without a third event clear the count. The harvest ring (R228, R229, R360): a record starts in the
second frame of a second, ends with its DONE word and PF1's message, and is truncated at the next second boundary. -/
def Obligations.EnginesAndHarvest : Prop :=
  (∀ s e c, e < 1024 → 1 ≤ c → c ≤ 5 → s.glb.released = true → (s.eng.run e).state = .inService → (s.eng.run e).faulted = false →
    Answers (exec (.engineFaultEvent e c) s) fun t =>
      (t.eng.run e).faulted = true ∧ (t.eng.run e).events = (s.eng.run e).events + 1 ∧ (t.eng.run e).cause = c ∧ (t.eng.run e).state = .inService ∧
      (∀ k, k ≠ e → t.eng.run k = s.eng.run k) ∧ (c ≠ 4 → t.mem = s.mem) ∧
      (c = 4 → (t.memRun (6 + e / 256)).ue = satAdd (s.memRun (6 + e / 256)).ue 1) ∧ FrameBut [.eng, .perf, .mem] s t) ∧
  (∀ s e, (s.eng.run e).state = .covered ∨ (s.eng.run e).state = .uncovered → 1 ≤ since s.tick (s.eng.run e).since →
    Answers (exec (.engineRestart e) s) fun t =>
      t.eng.run e = { s.eng.run e with state := .selfTest, since := s.tick, testBad := false } ∧
      (∀ k, k ≠ e → t.eng.run k = s.eng.run k) ∧ FrameBut [.eng] s t) ∧
  (∀ s e, (s.eng.run e).state = .selfTest → 64 ≤ since s.tick (s.eng.run e).since → (s.eng.run e).testBad = false →
    Answers (exec (.engineSelfTestDone e true) s) fun t =>
      (t.eng.run e).state = .inService ∧ (∀ k, (t.eng.run k).covering ≠ some e) ∧ FrameBut [.eng, .cps, .mbx] s t) ∧
  (∀ s e p, (s.eng.run e).state = .selfTest → 64 ≤ since s.tick (s.eng.run e).since → p = false ∨ (s.eng.run e).testBad = true →
    Answers (exec (.engineSelfTestDone e p) s) fun t =>
      (t.eng.run e).state = .retired ∧ (∀ k, k ≠ e → t.eng.run k = s.eng.run k) ∧ FrameBut [.eng, .cps, .mbx] s t) ∧
  (∀ s e w, (s.eng.run e).window = some w → 5859375 ≤ since s.tick w → (s.eng.run e).events < 3 → Answers (exec (.engineWindowEnd e) s) fun t =>
    t.eng.run e = { s.eng.run e with events := 0, window := none } ∧ (∀ k, k ≠ e → t.eng.run k = s.eng.run k) ∧ FrameBut [.eng] s t) ∧
  (∀ s, s.eng.harvest.enable = true → s.eng.harvest.running = false → s.glb.bme = true → s.eng.harvest.startAt = some s.tick →
    Answers (exec .harvestStart s) fun t =>
      t.eng.harvest.running = true ∧ t.glb.dmaPBusy = true ∧ t.eng.harvest.seq = s.eng.harvest.seq ∧ t.eng.harvest.recSeq = s.eng.harvest.seq ∧
      (∃ r, t.eng.records.getLast? = some r ∧ r.done = none ∧
        r.addr = s.eng.harvest.base.toNat + s.eng.harvest.seq.toNat % s.eng.harvest.entries * s.eng.harvest.stride) ∧ FrameBut [.eng, .glb] s t) ∧
  (∀ s r, s.eng.harvest.running = true → s.eng.records.getLast? = some r → Answers (exec .harvestDone s) fun t =>
    t.eng.harvest.running = false ∧ t.eng.harvest.seq = (if s.eng.harvest.renewed then s.eng.harvest.seq else s.eng.harvest.recSeq + 1) ∧ t.glb.dmaPBusy = false ∧ t.glb.pf1Sent = s.glb.pf1Sent + b2n (!s.glb.pf1Mask) ∧ t.glb.pf1Held = (s.glb.pf1Held || s.glb.pf1Mask) ∧
    t.eng.records.getLast? = some { r with done := some s.eng.harvest.recSeq } ∧ FrameBut [.eng, .glb] s t) ∧
  (∀ s r, s.eng.harvest.running = true → s.eng.records.getLast? = some r → s.glb.secDue = true → Answers (exec .harvestTruncate s) fun t =>
    t.eng.harvest.running = false ∧ t.eng.harvest.seq = (if s.eng.harvest.renewed then s.eng.harvest.seq else s.eng.harvest.recSeq + 1) ∧ t.glb.dmaPBusy = false ∧ t.glb.pf1Sent = s.glb.pf1Sent + b2n (!s.glb.pf1Mask) ∧ t.glb.pf1Held = (s.glb.pf1Held || s.glb.pf1Mask) ∧
    t.eng.records.getLast? = some { r with done := some (s.eng.harvest.recSeq ||| 0x80000000) } ∧ FrameBut [.eng, .glb, .perf] s t)

/-- Protection timers and APS (R236, R240, R243, R244): the end of hold-off raises the condition that still holds, the end of WTR lets NR
in, an APS value that came three times waits for the end of its frame and is then accepted, and no response within 50 ms is dFOP-NR at the
end of its frame. -/
def Obligations.ProtectionEvents : Prop :=
  (∀ s n p r d, s.pg n = some p → tfind s.prot n = some r → r.tWSf = some d → p.hold ≤ since s.tick d → Answers (exec (.holdOffExpire n false false) s) fun t =>
    tfind t.prot n = some { r with wSf := (s.leg p p.wT p.wEp).sf, tWSf := none } ∧ (∀ k, k ≠ n → tfind t.prot k = tfind s.prot k) ∧
    FrameBut [.prot] s t) ∧
  (∀ s n p r d, s.pg n = some p → tfind s.prot n = some r → r.tPSd = some d → p.hold ≤ since s.tick d → Answers (exec (.holdOffExpire n true true) s) fun t =>
    tfind t.prot n = some { r with pSd := (s.leg p p.pT p.pEp).sd, tPSd := none } ∧ (∀ k, k ≠ n → tfind t.prot k = tfind s.prot k) ∧
    FrameBut [.prot] s t) ∧
  (∀ s n p r d, s.pg n = some p → tfind s.prot n = some r → r.wtr = some d → secFrames p.wtr ≤ since s.tick d → Answers (exec (.wtrExpire n) s) fun t =>
    tfind t.prot n = some { r with wtr := none } ∧ (∀ k, k ≠ n → tfind t.prot k = tfind s.prot k) ∧ FrameBut [.prot] s t) ∧
  (∀ s n p r v, s.pg n = some p → p.aps = true → tfind s.prot n = some r → Answers (exec (.apsAccept n v) s) fun t =>
    tfind t.prot n = some { r with rxNext := some v } ∧ (∀ k, k ≠ n → tfind t.prot k = tfind s.prot k) ∧ FrameBut [.prot] s t) ∧
  (∀ (r : PgRun) v tx, r.rxNext = some v →
    (r.takeAps tx).rxAps = v ∧ (r.takeAps tx).rxNext = none ∧ (r.takeAps tx).state = r.state ∧ (r.takeAps tx).txAps = r.txAps ∧
    (Config.apsAnswers v tx = true → (r.takeAps tx).apsSince = none)) ∧
  (∀ s n p r d, s.pg n = some p → p.aps = true → tfind s.prot n = some r → r.apsSince = some d → 4883 ≤ since s.tick d →
    Answers (exec (.fopNrTimeout n) s) fun t =>
      tfind t.prot n = some { r with nrDue := true } ∧ (∀ k, k ≠ n → tfind t.prot k = tfind s.prot k) ∧ FrameBut [.prot] s t) ∧
  (∀ (r : PgRun) d, r.nrDue = true → r.apsSince = some d → (r.takeNr).fop.getLsbD 2 = true ∧ (r.takeNr).apsSince = none ∧ (r.takeNr).state = r.state)

/-- Encryption and decryption by blocks (R255 to R262, R268): an encrypted block has the key, salt and INV of the CURRENT half, advances INV
by one and the usage by 7,617, and carries the header that announces the next; the first block after fail-closed is a lead-in that
announces the current key; a good header of a key that is not empty starts decryption, and one that does not advance INV is a replay; the
tag of the oldest block that has none yet passes where it is the computed one, else is counted and makes the tributary untrusted. A
ciphered byte deciphers to itself, and both sides hash the same bytes and come to the same tag. -/
def Obligations.CipherBlocks : Prop :=
  (∀ s n b r i, s.bank2.bindOf 1 n = some b → s.traffic = true → (s.encCtx n).active = true → tfind s.key.binds (16384 + n) = some r →
    s.bank2.encPartner n b.slot = none → r.leadIn = false → r.failed = 0 → r.switch = 0 → (s.key.slot b.slot).actReady = false →
    (s.key.slot b.slot).find .current = some i → ((s.key.slot b.slot).half i).room = true → Answers (exec (.encryptBlockStart n) s) fun t =>
      (t.key.run (16384 + n)).inv = (s.key.slot b.slot).inv + 1 ∧ (t.key.run (16384 + n)).ki = i ∧ (t.key.run (16384 + n)).failed = 0 ∧
      (t.key.run (16384 + n)).pipe = { r.pipe with queue := r.pipe.queue ++ [{
        kind := .cipher, ki := i, key := ((s.key.slot b.slot).half i).key, salt := ((s.key.slot b.slot).half i).salt,
        inv := (s.key.slot b.slot).inv, hdr := headerBytes i (s.key.slot b.slot).inv, next := headerBytes i ((s.key.slot b.slot).inv + 1) }] } ∧
      ((t.key.slot b.slot).half i).usage = ((s.key.slot b.slot).half i).usage + 7617 ∧ (t.key.slot b.slot).inv = (s.key.slot b.slot).inv + 1 ∧
      (∀ k, k ≠ b.slot → t.key.slot k = s.key.slot k) ∧ (∀ k, k ≠ 16384 + n → t.key.run k = s.key.run k) ∧ FrameBut [.key, .mbx] s t) ∧
  (∀ s n b r i, s.bank2.bindOf 1 n = some b → s.traffic = true → (s.encCtx n).active = true → tfind s.key.binds (16384 + n) = some r →
    s.bank2.encPartner n b.slot = none → r.leadIn = true → r.failed ≠ 3 → r.switch = 0 → (s.key.slot b.slot).find .current = some i →
    (s.key.slot b.slot).actReady = false → Answers (exec (.encryptBlockStart n) s) fun t =>
      (t.key.run (16384 + n)).leadIn = false ∧ (t.key.run (16384 + n)).failed = 0 ∧ (t.key.run (16384 + n)).ki = i ∧
      (t.key.run (16384 + n)).inv = (s.key.slot b.slot).inv ∧ (t.key.run (16384 + n)).pipe = { r.pipe with
        queue := r.pipe.queue ++ [{ kind := .leadIn, next := headerBytes i (s.key.slot b.slot).inv }] } ∧ t.key.slots = s.key.slots ∧
      (∀ k, k ≠ 16384 + n → t.key.run k = s.key.run k) ∧ FrameBut [.key] s t) ∧
  (∀ s n b r h, s.presentBank.bindOf 0 n = some b → s.traffic = true → tfind s.key.binds n = some r → s.ingFail n = false → r.state = .acquire →
    crc8 (beBytes 6 h.inv.toNat ++ [h.ctl]) = h.hcrc.toNat → ((s.key.slot b.slot).half (h.ctl.getLsbD 7)).state = .current →
    ((s.key.slot b.slot).half (h.ctl.getLsbD 7)).room = true → Answers (exec (.headerReceived n h) s) fun t =>
      (t.key.run n).state = .run ∧ (t.key.run n).inv = h.inv ∧ (t.key.run n).ki = h.ctl.getLsbD 7 ∧ (t.key.run n).failed = 0 ∧
      (t.key.run n).pipe = { r.pipe with queue := r.pipe.queue ++ [{
        kind := .cipher, ki := h.ctl.getLsbD 7, key := ((s.key.slot b.slot).half (h.ctl.getLsbD 7)).key,
        salt := ((s.key.slot b.slot).half (h.ctl.getLsbD 7)).salt, inv := h.inv, hdr := headerBytes (h.ctl.getLsbD 7) h.inv }] } ∧
      (∀ k, k ≠ n → t.key.run k = s.key.run k) ∧ FrameBut [.key, .mbx] s t) ∧
  (∀ s n b r h, s.presentBank.bindOf 0 n = some b → s.traffic = true → tfind s.key.binds n = some r → s.ingFail n = false → r.state = .run →
    crc8 (beBytes 6 h.inv.toNat ++ [h.ctl]) = h.hcrc.toNat → h.ctl.getLsbD 7 = r.ki → ((s.key.slot b.slot).half r.ki).state = .current →
    ((s.key.slot b.slot).half r.ki).room = true → h.inv.toNat ≤ r.inv.toNat → Answers (exec (.headerReceived n h) s) fun t =>
      (t.key.run n).replay = satAdd r.replay 1 ∧ (t.key.run n).inv = r.inv + 1 ∧ (t.key.run n).state = .run ∧ FrameBut [.key, .mbx] s t) ∧
  (∀ s n b r d l, s.presentBank.bindOf 0 n = some b → s.traffic = true → tfind s.key.binds n = some r → r.pipe.due = d :: l → s.ingFail n = false →
    Answers (exec (.tagCheck n d.2 false) s) fun t =>
      t.key.run n = { r with pipe := { r.pipe with due := l } } ∧ (∀ k, k ≠ n → t.key.run k = s.key.run k) ∧ FrameBut [.key] s t) ∧
  (∀ s n b r d l tag miss, s.presentBank.bindOf 0 n = some b → s.traffic = true → tfind s.key.binds n = some r → r.pipe.due = d :: l →
    s.ingFail n = false → miss = true ∨ tag ≠ d.2 → Answers (exec (.tagCheck n tag miss) s) fun t =>
      (t.key.run n).authFail = satAdd r.authFail 1 ∧ (t.key.run n).pipe.due = l ∧ (tget ({} : IngRun) t.dp.ing n).untrustPend = true ∧
      t.key.sticky.getLsbD 1 = true ∧ FrameBut [.key, .dp, .perf, .mbx] s t) ∧
  (∀ s n b r d l tag miss, s.presentBank.bindOf 0 n = some b → s.traffic = true → tfind s.key.binds n = some r → r.pipe.due = d :: l →
    s.ingFail n = true → Answers (exec (.tagCheck n tag miss) s) fun t =>
      t.key.run n = { r with pipe := { r.pipe with due := l }, uncheck := satAdd r.uncheck 1 } ∧ FrameBut [.key] s t) ∧
  (∀ s n, (tget ({} : IngRun) s.dp.ing n).untrust = some 0 → Answers (exec (.untrustClear n) s) fun t =>
    tget ({} : IngRun) t.dp.ing n = { tget ({} : IngRun) s.dp.ing n with untrust := none } ∧ FrameBut [.dp] s t) ∧
  (∀ (p : CStream) (a : Byte), (p.cipher false (p.cipher true a).2).2 = a ∧ (p.cipher false (p.cipher true a).2).1.y = (p.cipher true a).1.y) ∧
  (∀ (p : CStream) (a : Byte), p.n + 1 = payloadBytes →
    (p.cipher false (p.cipher true a).2).1.due = p.due ++ [(p.cur.ki, (p.cipher true a).1.tag)])

/-- Cipher pipelines (R277, R278): a mismatch counts a fault event, 16 in a row retire the pipeline; the spare takes over a tributary of a
retired pipeline; a self-test puts a pipeline back; the spare's test passes once a second. -/
def Obligations.CipherPipes : Prop :=
  (∀ s c d p n, c < 16 → d < 2 → p < 8 → n < 16 → s.rst.variant ≠ 2 → s.traffic = true → (s.key.pipe (pipeKey c d p)).state = 0 →
    (s.key.pipe (pipeKey c d p)).window = none → Answers (exec (.pipeMismatch c d p n) s) fun t =>
      (t.key.pipe (pipeKey c d p)).events = 1 ∧ (t.key.pipe (pipeKey c d p)).state = 0 ∧ (t.key.pipe (pipeKey c d p)).window = some s.tick ∧
      t.key.sticky.getLsbD 0 = true ∧ (∀ k, k ≠ pipeKey c d p → t.key.pipe k = s.key.pipe k) ∧ FrameBut [.key, .perf, .cps, .mbx] s t) ∧
  (∀ s c d p n, c < 16 → d < 2 → p < 8 → 16 ≤ n → s.rst.variant ≠ 2 → s.traffic = true → (s.key.pipe (pipeKey c d p)).state = 0 →
    Answers (exec (.pipeMismatch c d p n) s) fun t =>
      (t.key.pipe (pipeKey c d p)).state = 1 ∧ (∀ k, k ≠ pipeKey c d p → t.key.pipe k = s.key.pipe k) ∧ FrameBut [.key, .perf, .cps, .mbx] s t) ∧
  (∀ s n, (s.ingCtx n).active = true → (s.presentBank.bindOf 0 n).isSome = true → s.traffic = true →
    (s.key.pipe (pipeKey ((s.ingCtx n).stream.toNat / 8) 0 ((s.ingCtx n).stream.toNat % 8))).state = 1 →
    (s.key.pipe (pipeKey ((s.ingCtx n).stream.toNat / 8) 0 8)).state = 0 → s.key.spare = [] →
    Answers (exec (.pipeHandover ((s.ingCtx n).stream.toNat / 8) 0 n) s) fun t =>
      t.key.spare = [(n, pipeKey ((s.ingCtx n).stream.toNat / 8) 0 ((s.ingCtx n).stream.toNat % 8))] ∧ FrameBut [.key, .cps, .mbx] s t) ∧
  (∀ s c d p, (s.key.pipe (pipeKey c d p)).state = 2 → 64 ≤ since s.tick (s.key.pipe (pipeKey c d p)).since →
    Answers (exec (.pipeSelfTestDone c d p true) s) fun t =>
      t.key.pipe (pipeKey c d p) = { s.key.pipe (pipeKey c d p) with state := 0 } ∧ FrameBut [.key] s t) ∧
  (∀ s c d p, (s.key.pipe (pipeKey c d p)).state = 2 → 64 ≤ since s.tick (s.key.pipe (pipeKey c d p)).since →
    Answers (exec (.pipeSelfTestDone c d p false) s) fun t =>
      t.key.pipe (pipeKey c d p) = { s.key.pipe (pipeKey c d p) with state := 1 } ∧ FrameBut [.key, .cps, .mbx] s t) ∧
  (∀ s c d, c < 16 → d < 2 → s.rst.variant ≠ 2 → s.glb.released = true → s.key.votes c d = true →
    97657 ≤ since s.tick (s.key.pipe (pipeKey c d 8)).since → Answers (exec (.spareKat c d true) s) fun t =>
      t.key.pipe (pipeKey c d 8) = { s.key.pipe (pipeKey c d 8) with since := s.tick } ∧ FrameBut [.key] s t)

/-! ### Timing, redundant units, twin -/

/-- Reference candidates (R283, R285, R286, R291, R292): activity loss waits for the boundary, the end of WTR qualifies, a QL times out to
0xF, a disagreement of equals that have been of equal rank for 10 s makes the one of higher index DISPUTED, and 60 s of agreement clear it.
-/
def Obligations.TimingCandidates : Prop :=
  (∀ s i, (s.tim.cand i).enabled = true → Answers (exec (.candActivityLoss i) s) fun t =>
    t.tim.cand i = { s.tim.cand i with loss := true, cut := true } ∧ (∀ k, k ≠ i → t.tim.cand k = s.tim.cand k) ∧ FrameBut [.tim] s t) ∧
  (∀ s i, (s.tim.cand i).state = .wtr → secFrames s.tim.wtr ≤ since s.tick (s.tim.cand i).since → Answers (exec (.candWtrExpire i) s) fun t =>
    t.tim.cand i = { s.tim.cand i with state := .qualified } ∧ (∀ k, k ≠ i → t.tim.cand k = s.tim.cand k) ∧ FrameBut [.tim, .mbx] s t) ∧
  (∀ s i, (s.tim.cand i).enabled = true → s.hostSourced i (s.tim.cand i) = true → (s.tim.cand i).timeout ≠ 0 →
    secFrames (s.tim.cand i).timeout.toNat ≤ since s.tick ((s.tim.cand i).qlAt.getD 0) → Answers (exec (.qlTimeout i) s) fun t =>
      (t.tim.cand i).ql = 0xF ∧ (t.tim.cand i).state = (s.tim.cand i).state ∧ (∀ k, k ≠ i → t.tim.cand k = s.tim.cand k) ∧ FrameBut [.tim] s t) ∧
  (∀ s i j (x y : Int), i < j → s.tim.equalRank i j = true → s.pairDue i j = true → s.tim.dispPpb * 1000 < (x - y).natAbs →
    s.tim.hoReady = false → Answers (exec (.disputeCompare i j x y) s) fun t =>
      (t.tim.cand j).state = .disputed ∧ (t.tim.cand j).against = some i ∧ (t.tim.cand j).sticky.getLsbD 1 = true ∧ t.tim.cand i = s.tim.cand i ∧
      t.tim.sticky.getLsbD 5 = true ∧ FrameBut [.tim, .mbx] s t) ∧
  (∀ s i a, (s.tim.cand i).state = .disputed → (s.tim.cand i).agree = some a → 5859375 ≤ since s.tick a → Answers (exec (.disputeClear i) s) fun t =>
    t.tim.cand i = { s.tim.cand i with state := .qualified, against := none, agree := none } ∧ FrameBut [.tim, .mbx] s t)

/-- The states of the timing unit (R293, R296 to R299, R302 to R304): the end of a transition and a lock after the time of its bandwidth
enter LOCKED, an error over 1 µs leaves it, an estimate after 62 s in LOCKED makes holdover ready, the limit of holdover enters FREE_RUN,
the standby unit takes over at the swap period or where the active one fails, and without a standby that is ready the local oscillator
drives. -/
def Obligations.TimingStates : Prop :=
  (∀ s c, s.tim.state = .transition → s.tim.sel = some c → s.tim.selectable s.tim.fallback c = true → s.tim.force = 0 →
    s.timInForce.choose = some (c, s.tim.fallback) → s.timInForce.selectable s.tim.auto c = true → s.glb.secDue = false → Answers (exec .timTransitionEnd s) fun t =>
      t.tim.state = .locked ∧ t.tim.sel = some c ∧ t.tim.lockedAt = s.tick ∧ FrameBut [.tim] s t) ∧
  (∀ s, s.tim.state = .acquiring → s.tim.lockFrames ≤ since s.tick s.tim.since → Answers (exec .timLock s) fun t =>
    t.tim.state = .locked ∧ t.tim.sel = s.tim.sel ∧ t.tim.lockedAt = s.tick ∧ FrameBut [.tim] s t) ∧
  (∀ s (p : Int), s.tim.state = .locked → 1000 < p.natAbs → Answers (exec (.timLockLoss p) s) fun t =>
    t.tim.state = .acquiring ∧ t.tim.sel = s.tim.sel ∧ t.tim.sticky.getLsbD 0 = true ∧ t.tim.outQl = s.tim.ownQl ∧ FrameBut [.tim] s t) ∧
  (∀ s (p : Int), p.natAbs ≤ 1000 → Answers (exec (.timLockLoss p) s) fun t => FrameBut [] s t) ∧
  (∀ s e, s.tim.state = .locked → secFrames 62 ≤ since s.tick s.tim.lockedAt → Answers (exec (.hoReady e) s) fun t =>
    t.tim.hoReady = true ∧ t.tim.estimate = e ∧ t.tim.state = .locked ∧ t.tim.sel = s.tim.sel ∧ t.tim.outQl = s.tim.outQl ∧
    t.tim.cands = s.tim.cands ∧ FrameBut [.tim] s t) ∧
  (∀ s, s.tim.state = .holdover → s.glb.secDue = false → secFrames s.tim.hoLimit ≤ since s.tick s.tim.since → Answers (exec .holdoverLimit s) fun t =>
    t.tim.state = .freeRun ∧ t.tim.hoReady = false ∧ t.tim.sel = none ∧ t.tim.sticky.getLsbD 3 = true ∧ FrameBut [.tim, .mbx] s t) ∧
  (∀ s, s.tim.swapH ≠ 0 → hourFrames s.tim.swapH ≤ since s.tick s.tim.lastSwap → s.swapReady = true → Answers (exec .tuPeriodicSwap s) fun t =>
    t.tim.activeTu = !s.tim.activeTu ∧ t.tim.sticky.getLsbD 6 = true ∧ t.tim.state = s.tim.state ∧
    (t.cps.unit 0 (b2n s.tim.activeTu)).state = .ready ∧ (t.cps.unit 0 (1 - b2n s.tim.activeTu)).state = .active ∧
    FrameBut [.tim, .cps, .mbx] s t) ∧
  (∀ s, s.rst.phase = .started → s.rst.scanDirty = false → s.tim.localOsc = false → s.coverReady 0 = false → Answers (exec .tuEdgeMissing s) fun t =>
    t.tim.localOsc = true ∧ t.tim.activeTu = s.tim.activeTu ∧ FrameBut [.tim, .cps, .mbx] s t) ∧
  (∀ s, s.rst.phase = .started → s.rst.scanDirty = false → s.tim.localOsc = false → s.coverReady 0 = true → Answers (exec .tuEdgeMissing s) fun t =>
    t.tim.localOsc = false ∧ t.tim.activeTu = !s.tim.activeTu ∧ FrameBut [.tim, .cps, .mbx] s t)

/-- The CP and TU pairs (R428, R429, R432 to R436): votes on heartbeats, the loss of both CPs at the
referee, resynchronisation and its limits, the window, the swap period and a swap that waits, the journal, and errors in a CP's own memory. -/
def Obligations.RedundantUnits : Prop :=
  (∀ s, s.voted 1 (s.activeOf 1) = true → s.coverReady 1 = true → Answers (exec (.heartbeatLoss 1 (s.activeOf 1) false false) s) fun t =>
    t.cps.active = !s.cps.active ∧ (t.cps.unit 1 (1 - s.activeOf 1)).state = .active ∧ t.glb.remap = (setBit s.glb.remap (s.activeOf 1) false) ∧ FrameBut [.cps, .mbx, .glb, .sch] s t) ∧
  (∀ s, s.voted 1 (s.standbyOf 1) = true → s.cps.update = none → Answers (exec (.heartbeatLoss 1 (s.standbyOf 1) false false) s) fun t =>
    t.cps.active = s.cps.active ∧ (t.cps.unit 1 (s.standbyOf 1)).events = (s.cps.unit 1 (s.standbyOf 1)).events + 1 ∧ t.glb.remap = (setBit s.glb.remap (s.standbyOf 1) false) ∧ FrameBut [.cps, .mbx, .glb] s t) ∧
  (∀ s p u, s.voted p u = true → s.pert.hbMutes = false → Answers (exec (.heartbeatLoss p u true true) s) fun t =>
    t.cps = s.cps.modUnit p u (fun x => { x with unseen := false }) ∧ FrameBut [.cps] s t) ∧
  (∀ s u, u < 2 → (s.cps.unit 0 u).state = .resync → s.tim.localOsc = false → Answers (exec (.unitReady 0 u) s) fun t =>
    t.cps.unit 0 u = { s.cps.unit 0 u with state := .ready, readmitted := false } ∧ t.tim.aligned = true ∧ t.tim.stbReady = s.tim.hoReady ∧
      t.tim.stbEst = s.tim.estimate ∧ t.tim.activeTu = s.tim.activeTu ∧ FrameBut [.cps, .mbx, .tim] s t) ∧
  (∀ s u, u < 2 → (s.cps.unit 1 u).state = .resync → s.cps.update = none → Answers (exec (.unitReady 1 u) s) fun t =>
    t.cps.unit 1 u = { s.cps.unit 1 u with state := .ready, readmitted := false } ∧ t.cps.active = s.cps.active ∧ t.glb.remap = (setBit s.glb.remap u true) ∧ FrameBut [.cps, .mbx, .glb] s t) ∧
  (∀ s u, u < 2 → (s.cps.unit 0 u).state = .resync → 11718750 ≤ since s.tick (s.cps.unit 0 u).since → Answers (exec (.resyncTimeout 0 u) s) fun t =>
    (t.cps.unit 0 u).state = .retired ∧ FrameBut [.cps, .mbx] s t) ∧
  (∀ s u, u < 2 → (s.cps.unit 1 u).state = .resync → 2929688 ≤ since s.tick (s.cps.unit 1 u).since → Answers (exec (.resyncTimeout 1 u) s) fun t =>
    (t.cps.unit 1 u).state = .retired ∧ FrameBut [.cps, .mbx] s t) ∧
  (∀ s p u w, p < 2 → u < 2 → (s.cps.unit p u).window = some w → 8437500000 ≤ since s.tick w → (s.cps.unit p u).state ≠ .retired →
    Answers (exec (.unitWindowEnd p u) s) fun t =>
      t.cps.unit p u = { s.cps.unit p u with events := 0, window := none } ∧ FrameBut [.cps] s t) ∧
  (∀ s, s.cps.swapH ≠ 0 → hourFrames s.cps.swapH ≤ since s.tick s.cps.lastSwap → s.coverReady 1 = true → s.cps.update = none → s.rst.cpHalted = 0 →
    s.rst.phase = .started → Answers (exec .cpPeriodicSwap s) fun t =>
      t.cps.active = !s.cps.active ∧ (t.cps.unit 1 (s.activeOf 1)).state = .ready ∧ (t.cps.unit 1 (s.standbyOf 1)).state = .active ∧
      t.cps.lastSwap = s.tick ∧ FrameBut [.cps, .mbx, .sch] s t) ∧
  (∀ s x l, (s.cps.unit 1 (s.standbyOf 1)).state ≠ .retired → s.mbx.journal = x :: l → Answers (exec .journalRecord s) fun t =>
    t.mbx = { s.mbx with journal := l } ∧ t.cps.applied = s.cps.applied + 1 ∧ FrameBut [.cps, .mbx] s t) ∧
  (∀ s, s.rst.bootOkSeen = true → s.rst.scanDirty = false → s.rst.cpHalted = 0 → s.coverReady 1 = true →
    Answers (exec (.cpBankUncorrectableError (s.activeOf 1)) s) fun t =>
    t.cps.active = !s.cps.active ∧ t.glb.remap = (setBit s.glb.remap (s.activeOf 1) false) ∧
      (t.memRun (s.activeOf 1)).ue = satAdd (s.memRun (s.activeOf 1)).ue 1 ∧ FrameBut [.cps, .mbx, .glb, .sch, .mem] s t) ∧
  (∀ s, s.rst.bootOkSeen = true → s.rst.scanDirty = false → s.rst.cpHalted = 0 → (s.cps.unit 1 (s.standbyOf 1)).state ≠ .retired → s.cps.update = none →
    Answers (exec (.cpBankUncorrectableError (s.standbyOf 1)) s) fun t =>
      t.cps.active = s.cps.active ∧ (t.cps.unit 1 (s.standbyOf 1)).events = (s.cps.unit 1 (s.standbyOf 1)).events + 1 ∧ t.glb.remap = (setBit s.glb.remap (s.standbyOf 1) false) ∧
      (t.memRun (s.standbyOf 1)).ue = satAdd (s.memRun (s.standbyOf 1)).ue 1 ∧ FrameBut [.cps, .mbx, .glb, .mem] s t) ∧
  (∀ s u, u < 2 → s.voted 1 u = true → s.pert.hbMutes = false → (s.cps.unit 1 (1 - u)).unseen = false → Answers (exec (.heartbeatLoss 1 u true false) s) fun t =>
    t.cps.unit 1 u = { s.cps.unit 1 u with unseen := true } ∧ t.cps.active = s.cps.active ∧ FrameBut [.cps, .mbx, .perf] s t) ∧
  (∀ s u, u < 2 → s.voted 1 0 = true → s.voted 1 1 = true → s.pert.hbMutes = false → (s.cps.unit 1 (1 - u)).unseen = true → s.rst.phase = .started →
    Answers (exec (.heartbeatLoss 1 u true false) s) fun t => t.rst.phase = .inReset ∧ t.rst.lastSrc = 7 ∧ t.rst.coldKind = false) ∧
  (∀ s, s.voted 1 (s.activeOf 1) = true → s.pert.hbMutes = false → (s.cps.unit 1 (s.standbyOf 1)).state = .ready →
    Answers (exec (.heartbeatLoss 1 (s.activeOf 1) false true) s) fun t =>
      (t.cps.unit 1 (s.standbyOf 1)).state = .isolated ∧ t.cps.active = s.cps.active ∧ FrameBut [.cps, .mbx, .perf] s t) ∧
  (∀ s, s.cps.swapH ≠ 0 → hourFrames s.cps.swapH ≤ since s.tick s.cps.lastSwap → s.coverReady 1 = false → Answers (exec .cpPeriodicSwap s) fun t =>
    t.cps = { s.cps with swapDue := true } ∧ FrameBut [.cps] s t)

/-- The roles of the twin (R316, R323 to R325): heartbeat loss, take-overs, joining and the hand-over. -/
def Obligations.TwinRoles : Prop :=
  (∀ s, s.twin.role = .leader → s.twin.lossDue = true → s.glb.released = true → Answers (exec .twinHbLoss s) fun t =>
    t.twin.role = (if s.twin.senior then .activeAlone else .standbyAlone) ∧ t.twin.lossAt = some s.tick ∧ t.twin.hbOk = false ∧
    t.twin.sticky.getLsbD 2 = true ∧ t.twin.sticky.getLsbD 0 = true ∧ FrameBut [.twin, .glb, .mbx] s t) ∧
  (∀ s d, s.twin.role = .follower → s.twin.senior = true → s.twin.lossAt = some d → s.twin.hbLoss + 2 ≤ since s.tick d →
    Answers (exec .twinActivate s) fun t => t.twin.role = .activeAlone ∧ t.twin.act = !s.twin.peerAct ∧ FrameBut [.twin, .glb, .mbx] s t) ∧
  (∀ s d, s.twin.role = .standbyAlone → s.twin.actLow = true → s.twin.lossAt = some d → 2 * s.twin.hbLoss + 8 ≤ since s.tick d →
    Answers (exec .twinStandbyTakeover s) fun t => t.twin.role = .activeAlone ∧ t.twin.act = !s.twin.peerAct ∧ FrameBut [.twin, .glb, .mbx] s t) ∧
  (∀ s (c : Cfn) n, s.twin.joinAs ≠ 0 → s.twin.joined = false → s.twin.domAlign = false → s.sch.dataEnable = false → s.glb.released = true →
    n ∈ s.twinLanes → s.lockedStitch n = true → 3 ≤ (s.lane n).stRun → (s.lane n).stCfn = some (c - 1) → Answers (exec (.twinJoinAligned c) s) fun t =>
      t.glb.cfn = c ∧ t.twin.joined = true ∧ t.twin.role = s.twin.role ∧ FrameBut [.glb, .twin] s t) ∧
  (∀ s, s.twin.joined = true → 100 ≤ s.twin.hbRun → s.twin.joinAs = 2 → Answers (exec .twinJoinDone s) fun t =>
    t.twin.role = .leader ∧ t.twin.joinFrom = none ∧ t.twin.sweep = 0 ∧ FrameBut [.twin, .glb, .mbx] s t) ∧
  (∀ s, s.twin.joined = true → 100 ≤ s.twin.hbRun → s.twin.joinAs = 3 → s.mateFollowWaits = false →
    Answers (exec .twinJoinDone s) fun t =>
      t.twin.role = .follower ∧ t.glb.mode = .mateFollow ∧ t.twin.joinFrom = none ∧ FrameBut [.twin, .glb, .mbx] s t) ∧
  (∀ s c, s.twin.role = .leader → s.twin.yielding = none → s.glb.released = true → Answers (exec (.twinHandover c) s) fun t =>
    t.twin = { s.twin with yielding := some (cfnAdd s.tick 1) } ∧ FrameBut [.twin] s t) ∧
  (∀ s c y, s.twin.role = .leader → s.twin.yielding = some y → cfnGe s.tick (cfnAdd y 1) = true → Answers (exec (.twinHandover c) s) fun t =>
    t.twin.role = .standbyAlone ∧ t.twin.yielding = none ∧ t.twin.act = false ∧ FrameBut [.twin, .glb, .mbx] s t) ∧
  (∀ s c y, s.twin.role = .follower → s.twin.peerYield = some y → cfnGe s.tick (cfnAdd y 2) = true → Answers (exec (.twinHandover c) s) fun t =>
    t.twin.role = .activeAlone ∧ FrameBut [.twin, .glb, .mbx] s t) ∧
  (∀ s, s.twin.joined = true → 100 ≤ s.twin.hbRun → s.twin.joinAs = 3 → s.mateFollowWaits = true →
    Answers (exec .twinJoinDone s) fun t => t.twin.role = .follower ∧ t.glb.mode = s.glb.mode ∧ ModeTrigger.mateFollow ∈ t.glb.triggers ∧
      t.twin.joinFrom = none ∧ FrameBut [.twin, .glb, .mbx] s t)

/-! ### Power and JTAG -/

/-- The power manager (R415, R419 to R421): a sample, the steps of the loop within 650 mV to 800 mV, polls, retries, alerts and gating. -/
def Obligations.PowerManager : Prop :=
  (∀ s l, s.rst.powered = true → s.rst.phase ≠ .inReset → Answers (exec (.tempSample l) s) fun t =>
    (∀ i, i < 16 → tget (false, 0) t.pwr.temps i = (sensorOk l i, (l[i]?).getD 0)) ∧ t.pwr.cmdMv = s.pwr.cmdMv ∧ t.rst.phase = s.rst.phase) ∧
  (∀ s l, s.pwr.avsOn = true → s.pwr.retries = 0 → s.pwr.highRun < 99 → 645 ≤ s.pwr.cmdMv.toNat → s.pwr.cmdMv.toNat ≤ 795 →
    Answers (exec (.avsTick l) s) fun t =>
      t.pwr.cmdMv.toNat = s.pwr.cmdMv.toNat + (if minOf l < Config.avsTarget s.rst.trim then 5 else 0) ∧ t.pwr.sticky = s.pwr.sticky ∧
      FrameBut [.pwr] s t) ∧
  (∀ s l, s.pwr.avsOn = true → s.pwr.retries = 0 → s.pwr.highRun < 99 → s.pwr.cmdMv.toNat = 800 → Answers (exec (.avsTick l) s) fun t =>
    t.pwr.cmdMv.toNat = 800 ∧ (minOf l < Config.avsTarget s.rst.trim → t.pwr.sticky.getLsbD 0 = true) ∧ FrameBut [.pwr, .mbx] s t) ∧
  (∀ s v w, s.pwr.avsOn = true → w &&& Config.pmbusFaults = 0 → Answers (exec (.avsPoll v w) s) fun t =>
    t.pwr = { s.pwr with measMv := BitVec.ofNat 16 v } ∧ FrameBut [.pwr] s t) ∧
  (∀ s, s.pwr.stepDue = none → Answers (exec (.pmbusRetry true) s) fun t => t.pwr.retries = 0 ∧ t.pwr.avsHeld = false ∧ FrameBut [.pwr] s t) ∧
  (∀ s, s.pwr.avsHeld = false → s.pwr.retries < 2 → Answers (exec (.pmbusRetry false) s) fun t =>
    t.pwr = { s.pwr with retries := s.pwr.retries + 1 } ∧ FrameBut [.pwr] s t) ∧
  (∀ s, s.pwr.avsHeld = false → s.pwr.retries = 2 → Answers (exec (.pmbusRetry false) s) fun t =>
    t.pwr.avsHeld = true ∧ t.pwr.avsOn = false ∧ t.pwr.sticky.getLsbD 2 = true ∧ FrameBut [.pwr, .mbx] s t) ∧
  (∀ s w, Answers (exec (.pmbusAlert w) s) fun t =>
    (w &&& Config.pmbusFaults ≠ 0 → t.pwr.sticky.getLsbD 1 = true) ∧ (w &&& Config.pmbusFaults = 0 → t.pwr = s.pwr) ∧
    FrameBut [.pwr, .mbx] s t) ∧
  (∀ s b, 20 ≤ b → b < 22 → s.glb.released = true → s.glb.power = 1 → s.pwr.gated.getLsbD b = false → s.islandUsed b = false →
    97657 ≤ since s.tick (tget 0 s.pwr.usedAt b) → Answers (exec (.islandGate b) s) fun t => t.pwr.gated.getLsbD b = true ∧ FrameBut [.pwr, .key, .drawn] s t)

/-- JTAG and a quadrant's failure (R19, R20, R413): scan and halt need their debug level, the level itself an unlocked life cycle, and
fuses a blank array; the lanes of a failed quadrant retire. -/
def Obligations.JtagAndQuadrants : Prop :=
  (∀ s, s.rst.dbgLevel = 3 → Answers (exec .jtagScan s) fun t => t.rst = { s.rst with scanDirty := true } ∧ FrameBut [.rst] s t) ∧
  (∀ s, s.rst.dbgLevel ≠ 3 → Answers (exec .jtagScan s) fun t => FrameBut [] s t) ∧
  (∀ s l, l < 3 → s.rst.phase = .started → s.rst.lc = .blank ∨ s.rst.lc = .fieldReturn → Answers (exec (.jtagDebugSet l) s) fun t =>
    t.rst.dbgLevel = BitVec.ofNat 2 l ∧ t.key.slots = s.key.slots ∧ FrameBut [.rst, .mbx, .pert, .drawn] s t) ∧
  (∀ s l, s.rst.lc ≠ .blank → s.rst.lc ≠ .fieldReturn → Answers (exec (.jtagDebugSet l) s) fun t => FrameBut [] s t) ∧
  (∀ s v u k tr rp, s.rst.fuse0.blank = true → s.rst.fuse1.blank = true → Answers (exec (.jtagFuseProgram v u k tr rp) s) fun t =>
    t.rst.fuse0.variant = v ∧ t.rst.fuse0.uniqueId = u ∧ t.rst.fuse0.crcOk = true ∧ t.rst.fuse1 = t.rst.fuse0 ∧
    lcOf t.rst.fuse0 t.rst.fuse1 = .provisioned ∧ t.rst.variant = s.rst.variant ∧ FrameBut [.rst] s t) ∧
  (∀ s u h, u < 2 → 2 ≤ s.rst.dbgLevel.toNat → s.rst.lc ≠ .operational → s.cps.update = none → Answers (exec (.jtagCpHalt u h) s) fun t =>
    t.rst.cpHalted.getLsbD u = h ∧ FrameBut [.rst] s t) ∧
  (∀ s u h, s.rst.dbgLevel.toNat < 2 → Answers (exec (.jtagCpHalt u h) s) fun t => FrameBut [] s t) ∧
  (∀ s q, q < 4 → s.rst.phase = .started → s.glb.quadFail.getLsbD q = false → Answers (exec (.quadrantFailure q) s) fun t =>
    t.glb.quadFail.getLsbD q = true ∧
    (∀ n, n / 32 = q → (s.lane n).role ≠ .off → (s.lane n).retired = false → (s.lane n).retiring = false → (t.lane n).pend = some (.toRetired s.glb.cfn)) ∧
    (∀ n, n / 32 ≠ q → t.lane n = s.lane n) ∧ FrameBut [.glb, .lanes, .cps, .mbx, .twin] s t)

/-! ### Mailbox commands -/

/-- The DEV family (R345, R403, R408, R411, R413, R433, R434, R441, R464). -/
def Obligations.DeviceCommands : Prop :=
  (∀ r s, MbReady r s → Admitted 0x0101 devInfoForm r s → Answers (exec (.devInfo r) s) fun t =>
    ∃ p, Answered 0x0101 r 0 p t ∧ p.length = 19 ∧ leAt p 0 4 = s.devId.toNat ∧ leAt p 12 1 = b2n s.cps.active ∧ FrameBut exchangeParts s t) ∧
  (∀ r s, MbReady r s → Admitted 0x0102 devDecommissionForm r s → s.rst.lc = .operational ∨ s.rst.lc = .fieldReturn → s.rst.lcPend = none →
    Answers (exec (.devDecommission r true) s) fun t =>
      Answered 0x0102 r 0 [] t ∧ t.rst.lcPend = some .decommissioned ∧ t.rst.fuse0.bitD = 7 ∧ t.rst.fuse1.bitD = 7 ∧ t.rst.lc = s.rst.lc ∧
      ModeTrigger.decommission ∈ t.glb.triggers ∧ FrameBut (exchangeParts ++ [.rst, .glb]) s t) ∧
  (∀ r s, MbReady r s → Admitted 0x0103 devCpSwapForm r s → s.coverReady 1 = true → Answers (exec (.devCpSwap r) s) fun t =>
    Answered 0x0103 r 1 (cfnBytes s.recCfn) t ∧ t.cps.active = !s.cps.active ∧ FrameBut (exchangeParts ++ [.cps, .sch]) s t) ∧
  (∀ r s x, MbReady r s → Admitted 0x0104 devResetForm r s → r.u8 0 ≠ 1 → Answers (exec (.devReset r x) s) fun t =>
    Answered 0x0104 r 0 [] t ∧ t.rst = { s.rst with devReset := some (r.u8 0) } ∧ FrameBut (exchangeParts ++ [.rst]) s t) ∧
  (∀ r s, MbReady r s → Admitted 0x0104 devResetForm r s → r.u8 0 = 1 → s.rst.funcAnswer = [] → s.funcRefused (r.u8 1) = false →
    s.inReset (r.u8 1) = false → s.clockRuns (r.u8 1) = true → Answers (exec (.devReset r []) s) fun t =>
      t.rst.inReset.getLsbD (r.u8 1) = true ∧ t.rst.funcAnswer = [⟨r.u8 1, r.mb, r.seq, decide (r.u8 1 = 7 + r.mb)⟩] ∧ (t.box r.mb).state = .busy) ∧
  (∀ r s, MbReady r s → Admitted 0x0105 devLcChallengeForm r s → Answers (exec (.devLcChallenge r) s) fun t =>
    ∃ n : List Byte, n.length = 32 ∧ t.rst = { s.rst with nonce := some n } ∧
      Answered 0x0105 r 0 (leBytes 8 s.rst.uniqueId.toNat ++ n ++ [BitVec.ofNat 8 s.rst.lc.code]) t ∧ FrameBut (exchangeParts ++ [.rst, .drawn]) s t) ∧
  (∀ r s, MbReady r s → Admitted 0x0106 devLcAdvanceForm r s → s.rst.lc = .provisioned → r.u8 0 = 2 → s.rst.lcPend = none →
    Answers (exec (.devLcAdvance r true) s) fun t =>
      Answered 0x0106 r 0 [] t ∧ t.rst.lcPend = some .operational ∧ t.rst.fuse0.bitO = 7 ∧ t.rst.fuse1.bitO = 7 ∧ t.rst.nonce = none ∧
      t.rst.lc = .provisioned ∧ FrameBut (exchangeParts ++ [.rst]) s t) ∧
  (∀ r s, MbReady r s → Admitted 0x0107 devDebugSetForm r s → r.u8 0 ≤ s.rst.lc.freeLevel → r.u8 0 < 3 → Answers (exec (.devDebugSet r) s) fun t =>
    Answered 0x0107 r 0 [] t ∧ t.rst.dbgLevel = BitVec.ofNat 2 (r.u8 0) ∧ t.rst.nonce = none ∧ FrameBut (exchangeParts ++ [.rst, .pert]) s t) ∧
  (∀ r s, MbReady r s → Admitted 0x0107 devDebugSetForm r s → s.rst.dbgLevel.toNat < r.u8 0 → s.rst.lc.freeLevel < r.u8 0 → s.rst.nonce = none →
    Answers (exec (.devDebugSet r) s) fun t => Answered 0x0107 r 0x8005 [] t ∧ t.rst = s.rst ∧ FrameBut exchangeParts s t) ∧
  (∀ r s, MbReady r s → Admitted 0x0108 devRedCfgForm r s → Answers (exec (.devRedCfg r) s) fun t =>
    Answered 0x0108 r 0 [] t ∧ t.cps = { s.cps with swapH := r.u16 0 } ∧ FrameBut (exchangeParts ++ [.cps]) s t) ∧
  (∀ r s, MbReady r s → Admitted 0x0109 devUnitStatusForm r s → (∀ x ∈ s.cps.records, x.length = 16) → Answers (exec (.devUnitStatus r) s) fun t =>
    Reports 0x0109 r (16 + 16 * (s.cps.records.length - r.u8 0)) [] s t) ∧
  (∀ r s, MbReady r s → Admitted 0x010A devUnitReadmitForm r s → (s.cps.unit (r.u8 0) (r.u8 1)).state = .retired →
    (s.cps.unit (r.u8 0) (r.u8 1)).fresh = false → Answers (exec (.devUnitReadmit r) s) fun t =>
    Answered 0x010A r 0 [] t ∧ (t.cps.unit (r.u8 0) (r.u8 1)).state = .resync ∧ (t.cps.unit (r.u8 0) (r.u8 1)).events = 0 ∧
    t.glb.remap = (if r.u8 0 = 1 then setBit s.glb.remap (r.u8 1) false else s.glb.remap) ∧ FrameBut (exchangeParts ++ [.glb, .cps]) s t) ∧
  (∀ r s, MbReady r s → Admitted 0x010B devGpioCfgForm r s → tfind s.pwr.binds (r.u8 0) = none → (r.u8 0, true) ∉ s.pwr.pinsTaken →
    Answers (exec (.devGpioCfg r) s) fun t =>
    Reports 0x010B r 16 [.pwr, .drawn] s t ∧ tget 0 t.pwr.gpioFn (r.u8 0) = r.u8 1 ∧ tget 0 t.pwr.gpioDrive (r.u8 0) = r.u8 2 ∧
    tget 0 t.pwr.gpioPull (r.u8 0) = r.u8 3 ∧ t.pwr.gpioOut.getLsbD (r.u8 0) = decide (r.u8 4 = 1)) ∧
  (∀ r s, MbReady r s → Admitted 0x010B devGpioCfgForm r s → (r.u8 0, true) ∈ s.pwr.pinsTaken → Answers (exec (.devGpioCfg r) s) fun t =>
    Answered 0x010B r 0x8004 [] t ∧ t.pwr = s.pwr ∧ FrameBut exchangeParts s t) ∧
  (∀ r s, MbReady r s → Admitted 0x010A devUnitReadmitForm r s → (s.cps.unit (r.u8 0) (r.u8 1)).fresh = true → Answers (exec (.devUnitReadmit r) s) fun t =>
    Answered 0x010A r 0x8003 [] t ∧ t.cps = s.cps ∧ FrameBut exchangeParts s t)

/-- The GRP family (R60, R61, R65, R85). -/
def Obligations.GroupCommands : Prop :=
  (∀ r s, MbReady r s → Admitted 0x0201 grpCreateForm r s → (∀ i, i < r.u8 1 → (s.lane (r.u8 0 + i)).role = .off) → s.pnd.unusable = [] →
    Answers (exec (.grpCreate r) s) fun t =>
      Answered 0x0201 r 0 [] t ∧ t.grp (r.u8 0) = some (newGroup r s.tick) ∧
      (∀ i, i < r.u8 1 → (t.lane (r.u8 0 + i)).role = .line ∧ (t.lane (r.u8 0 + i)).state = .waitSignal) ∧
      (∀ k, k < r.u8 0 ∨ r.u8 0 + r.u8 1 ≤ k → t.lane k = s.lane k) ∧ FrameBut (exchangeParts ++ [.grps, .lanes, .sch, .pwr]) s t) ∧
  (∀ r s x, MbReady r s → Admitted 0x0202 grpDeleteForm r s → s.grp (r.u8 0) = some x →
    (∀ k ∈ groupStreams (r.u8 0) x, s.presentBank.names k = false ∧ s.futureBank.names k = false) → Answers (exec (.grpDelete r) s) fun t =>
      Answered 0x0202 r 0 [] t ∧ t.grp (r.u8 0) = none ∧ (∀ i, i < x.lanes → (t.lane (r.u8 0 + i)).role = .off) ∧
      (∀ k, k < r.u8 0 ∨ r.u8 0 + x.lanes ≤ k → t.lane k = s.lane k) ∧ FrameBut (exchangeParts ++ [.grps, .lanes, .sch]) s t) ∧
  (∀ r s x, MbReady r s → Admitted 0x0203 grpStatusForm r s → s.grp (r.u8 0) = some x → x.lanes ≤ 16 → Answers (exec (.grpStatus r) s) fun t =>
    Reports 0x0203 r 80 [] s t) ∧
  (∀ r s, MbReady r s → Admitted 0x0204 laneRetireForm r s → (s.lane (r.u8 0)).role = .line → (s.lane (r.u8 0)).retired = false →
    (s.lane (r.u8 0)).retiring = false → Answers (exec (.laneRetire r) s) fun t =>
      Answered 0x0204 r 0 [] t ∧ t.lane (r.u8 0) = { s.lane (r.u8 0) with pend := some (.toRetired s.glb.cfn) } ∧ OnlyLane (r.u8 0) s t ∧
      FrameBut (exchangeParts ++ [.lanes]) s t) ∧
  (∀ r s, MbReady r s → Admitted 0x0205 laneReadmitForm r s → (s.lane (r.u8 0)).retired = true → Answers (exec (.laneReadmit r) s) fun t =>
    Answered 0x0205 r 0 [] t ∧ t.lane (r.u8 0) = { s.lane (r.u8 0) with pend := some .readmit } ∧ OnlyLane (r.u8 0) s t ∧
    FrameBut (exchangeParts ++ [.lanes, .cps]) s t) ∧
  (∀ r s x, MbReady r s → Admitted 0x0206 grpSetOptionsForm r s → s.grp (r.u8 0) = some x → Answers (exec (.grpSetOptions r) s) fun t =>
    Answered 0x0206 r 0 [] t ∧
    t.grp (r.u8 0) = some { x with pendOpts := some (bitOf (r.u8 1) 0, bitOf (r.u8 1) 1, orDefault (r.u16 2) 128, orDefault (r.u32 4) 64) } ∧
    (∀ k, k ≠ r.u8 0 → t.grp k = s.grp k) ∧ FrameBut (exchangeParts ++ [.grps]) s t)

/-- The TRB family (R103, R106). -/
def Obligations.TributaryCommands : Prop :=
  (∀ r s, MbReady r s → Admitted 0x0301 trbStatusForm r s → Answers (exec (.trbStatus r) s) fun t => Reports 0x0301 r 96 [] s t) ∧
  (∀ r s, MbReady r s → Admitted 0x0302 trbResizeForm r s → (tget ({} : CtxCfg) s.presentBank.ing (r.u16 0)).type = 7 →
    (tget ({} : CtxCfg) s.presentBank.eg (r.u16 2)).type = 7 → (tget ({} : CtxCfg) s.presentBank.ing (r.u16 0)).resize ≠ 0 →
    (tget ({} : CtxCfg) s.presentBank.eg (r.u16 2)).resize ≠ 0 → s.dp.running (r.u16 0) (r.u16 2) = none → Answers (exec (.trbResize r) s) fun t =>
      Answered 0x0302 r 1 (cfnBytes s.recCfn) t ∧ t.dp = { s.dp with resizes := s.dp.resizes ++ [⟨r.u16 0, r.u16 2, 1, r.mb, r.seq⟩] } ∧
      FrameBut (exchangeParts ++ [.dp]) s t) ∧
  (∀ r s z, MbReady r s → Admitted 0x0303 trbResizeAbortForm r s → s.dp.running (r.u16 0) (r.u16 2) = some z → Answers (exec (.trbResizeAbort r) s) fun t =>
    Answered 0x0303 r 1 (cfnBytes s.recCfn) t ∧ t.dp.running (r.u16 0) (r.u16 2) = none ∧ FrameBut (exchangeParts ++ [.dp]) s t)

/-- The SCH family (R141, R143, R145, R149, R155, R161, R178). -/
def Obligations.ScheduleCommands : Prop :=
  (∀ r h s, MbReady r s → Admitted 0x0401 schLoadForm r s → s.glb.bme = true → s.futureBusy = false →
    step1 s (deliver s.sch.descs h (r.u16 0) (r.u16 2)) = none → Answers (exec (.schLoad r h) s) fun t =>
      Answered 0x0401 r 1 (cfnBytes s.recCfn) t ∧ t.sch.futState = .loading ∧ t.sch.load.isSome = true ∧ t.sch.digest = [] ∧
      t.sch.bank0 = s.sch.bank0 ∧ t.sch.bank1 = s.sch.bank1 ∧ t.sch.bank2 = s.sch.bank2 ∧ FrameBut (exchangeParts ++ [.sch]) s t) ∧
  (∀ r h s, MbReady r s → Admitted 0x0401 schLoadForm r s → s.glb.bme = false → Answers (exec (.schLoad r h) s) fun t =>
    Answered 0x0401 r 0x8005 [] t ∧ FrameBut exchangeParts s t) ∧
  (∀ r s, MbReady r s → Admitted 0x0402 schCopyForm r s → s.futureBusy = false → s.sch.armState = .idle → Answers (exec (.schCopy r) s) fun t =>
    Answered 0x0402 r 1 (cfnBytes s.recCfn) t ∧ t.sch = { s.sch with pendCopy := some r.origin, digest := [] } ∧ FrameBut (exchangeParts ++ [.sch]) s t) ∧
  (∀ r s, MbReady r s → Admitted 0x0403 schPrepareForm r s → s.futureBusy = false → s.futureBank.id ≠ 0 → r.u64 0 = 0 →
    s.futureBank.id ≠ s.presentBank.id → Answers (exec (.schPrepare r) s) fun t =>
      Answered 0x0403 r 1 (cfnBytes s.recCfn) t ∧ t.sch.pendPrep = some r.origin ∧ t.futureBank = s.futureBank ∧ FrameBut (exchangeParts ++ [.sch]) s t) ∧
  (∀ r s, MbReady r s → Admitted 0x0404 schUnprepareForm r s → s.sch.armState ≠ .commitArmed → s.sch.armState ≠ .commitGo → s.sch.pendCopy = none → s.sch.pendPrep = none →
    s.sch.futState = .checking ∨ s.sch.futState = .valid → Answers (exec (.schUnprepare r) s) fun t =>
      Answered 0x0404 r 0 [] t ∧ t.sch = { s.sch with pendUnprep := true } ∧ FrameBut (exchangeParts ++ [.sch]) s t) ∧
  (∀ r s, MbReady r s → Admitted 0x0405 schArmForm r s → r.u8 8 < 2 → s.sch.armState = .idle → s.sch.futState = .checking ∨ s.sch.futState = .valid →
    s.leadOk (r.cfn 0) (decide (r.u8 8 = 1)) = true → s.glb.mode.arms = true → s.domainMissing (decide (r.u8 8 = 1)) = false →
    Answers (exec (.schArm r) s) fun t =>
      Answered 0x0405 r 1 (cfnBytes s.recCfn) t ∧ t.sch.armState = .commitArmed ∧ t.sch.target = r.cfn 0 ∧
      (∃ a, t.sch.armed = some a ∧ a.target = r.cfn 0 ∧ a.effect = r.cfn 0 ∧ a.rollback = false ∧ a.resume = false ∧
        a.domain = decide (r.u8 8 = 1) ∧ a.id = s.futureBank.id ∧ a.origin = some r.origin) ∧ FrameBut (exchangeParts ++ [.sch]) s t) ∧
  (∀ r s, MbReady r s → Admitted 0x0405 schArmForm r s → s.glb.mode = .mateFollow → Answers (exec (.schArm r) s) fun t =>
    Answered 0x0405 r 0x8005 [] t ∧ FrameBut exchangeParts s t) ∧
  (∀ r s a, MbReady r s → Admitted 0x0406 schDisarmForm r s → s.sch.armed = some a → s.undecided = true → Answers (exec (.schDisarm r) s) fun t =>
    Answered 0x0406 r 0 [] t ∧ t.sch.armState = .idle ∧ t.sch.armed = none ∧ t.sch.sticky = s.sch.sticky ∧ FrameBut (exchangeParts ++ [.sch]) s t) ∧
  (∀ r s, MbReady r s → Admitted 0x0407 schRollbackForm r s → s.glb.mode ≠ .mateFollow → s.sch.armState = .idle → s.sch.futState ≠ .copying →
    s.sch.pastValid = true → s.leadOk (r.cfn 0) (decide (r.u8 8 = 1)) = true → s.glb.mode.arms = true →
    s.domainMissing (decide (r.u8 8 = 1)) = false → Answers (exec (.schRollback r) s) fun t =>
      Answered 0x0407 r 1 (cfnBytes s.recCfn) t ∧ t.sch.armState = .rollbackArmed ∧ t.sch.target = r.cfn 0 ∧
      (∃ a, t.sch.armed = some a ∧ a.rollback = true ∧ a.id = s.pastBank.id) ∧ FrameBut (exchangeParts ++ [.sch]) s t) ∧
  (∀ r s, MbReady r s → Admitted 0x0408 schStatusForm r s → s.sch.digest.length ≤ 32 → s.sch.outcomes.length ≤ 16 → Answers (exec (.schStatus r) s) fun t =>
    Reports 0x0408 r 472 [] s t)

/-- The CONJ family (R197, R198, R203), and an edge of a bound pin, which is a notice for the next but one frame or sets PIN_IGNORED
(R199). -/
def Obligations.ConjugationCommands : Prop :=
  (∀ r s x i, MbReady r s → Admitted 0x0501 conjNoticeForm r s → s.grp (r.u8 0) = some x → x.distributed = false → x.notice = none → s.noticeMode = true →
    2 ≤ (r.cfn 8 - s.glb.cfn).toNat → (r.cfn 8 - s.glb.cfn).toNat < 2 ^ 47 → (s.para (r.u8 0)).bind (·.keyed (r.u16 2)) = some i →
    Answers (exec (.conjNotice r) s) fun t =>
      Answered 0x0501 r 1 (cfnBytes s.recCfn) t ∧
      t.grp (r.u8 0) = some { x with notice := some (Notice.of (r.cfn 8) i (r.u16 2) false r.mb r.seq) } ∧ FrameBut (exchangeParts ++ [.grps]) s t) ∧
  (∀ r s x n, MbReady r s → Admitted 0x0502 conjCancelForm r s → s.grp (r.u8 0) = some x → x.distributed = false → x.notice = some n →
    s.glb.mode ≠ .mateFollow → Answers (exec (.conjCancel r) s) fun t =>
      Answered 0x0502 r 0 [] t ∧ t.grp (r.u8 0) = some { x with notice := none } ∧ FrameBut (exchangeParts ++ [.grps, .drawn]) s t) ∧
  (∀ r s, MbReady r s → Admitted 0x0503 conjPinCfgForm r s → s.pwr.binds = [] → tget 0 s.pwr.gpioFn (r.u8 0) = 0 → (r.u8 0, false) ∉ s.pwr.pinsTaken → r.u8 2 ≠ 0 →
    Answers (exec (.conjPinCfg r) s) fun t =>
      Answered 0x0503 r 0 [] t ∧ tfind t.pwr.binds (r.u8 0) = some (r.u8 1, r.u8 2, r.u8 3, decide (r.u8 4 = 1)) ∧ FrameBut (exchangeParts ++ [.pwr]) s t) ∧
  (∀ r s, MbReady r s → Admitted 0x0504 conjStatusForm r s → Answers (exec (.conjStatus r) s) fun t =>
    ∃ p, Answered 0x0504 r 0 p t ∧ 784 ≤ p.length ∧ FrameBut exchangeParts s t) ∧
  (∀ s p g i r q, tfind s.pwr.binds p = some (g, 1, i, false) → s.glb.released = true → s.grp g = some r → r.notice = none → r.distributed = false →
    s.para g = some q → s.noticeMode = true → i < q.conjs.length → Answers (exec (.conjPinEdge p true) s) fun t =>
      t.grp g = some { r with notice := some (Notice.of (cfnAdd s.glb.cfn 2) i (q.mAt i) true 0xFF 0) } ∧ FrameBut [.grps] s t) ∧
  (∀ s p g i r, tfind s.pwr.binds p = some (g, 1, i, false) → s.glb.released = true → s.grp g = some r → s.noticeMode = false →
    Answers (exec (.conjPinEdge p true) s) fun t => t.grp g = some (r.conjFlag 0) ∧ FrameBut [.grps] s t) ∧
  (∀ s p g m i r, tfind s.pwr.binds p = some (g, m, i, false) → s.grp g = some r → Answers (exec (.conjPinEdge p false) s) fun t => FrameBut [] s t)

/-- The EP and ENG commands (R218, R219, R230, R231). EP_PLACE answers OK with 16 bytes for each request where every request finds a place, and
NO_RESOURCE where one finds none; it changes nothing (which engine its search starts at is a free value). On an empty schedule with every
engine in service a request finds an engine, an understudy of the same island and an endpoint of that engine. EP_CONFIG leaves the
descriptor with the named fields replaced for the next boundary. EP_STATUS and ENG_STATUS report. EP_HARVEST_CFG waits for the next second.
ENG_READMIT of a RETIRED engine marks it for its self-test. -/
def Obligations.EndpointCommands : Prop :=
  (∀ r s x, MbReady r s → Admitted 0x0601 epPlaceForm r s → s.placeAll (s.draw 32).1.toNat (placeRequests r) = some x → Answers (exec (.epPlace r) s) fun t =>
    Answered 0x0601 r 0 x.2 t ∧ x.2.length = 16 * r.u16 0 ∧ FrameBut (exchangeParts ++ [.drawn]) s t) ∧
  (∀ r s, MbReady r s → Admitted 0x0601 epPlaceForm r s → s.placeAll (s.draw 32).1.toNat (placeRequests r) = none → Answers (exec (.epPlace r) s) fun t =>
    Answered 0x0601 r 0x8004 [] t ∧ FrameBut (exchangeParts ++ [.drawn]) s t) ∧
  (∀ r s, MbReady r s → Admitted 0x0601 epPlaceForm r s → r.u16 0 = 1 → s.presentBank.epwl = [] → s.eng.engs = [] → Answers (exec (.epPlace r) s) fun t =>
    ∃ p, Answered 0x0601 r 0 p t ∧ p.length = 16 ∧ leAt p 0 2 < 1024 ∧ leAt p 2 2 ≠ leAt p 0 2 ∧ leAt p 2 2 / 256 = leAt p 0 2 / 256 ∧
      leAt p 4 4 / 256 = leAt p 0 2 ∧ (r.u8 10 ≠ 0xFF → leAt p 0 2 / 256 = r.u8 10) ∧ FrameBut (exchangeParts ++ [.drawn]) s t) ∧
  (∀ r s, MbReady r s → Admitted 0x0602 epConfigForm r s → Answers (exec (.epConfig r) s) fun t =>
    Answered 0x0602 r 0 [] t ∧ tfind t.eng.pendDescs (r.u32 0) = some ((s.eng.nextDesc (r.u32 0)).set r) ∧
    (∀ k, k ≠ r.u32 0 → tfind t.eng.pendDescs k = tfind s.eng.pendDescs k) ∧ t.eng = { s.eng with pendDescs := t.eng.pendDescs } ∧
    FrameBut (exchangeParts ++ [.eng]) s t) ∧
  (∀ r (d : Desc), (d.set r).ttiTx = (if bitOf (r.u32 4) 0 then r.bytes 8 64 else d.ttiTx) ∧
    (d.set r).ttiExp = (if bitOf (r.u32 4) 1 then r.bytes 72 32 else d.ttiExp) ∧
    (d.set r).timMode = (if bitOf (r.u32 4) 2 then BitVec.ofNat 8 (r.u8 104) else d.timMode) ∧
    (d.set r).degMode = (if bitOf (r.u32 4) 3 then BitVec.ofNat 8 (r.u8 105) else d.degMode) ∧
    (d.set r).degThr = (if bitOf (r.u32 4) 4 then BitVec.ofNat 32 (r.u32 108) else d.degThr) ∧
    (d.set r).degM = (if bitOf (r.u32 4) 5 then BitVec.ofNat 8 (r.u8 106) else d.degM) ∧
    (d.set r).tcmMode = (if bitOf (r.u32 4) 6 then BitVec.ofNat 8 (r.u8 107) else d.tcmMode) ∧
    (d.set r).bdiBei = (if bitOf (r.u32 4) 7 then BitVec.ofNat 8 (r.u8 112) else d.bdiBei)) ∧
  (∀ r s, MbReady r s → Admitted 0x0603 epStatusForm r s → Answers (exec (.epStatus r) s) fun t =>
    ∃ p, Answered 0x0603 r 0 p t ∧ p.drop (p.length - 4) = leBytes 4 s.eng.latchSec.toNat ∧
      ((s.eng.desc (r.u32 0)).ttiTx.length ≤ 64 → (s.eng.desc (r.u32 0)).ttiExp.length ≤ 32 → (s.eng.ep (r.u32 0)).tti.length ≤ 64 →
        p.length = 244 ∧ leAt p 100 4 = (s.eng.desc (r.u32 0)).degThr.toNat ∧ leAt p 108 4 = (s.eng.ep (r.u32 0)).defects.toNat ∧
        (∀ i, i < 8 → leAt p (176 + 4 * i) 4 = (s.eng.latched (r.u32 0) i).toNat)) ∧ FrameBut exchangeParts s t) ∧
  (∀ r s, MbReady r s → Admitted 0x0604 epHarvestCfgForm r s → s.glb.bme = true → Answers (exec (.epHarvestCfg r) s) fun t =>
    Answered 0x0604 r 0 [] t ∧
    t.eng.harvest = { s.eng.harvest with pend := some (decide (r.u8 10 = 1), BitVec.ofNat 64 (r.u64 0), r.u8 8, BitVec.ofNat 4 (r.u8 9)) } ∧
    FrameBut (exchangeParts ++ [.eng]) s t) ∧
  (∀ r s, MbReady r s → Admitted 0x0605 engStatusForm r s → Answers (exec (.engStatus r) s) fun t =>
    ∃ p, Answered 0x0605 r 0 p t ∧ p.length = 16 * r.u16 2 ∧ (∀ i, i < r.u16 2 → slice p (16 * i) 16 = s.engRecord (r.u16 0 + i)) ∧
      FrameBut exchangeParts s t) ∧
  (∀ (s : State) e, leAt (s.engRecord e) 0 1 = (s.eng.run e).state.code ∧ leAt (s.engRecord e) 1 1 = (s.eng.run e).events % 256 ∧
    leAt (s.engRecord e) 4 2 = ((s.eng.run e).covering.getD 0xFFFF) % 65536 ∧ leAt (s.engRecord e) 12 1 = (s.eng.run e).cause % 256) ∧
  (∀ r s, MbReady r s → Admitted 0x0606 engReadmitForm r s → (s.eng.run (r.u16 0)).state = .retired → (s.eng.run (r.u16 0)).readmit = false →
    Answers (exec (.engReadmit r) s) fun t =>
      Answered 0x0606 r 0 [] t ∧ t.eng.run (r.u16 0) = { s.eng.run (r.u16 0) with readmit := true, events := 0, window := none } ∧
      FrameBut (exchangeParts ++ [.eng, .cps]) s t)

/-- The PG family (R241, R251). -/
def Obligations.ProtectionCommands : Prop :=
  (∀ r s x, MbReady r s → Admitted 0x0701 pgCommandForm r s → s.glb.mode ≠ .mateFollow → tfind s.prot (r.u16 0) = some x → x.freeze = false ∨ r.u8 2 = 7 →
    cmdPriority (r.u8 2) ≤ s.topNow (r.u16 0) → r.u8 2 ≠ 5 → Answers (exec (.pgCommand r) s) fun t =>
      Answered 0x0701 r 0 [] t ∧ tfind t.prot (r.u16 0) = some { x with cmds := x.cmds ++ [r.u8 2] } ∧
      (∀ k, k ≠ r.u16 0 → tfind t.prot k = tfind s.prot k) ∧ FrameBut (exchangeParts ++ [.prot]) s t) ∧
  (∀ r s x, MbReady r s → Admitted 0x0701 pgCommandForm r s → s.glb.mode ≠ .mateFollow → tfind s.prot (r.u16 0) = some x → s.topNow (r.u16 0) < cmdPriority (r.u8 2) →
    Answers (exec (.pgCommand r) s) fun t => Answered 0x0701 r 0x8003 [] t ∧ FrameBut exchangeParts s t) ∧
  (∀ r s, MbReady r s → Admitted 0x0702 pgStatusForm r s → Answers (exec (.pgStatus r) s) fun t => Reports 0x0702 r 43 [] s t) ∧
  (∀ r s, MbReady r s → Admitted 0x0703 pgListForm r s → s.prot = [] → Answers (exec (.pgList r) s) fun t =>
    Answered 0x0703 r 0 [0, 0, 0xFF, 0xFF] t ∧ FrameBut exchangeParts s t)

/-- The KEY family (R264, R265, R267, R272, R274, R278). -/
def Obligations.KeyCommands : Prop :=
  (∀ r s, MbReady r s → Admitted 0x0801 keyLockForm r s → r.u8 0 = 1 → s.key.owner = 0 → Answers (exec (.keyLock r) s) fun t =>
    Answered 0x0801 r 0 [] t ∧ t.key = { s.key with owner := deskOwner r.mb } ∧ FrameBut (exchangeParts ++ [.key]) s t) ∧
  (∀ r s, MbReady r s → Admitted 0x0801 keyLockForm r s → r.u8 0 = 2 → s.key.owner = deskOwner r.mb → Answers (exec (.keyLock r) s) fun t =>
    Answered 0x0801 r 0 [] t ∧ t.key = { s.key with owner := 0 } ∧ FrameBut (exchangeParts ++ [.key]) s t) ∧
  (∀ r s i, MbReady r s → Admitted 0x0802 keyLoadForm r s → s.key.blocked = false → s.loadsClosed = false → s.key.owner = deskOwner r.mb →
    (s.key.slot (r.u16 0)).loadHalf = some i → Answers (exec (.keyLoad r {}) s) fun t =>
      (∀ h, s.rst.unwrap (r.bytes 8 48) {} = some (some h) → Answered 0x0802 r 0 [BitVec.ofNat 8 (b2n i)] t ∧
        t.key.slot (r.u16 0) = { s.key.slot (r.u16 0) with loadPend := some (i, h) }) ∧
      (s.rst.unwrap (r.bytes 8 48) {} = some none → Answered 0x0802 r 0x8005 [] t ∧ t.key = s.key) ∧
      (∀ k, k ≠ r.u16 0 → t.key.slot k = s.key.slot k) ∧ FrameBut (exchangeParts ++ [.key]) s t) ∧
  (∀ r s e i, MbReady r s → Admitted 0x0802 keyLoadForm r s → s.key.blocked = false → s.loadsClosed = false → s.key.owner = deskOwner r.mb →
    (s.key.slot (r.u16 0)).loadHalf = some i → s.rst.unwrap (r.bytes 8 48) e = none → Answers (exec (.keyLoad r e) s) fun t =>
      Answered 0x0802 r 0x8006 [] t ∧ t.key = { s.key with faults := satAdd s.key.faults 1 } ∧ FrameBut (exchangeParts ++ [.key]) s t) ∧
  (∀ r s e, MbReady r s → Admitted 0x0802 keyLoadForm r s → s.key.blocked = true → Answers (exec (.keyLoad r e) s) fun t =>
    Answered 0x0802 r 0x8005 [] t ∧ FrameBut exchangeParts s t) ∧
  (∀ r s, MbReady r s → Admitted 0x0803 keyActivateForm r s → s.key.owner = deskOwner r.mb → s.activateBad (r.u16 0) = false → s.twin.role ≠ .leader →
    Answers (exec (.keyActivate r) s) fun t =>
      Answered 0x0803 r 0 [] t ∧ t.key.slot (r.u16 0) = { s.key.slot (r.u16 0) with actPend := some (cfnAdd s.tick 1) } ∧
      FrameBut (exchangeParts ++ [.key]) s t) ∧
  (∀ r s, MbReady r s → Admitted 0x0804 keyEraseForm r s → s.key.owner = deskOwner r.mb → Answers (exec (.keyErase r) s) fun t =>
    Answered 0x0804 r 0 [] t ∧ t.key.slot (r.u16 0) = (s.key.slot (r.u16 0)).erase (decide (r.u8 2 = 2)) ∧
    (∀ k, k ≠ r.u16 0 → t.key.slot k = s.key.slot k) ∧ FrameBut (exchangeParts ++ [.key]) s t) ∧
  (∀ r s, MbReady r s → Admitted 0x0805 keyStatusForm r s → s.key.binds = [] → Answers (exec (.keyStatus r) s) fun t => Reports 0x0805 r 56 [] s t) ∧
  (∀ r s, MbReady r s → Admitted 0x0806 keyPipeStatusForm r s → Answers (exec (.keyPipeStatus r) s) fun t => Reports 0x0806 r 288 [] s t) ∧
  (∀ r s, MbReady r s → Admitted 0x0807 keyPipeReadmitForm r s → (s.key.pipe (pipeKey (r.u8 0) (r.u8 1) (r.u8 2))).state = 1 →
    Answers (exec (.keyPipeReadmit r) s) fun t =>
      Answered 0x0807 r 0 [] t ∧
      t.key.pipe (pipeKey (r.u8 0) (r.u8 1) (r.u8 2)) =
        { s.key.pipe (pipeKey (r.u8 0) (r.u8 1) (r.u8 2)) with state := 2, since := s.tick, events := 0, window := none } ∧
      FrameBut (exchangeParts ++ [.key, .cps]) s t)

/-- The TIM family (R282, R283, R303, R305). -/
def Obligations.TimingCommands : Prop :=
  (∀ r s, MbReady r s → Admitted 0x0901 timCfgForm r s → Answers (exec (.timCfg r) s) fun t =>
    Answered 0x0901 r 0 [] t ∧ t.tim = { s.tim with cfgPend := s.tim.cfgPend ++ [r] } ∧ FrameBut (exchangeParts ++ [.tim]) s t) ∧
  (∀ r s, MbReady r s → Admitted 0x0902 timCandCfgForm r s → r.u8 0 < 8 ∨ (s.lane ((r.u8 0 - 8) / 2 * 8 + r.u8 4)).role = .line → Answers (exec (.timCandCfg r) s) fun t =>
    Answered 0x0902 r 0 [] t ∧ tfind t.tim.candPend (r.u8 0) = some r ∧ t.tim.cands = s.tim.cands ∧ FrameBut (exchangeParts ++ [.tim]) s t) ∧
  (∀ r s, MbReady r s → Admitted 0x0903 timSetQlForm r s → Answers (exec (.timSetQl r) s) fun t =>
    Answered 0x0903 r 0 [] t ∧ (t.tim.cand (r.u8 0)).ql = BitVec.ofNat 4 (r.u8 1) ∧ (t.tim.cand (r.u8 0)).qlAt = some s.tick ∧
    (∀ k, k ≠ r.u8 0 → t.tim.cand k = s.tim.cand k) ∧ FrameBut (exchangeParts ++ [.tim]) s t) ∧
  (∀ r s, MbReady r s → Admitted 0x0904 timStatusForm r s → Answers (exec (.timStatus r) s) fun t => Reports 0x0904 r 348 [.drawn] s t) ∧
  (∀ r s, MbReady r s → Admitted 0x0905 timHistoryForm r s → s.tim.hist.length ≤ 32 → Answers (exec (.timHistory r) s) fun t => Reports 0x0905 r 512 [] s t) ∧
  (∀ r s, MbReady r s → Admitted 0x0906 timSwapForm r s → s.swapReady = true → Answers (exec (.timSwap r) s) fun t =>
    Answered 0x0906 r 0 [] t ∧ t.tim = { s.tim with swapPend := true } ∧ FrameBut (exchangeParts ++ [.tim]) s t)

/-- The PWR and DIAG families (R23, R131, R345, R379, R384, R415, R448). -/
def Obligations.PowerAndDiagnosticCommands : Prop :=
  (∀ r s, MbReady r s → Admitted 0x0A01 pwrHoldForm r s → s.glb.released = true → s.glb.mode.running = true → s.glb.mode ≠ .hold →
    Answers (exec (.pwrHold r) s) fun t =>
      Answered 0x0A01 r 0 [] t ∧ ModeTrigger.hold ∈ t.glb.triggers ∧ t.glb.mode = s.glb.mode ∧ FrameBut (exchangeParts ++ [.glb]) s t) ∧
  (∀ r s, MbReady r s → Admitted 0x0A02 pwrResumeForm r s → s.glb.mode = .hold → s.pwr.tmax < 1000 → Answers (exec (.pwrResume r) s) fun t =>
    Answered 0x0A02 r 0 [] t ∧ ModeTrigger.resume ∈ t.glb.triggers ∧ t.glb.mode = .hold ∧ FrameBut (exchangeParts ++ [.glb]) s t) ∧
  (∀ r s, MbReady r s → Admitted 0x0A02 pwrResumeForm r s → s.glb.mode ≠ .hold → Answers (exec (.pwrResume r) s) fun t =>
    Answered 0x0A02 r 0x8003 [] t ∧ FrameBut exchangeParts s t) ∧
  (∀ r s, MbReady r s → Admitted 0x0A03 pwrStatusForm r s → Answers (exec (.pwrStatus r) s) fun t => Reports 0x0A03 r 40 [] s t) ∧
  (∀ r s, MbReady r s → Admitted 0x0A04 pwrGateUnusedForm r s → r.u8 0 = 1 → s.glb.mode = .service → Answers (exec (.pwrGateUnused r) s) fun t =>
    Answered 0x0A04 r 0 [] t ∧ t.pwr = { s.pwr with gateOn := true } ∧ t.glb.power = 1 ∧ FrameBut (exchangeParts ++ [.glb, .pwr]) s t) ∧
  (∀ r s, MbReady r s → Admitted 0x0A04 pwrGateUnusedForm r s → r.u8 0 = 0 → s.glb.mode = .service → Answers (exec (.pwrGateUnused r) s) fun t =>
    Answered 0x0A04 r 0 [] t ∧ t.pwr.gateOn = false ∧ (∀ i, i < 22 → t.pwr.gated.getLsbD i = false) ∧ t.glb.power = 0 ∧
    FrameBut (exchangeParts ++ [.glb, .pwr]) s t) ∧
  (∀ r s, MbReady r s → Admitted 0x0B01 diagMarchForm r s → (s.mem.marches.any (·.memory = r.u8 0)) = false → r.u8 1 = 0 →
    Answers (exec (.diagMarch r) s) fun t =>
      Answered 0x0B01 r 1 (cfnBytes s.recCfn) t ∧ t.mem = { s.mem with marches := s.mem.marches ++ [⟨r.u8 0, false, r.mb, r.seq⟩] } ∧
      FrameBut (exchangeParts ++ [.mem]) s t) ∧
  (∀ r s, MbReady r s → Admitted 0x0B02 diagLogForm r s → s.rst.dbgLevel ≠ 0 → Answers (exec (.diagLog r) s) fun t =>
    ∃ p, Answered 0x0B02 r 0 p t ∧ p.length ≤ 4076 ∧ leAt p 0 4 = p.length - 4 ∧ FrameBut (exchangeParts ++ [.drawn]) s t) ∧
  (∀ r s, MbReady r s → Admitted 0x0B02 diagLogForm r s → s.rst.dbgLevel = 0 → Answers (exec (.diagLog r) s) fun t =>
    Answered 0x0B02 r 0x8005 [] t ∧ FrameBut exchangeParts s t) ∧
  (∀ r s, MbReady r s → Admitted 0x0B03 diagMemStatusForm r s → Answers (exec (.diagMemStatus r) s) fun t => Reports 0x0B03 r 32 [] s t) ∧
  (∀ r s sp, MbReady r s → Admitted 0x0B20 diagPondSpareForm r s → (s.pond (r.u8 0)).role ≠ 1 → s.pnd.moveOf (r.u8 0) = none → s.idleSpare = some sp →
    Answers (exec (.diagPondSpare r) s) fun t =>
      Answered 0x0B20 r 0 [] t ∧ t.pnd.moves = s.pnd.moves ++ [PondMove.of (r.u8 0) (r.u8 0) sp (cfnAdd s.tick 1) 0] ∧ (t.pond (r.u8 0)).forced = true ∧
      OnlyPond (r.u8 0) s t ∧ FrameBut (exchangeParts ++ [.pnd]) s t) ∧
  (∀ r s, MbReady r s → Admitted 0x0B21 diagPondRestoreForm r s → (s.pond (r.u8 0)).role = 1 → (s.pond (r.u8 0)).retired = false →
    (s.pond (r.u8 0)).forced = true → s.pnd.moveOf (r.u8 0) = none → Answers (exec (.diagPondRestore r) s) fun t =>
      Answered 0x0B21 r 0 [] t ∧ t.pnd = { s.pnd with moves := s.pnd.moves ++ [PondMove.of (r.u8 0) (s.pnd.phys (r.u8 0)) (r.u8 0) (cfnAdd s.tick 1) 1] } ∧
      FrameBut (exchangeParts ++ [.pnd]) s t) ∧
  (∀ r s, MbReady r s → Admitted 0x0B30 diagPerfAccessForm r s → Answers (exec (.diagPerfAccess r) s) fun t =>
    Answered 0x0B30 r 0 [] t ∧ t.perf.access = BitVec.ofNat 2 (r.u8 0) ∧ FrameBut exchangeParts s t)

/-- The FW family (R332 to R334, R349). -/
def Obligations.FirmwareCommands : Prop :=
  (∀ r s, MbReady r s → Admitted 0x0C01 fwInfoForm r s → Answers (exec (.fwInfo r) s) fun t => Reports 0x0C01 r 44 [] s t) ∧
  (∀ r s, MbReady r s → Admitted 0x0C02 fwWriteForm r s → r.u8 0 = 0 → r.u8 1 = 1 → s.flashStuck = false → Answers (exec (.fwWrite r) s) fun t =>
    Answered 0x0C02 r 0 [] t ∧ t.cps.slot0.valid = false ∧ t.cps.slot0.data = tover 0xFF (r.u32 4) (r.data.drop 8) [] ∧ t.cps.slot1 = s.cps.slot1 ∧
    FrameBut (exchangeParts ++ [.cps]) s t) ∧
  (∀ r s, MbReady r s → Admitted 0x0C03 fwSelectForm r s → (s.cps.image (r.u8 0)).valid = true → s.flashStuck = false → Answers (exec (.fwSelect r) s) fun t =>
    Answered 0x0C03 r 0 [] t ∧ t.cps.bootPtr0 = r.u8 0 ∧ t.cps.bootPtr1 = r.u8 0 ∧ FrameBut (exchangeParts ++ [.cps]) s t) ∧
  (∀ r s, MbReady r s → Admitted 0x0C03 fwSelectForm r s → (s.cps.image (r.u8 0)).valid = false → Answers (exec (.fwSelect r) s) fun t =>
    Answered 0x0C03 r 0x8007 [] t ∧ t.cps.bootPtr0 = s.cps.bootPtr0 ∧ FrameBut exchangeParts s t) ∧
  (∀ r s, MbReady r s → Admitted 0x0C04 fwLiveUpdateForm r s → s.cps.update = none → s.coverReady 1 = true → (s.cps.image (r.u8 0)).valid = true →
    (s.cps.image (r.u8 0)).ucodeId = s.eng.ucodeId → (s.cps.image (r.u8 0)).journal = s.cps.jVersion → Answers (exec (.fwLiveUpdate r) s) fun t =>
      Answered 0x0C04 r 1 (cfnBytes s.recCfn) t ∧ t.cps.update = some (r.u8 0, r.mb, r.seq) ∧ (t.cps.unit 1 (s.standbyOf 1)).state = .resync ∧
      t.cps.active = s.cps.active ∧ t.glb.remap = (setBit s.glb.remap (s.standbyOf 1) false) ∧ FrameBut (exchangeParts ++ [.glb, .cps]) s t) ∧
  (∀ r s, r.mb = 0 → s.rst.phase = .shallows → s.glb.mode = .shallows → s.inReset 7 = false → (s.box 0).state = .idle ∨ (s.box 0).state = .done →
    s.cpServes = true → s.pert.bellDelay 0 = 0 → s.mbx.waiting.any (Waiting.ripe s.tick) = false → Admitted 0x0C05 fwRecoverStartForm r s →
    Answers (exec (.fwRecoverStart r) s) fun t =>
      Answered 0x0C05 r 0 [] t ∧ t.rst = { s.rst with count := 0, recoverSlot := some (r.u8 0), devReset := some 9 } ∧ FrameBut (exchangeParts ++ [.rst]) s t)

/-- The TWIN, DOM and STC families (R307, R313, R316, R324 to R326). -/
def Obligations.TwinCommands : Prop :=
  (∀ r s n, MbReady r s → Admitted 0x0D01 twinJoinForm r s → s.twin.role = .solo → s.twin.joinAs = 0 → s.changePending = false → s.sch.dataEnable = false → n ∈ s.twinLanes →
    s.lockedStitch n = true → Answers (exec (.twinJoin r) s) fun t =>
      Answered 0x0D01 r 1 (cfnBytes s.recCfn) t ∧ t.twin.role = .joining ∧ t.twin.joinAs = r.u8 0 ∧ t.twin.joinFrom = some r.origin ∧
      FrameBut (exchangeParts ++ [.twin, .glb]) s t) ∧
  (∀ r s, MbReady r s → Admitted 0x0D02 twinLeaveForm r s → s.twin.role ≠ .solo → s.glb.mode ≠ .mateFollow → Answers (exec (.twinLeave r) s) fun t =>
    Answered 0x0D02 r 0 [] t ∧ t.twin = { s.twin with leave := true } ∧ FrameBut (exchangeParts ++ [.twin]) s t) ∧
  (∀ r s, MbReady r s → Admitted 0x0D03 twinStatusForm r s → s.twin.hist.length ≤ 16 → Answers (exec (.twinStatus r) s) fun t => Reports 0x0D03 r 264 [] s t) ∧
  (∀ r s, MbReady r s → Admitted 0x0D04 twinCfgForm r s → s.twin.role = .solo → Answers (exec (.twinCfg r) s) fun t =>
    Answered 0x0D04 r 0 [] t ∧ t.twin = { s.twin with
      twinLanes := BitVec.ofNat 128 (r.fld 0 16), seniorCfg := r.u8 16, seniorSet := true, hbLoss := r.u8 17, fsyncUse := decide (r.u8 18 = 1), compPs := r.s32 20 } ∧
    FrameBut (exchangeParts ++ [.twin]) s t) ∧
  (∀ r s, MbReady r s → Admitted 0x0D05 twinYieldForm r s → s.twin.role = .leader → s.twin.yielding = none → Answers (exec (.twinYield r) s) fun t =>
    Answered 0x0D05 r 0 [] t ∧ t.twin = { s.twin with yielding := some (cfnAdd s.tick 1) } ∧ FrameBut (exchangeParts ++ [.twin]) s t) ∧
  (∀ r s, MbReady r s → Admitted 0x0D10 domCfgForm r s → s.sch.armState = .idle → s.sch.dataEnable = false → Answers (exec (.domCfg r) s) fun t =>
    Answered 0x0D10 r 0 [] t ∧ t.twin.index = BitVec.ofNat 6 (r.u8 0) ∧ t.twin.domLanes = BitVec.ofNat 128 (r.fld 8 16) ∧ t.twin.role = s.twin.role ∧
    FrameBut (exchangeParts ++ [.twin]) s t) ∧
  (∀ r s, MbReady r s → Admitted 0x0D11 domStatusForm r s → Answers (exec (.domStatus r) s) fun t => Reports 0x0D11 r (8 + 16 * s.domainLanes.length) [] s t) ∧
  (∀ r s, MbReady r s → Admitted 0x0D20 stcLaneSetForm r s → (∀ n ∈ laneMask r, (s.lane n).role ≠ .line) → s.pnd.unusable = [] →
    Answers (exec (.stcLaneSet r) s) fun t =>
      Answered 0x0D20 r 0 [] t ∧ (∀ n ∈ laneMask r, (t.lane n).role = .stitch) ∧ (∀ n, n ∉ laneMask r → t.lane n = s.lane n) ∧
      FrameBut (exchangeParts ++ [.lanes, .sch, .pwr]) s t) ∧
  (∀ r s, MbReady r s → Admitted 0x0D21 stcLaneReleaseForm r s →
    (∀ n ∈ laneMask r, s.stitch n = true ∧ s.presentBank.names n = false ∧ s.futureBank.names n = false) → s.sch.armed = none →
    Answers (exec (.stcLaneRelease r) s) fun t =>
      Answered 0x0D21 r 0 [] t ∧ (∀ n ∈ laneMask r, (t.lane n).role = .off) ∧ (∀ n, n ∉ laneMask r → t.lane n = s.lane n) ∧
      FrameBut (exchangeParts ++ [.lanes, .sch]) s t)

/-- What commands can change in every state, whatever their outcome: a mailbox command that asks about the device changes nothing but the
mailboxes, the counters, the journal and (where its mailbox is in reset) the record of the access; events change their own block. -/
def Obligations.CommandFrames : Prop :=
  (∀ r, Touches (.devInfo r) (exchangeParts ++ [.glb]) ∧ Touches (.devUnitStatus r) (exchangeParts ++ [.glb]) ∧ Touches (.grpStatus r) (exchangeParts ++ [.glb]) ∧
    Touches (.trbStatus r) (exchangeParts ++ [.glb]) ∧ Touches (.schStatus r) (exchangeParts ++ [.glb]) ∧ Touches (.conjStatus r) (exchangeParts ++ [.glb]) ∧
    Touches (.epStatus r) (exchangeParts ++ [.glb]) ∧ Touches (.engStatus r) (exchangeParts ++ [.glb]) ∧ Touches (.pgStatus r) (exchangeParts ++ [.glb]) ∧
    Touches (.pgList r) (exchangeParts ++ [.glb]) ∧ Touches (.keyStatus r) (exchangeParts ++ [.glb]) ∧ Touches (.keyPipeStatus r) (exchangeParts ++ [.glb]) ∧
    Touches (.timHistory r) (exchangeParts ++ [.glb]) ∧ Touches (.pwrStatus r) (exchangeParts ++ [.glb]) ∧ Touches (.diagMemStatus r) (exchangeParts ++ [.glb]) ∧
    Touches (.fwInfo r) (exchangeParts ++ [.glb]) ∧ Touches (.twinStatus r) (exchangeParts ++ [.glb]) ∧ Touches (.domStatus r) (exchangeParts ++ [.glb])) ∧
  (∀ n f, Touches (.lineFrame n f) [.lanes, .grps, .eng, .perf]) ∧ (∀ n, Touches (.signalDetected n) [.lanes]) ∧ (∀ n, Touches (.signalLost n) [.lanes]) ∧
  (∀ n, Touches (.adaptConverged n) [.lanes]) ∧ (∀ n, Touches (.adaptTimeout n) [.lanes, .cps, .mbx]) ∧ (∀ n, Touches (.huntAccept n) [.lanes]) ∧
  (∀ n, Touches (.huntTimeout n) [.lanes, .cps, .mbx]) ∧ (∀ n, Touches (.dlofDeclare n) [.lanes, .grps, .eng, .cps, .mbx]) ∧ (∀ n, Touches (.cdrLockLoss n) [.lanes, .cps, .mbx]) ∧
  (∀ n u w, Touches (.burstDetected n u w) [.lanes, .eng, .perf, .cps, .mbx]) ∧ (∀ n, Touches (.laneTryWindowEnd n) [.lanes]) ∧
  (∀ g l, Touches (.deskewDone g l) [.lanes, .grps]) ∧ (∀ g b p, Touches (.osmcPdu g b p) [.grps]) ∧ (∀ g, Touches (.osmcTimeout g) [.grps]) ∧
  (∀ g, Touches (.osmcInfoTx g) [.grps]) ∧ (∀ n, Touches (.tribOpen n) [.dp, .mbx]) ∧ (∀ n, Touches (.dfcmovfDeclare n) [.dp]) ∧
  (∀ n, Touches (.dfcmovfClear n) [.dp]) ∧ (∀ i e c, Touches (.resizeComplete i e c) [.dp, .mbx]) ∧ Touches .commitNotice [.sch] ∧
  Touches .domainReadiness [.sch, .twin] ∧ Touches .domainVeto [.sch, .twin] ∧ Touches .commitDecision [.sch, .twin, .pert, .perf, .mbx] ∧
  Touches .domainIdCheck [.sch, .twin, .mbx] ∧ Touches .schCopyDone [.sch, .mem, .mbx] ∧ Touches .schCheckDone [.sch, .mem, .mbx] ∧
  (∀ e c, Touches (.engineFaultEvent e c) [.eng, .perf, .cps, .mbx, .mem]) ∧ (∀ e, Touches (.engineRestart e) [.eng]) ∧
  (∀ e b, Touches (.engineSelfTestDone e b) [.eng, .cps, .mbx]) ∧ (∀ e, Touches (.engineWindowEnd e) [.eng]) ∧ Touches .harvestStart [.eng, .glb] ∧
  Touches .harvestDone [.eng, .glb] ∧ Touches .harvestTruncate [.eng, .glb, .perf] ∧ (∀ n a b, Touches (.holdOffExpire n a b) [.prot]) ∧
  (∀ n, Touches (.wtrExpire n) [.prot]) ∧ (∀ n v, Touches (.apsAccept n v) [.prot]) ∧ (∀ n, Touches (.fopNrTimeout n) [.prot]) ∧
  (∀ n, Touches (.encryptBlockStart n) [.key, .mbx]) ∧ (∀ n h, Touches (.headerReceived n h) [.key, .mbx]) ∧
  (∀ n a m, Touches (.tagCheck n a m) [.key, .dp, .perf, .mbx]) ∧ (∀ n, Touches (.untrustClear n) [.dp]) ∧
  (∀ i, Touches (.candActivityLoss i) [.tim]) ∧ (∀ i, Touches (.candWtrExpire i) [.tim, .mbx]) ∧ (∀ i, Touches (.qlTimeout i) [.tim]) ∧
  (∀ i j x y, Touches (.disputeCompare i j x y) [.tim, .mbx]) ∧ (∀ i, Touches (.disputeClear i) [.tim, .mbx]) ∧
  Touches .timTransitionEnd [.tim, .mbx] ∧ Touches .timLock [.tim] ∧ (∀ x, Touches (.timLockLoss x) [.tim]) ∧ (∀ x, Touches (.hoReady x) [.tim]) ∧
  Touches .holdoverLimit [.tim, .mbx] ∧ Touches .tuPeriodicSwap [.tim, .cps, .mbx] ∧ Touches .tuEdgeMissing [.tim, .cps, .mbx] ∧
  Touches .journalRecord [.cps, .mbx] ∧ Touches .jtagScan [.rst] ∧ (∀ c, Touches (.pertCountdownEnd c) [.pert]) ∧ Touches .perfSnapshotDone [.perf] ∧
  (∀ e, Touches (.tagRecord e) [.perf]) ∧ (∀ l, Touches (.avsTick l) [.pwr, .mbx]) ∧ (∀ v w, Touches (.avsPoll v w) [.pwr, .mbx]) ∧
  (∀ b, Touches (.pmbusRetry b) [.pwr, .mbx]) ∧ (∀ w, Touches (.pmbusAlert w) [.pwr, .mbx]) ∧ (∀ p r, Touches (.conjPinEdge p r) [.grps, .mbx, .drawn])
end

