-- ==== Sys2Proof/Laws/Tbl.lean ====
section
/-!
SUPPORT. Sparse tables: reading after writing, and that every operation keeps the canonical form.
-/

namespace Sys2Proof.Machine

variable {α β : Type}

/-! ### The canonical form, by its first key -/

/-- Keys strictly rising. -/
def Rising (t : Tbl α) : Prop := t.Pairwise fun a b => a.1 < b.1

theorem trising_iff (t : Tbl α) : trising t = true ↔ Rising t := by
  induction t with
  | nil => simp [trising, Rising]
  | cons e r ih =>
    cases r with
    | nil => simp [trising, Rising]
    | cons f q =>
      simp only [trising, Bool.and_eq_true, decide_eq_true_eq, ih, Rising, List.pairwise_cons]
      constructor
      · rintro ⟨h, h2, h3⟩
        refine ⟨?_, h2, h3⟩
        intro a ha
        rcases List.mem_cons.mp ha with rfl | ha
        · exact h
        · exact lt_trans h (h2 a ha)
      · rintro ⟨h, h2, h3⟩
        exact ⟨h f (by simp), h2, h3⟩

theorem twf_iff [DecidableEq α] (d : α) (t : Tbl α) : twf d t = true ↔ Rising t ∧ ∀ e ∈ t, e.2 ≠ d := by
  simp [twf, trising_iff]

/-! ### Reading -/

theorem tfind_nil (k : Nat) : tfind ([] : Tbl α) k = none := rfl

theorem tfind_cons (e : Nat × α) (t : Tbl α) (k : Nat) : tfind (e :: t) k = if e.1 = k then some e.2 else tfind t k := by
  unfold tfind
  rw [List.lookup_cons]
  by_cases h : e.1 = k
  · subst h; simp
  · have : (k == e.1) = false := by simpa using fun h' => h h'.symm
    simp [h, this]

theorem tfind_tins_same (t : Tbl α) (k : Nat) (v : α) : tfind (tins t k v) k = some v := by
  induction t with
  | nil => simp [tins, tfind_cons]
  | cons e r ih =>
    obtain ⟨a, b⟩ := e
    unfold tins
    split
    · simp [tfind_cons]
    · split
      · simp [tfind_cons]
      · rename_i h1 h2
        rw [tfind_cons, if_neg (fun h => h2 h.symm), ih]

theorem tfind_tins_ne (t : Tbl α) {k m : Nat} (h : m ≠ k) (v : α) : tfind (tins t k v) m = tfind t m := by
  induction t with
  | nil => simp [tins, tfind_cons, Ne.symm h]
  | cons e r ih =>
    obtain ⟨a, b⟩ := e
    unfold tins
    split
    · rw [tfind_cons, if_neg (Ne.symm h)]
    · split
      · rename_i h1 h2
        subst h2
        rw [tfind_cons, tfind_cons, if_neg (Ne.symm h), if_neg (Ne.symm h)]
      · rw [tfind_cons, tfind_cons, ih]

theorem tfind_tdel_same (t : Tbl α) (k : Nat) : tfind (tdel t k) k = none := by
  induction t with
  | nil => rfl
  | cons e r ih =>
    unfold tdel at ih ⊢
    rw [List.filter_cons]
    split
    · rename_i h
      rw [tfind_cons, if_neg (by simpa using h), ih]
    · exact ih

theorem tfind_tdel_ne (t : Tbl α) {k m : Nat} (h : m ≠ k) : tfind (tdel t k) m = tfind t m := by
  induction t with
  | nil => rfl
  | cons e r ih =>
    unfold tdel at ih ⊢
    rw [List.filter_cons, tfind_cons]
    split
    · rw [tfind_cons, ih]
    · rename_i h2
      have : e.1 = k := by simpa using h2
      rw [if_neg (fun h' => h (h'.symm.trans this)), ih]

@[simp] theorem tget_tput_same [DecidableEq α] (d : α) (t : Tbl α) (k : Nat) (v : α) : tget d (tput d t k v) k = v := by
  unfold tput tget
  split
  · rename_i h; rw [tfind_tdel_same, h]; rfl
  · rw [tfind_tins_same]; rfl

@[simp] theorem tget_tput_ne [DecidableEq α] (d d' : α) (t : Tbl α) {k m : Nat} (h : m ≠ k) (v : α) :
    tget d (tput d' t k v) m = tget d t m := by
  unfold tput tget
  split
  · rw [tfind_tdel_ne _ h]
  · rw [tfind_tins_ne _ h]

theorem tget_tmod_same [DecidableEq α] (d : α) (t : Tbl α) (k : Nat) (f : α → α) : tget d (tmod d t k f) k = f (tget d t k) :=
  tget_tput_same d t k _

theorem tget_tmod_ne_default [DecidableEq α] (d d' : α) (t : Tbl α) {k m : Nat} (h : m ≠ k) (f : α → α) :
    tget d (tmod d' t k f) m = tget d t m := tget_tput_ne d d' t h _

theorem tget_tmod_ne [DecidableEq α] (d : α) (t : Tbl α) {k m : Nat} (h : m ≠ k) (f : α → α) :
    tget d (tmod d t k f) m = tget d t m := tget_tput_ne d d t h _

theorem tfind_tupd_same (t : Tbl α) (k : Nat) (f : α → α) : tfind (tupd t k f) k = (tfind t k).map f := by
  induction t with
  | nil => rfl
  | cons e r ih =>
    unfold tupd at ih ⊢
    rw [List.map_cons, tfind_cons, tfind_cons]
    by_cases h : e.1 = k
    · simp [h]
    · simp [h, ih]

theorem tfind_tupd_ne (t : Tbl α) {k m : Nat} (h : m ≠ k) (f : α → α) : tfind (tupd t k f) m = tfind t m := by
  induction t with
  | nil => rfl
  | cons e r ih =>
    unfold tupd at ih ⊢
    rw [List.map_cons, tfind_cons, tfind_cons, ih]
    by_cases h2 : e.1 = k
    · have h3 : ¬ e.1 = m := fun h' => h (h'.symm.trans h2)
      have h4 : ¬ k = m := fun h' => h h'.symm
      simp [h2, h4]
    · simp [h2]

/-! ### The canonical form is kept -/

theorem mem_tins {t : Tbl α} {k : Nat} {v : α} {e : Nat × α} (h : e ∈ tins t k v) : e = (k, v) ∨ e ∈ t := by
  induction t with
  | nil => simp [tins] at h; exact .inl h
  | cons f r ih =>
    obtain ⟨a, b⟩ := f
    unfold tins at h
    split at h
    · rcases List.mem_cons.mp h with h | h
      · exact .inl h
      · exact .inr h
    · split at h
      · rcases List.mem_cons.mp h with h | h
        · exact .inl h
        · exact .inr (List.mem_cons_of_mem _ h)
      · rcases List.mem_cons.mp h with h | h
        · exact .inr (by rw [h]; exact List.mem_cons_self ..)
        · rcases ih h with h | h
          · exact .inl h
          · exact .inr (List.mem_cons_of_mem _ h)

theorem tins_rising {t : Tbl α} (h : Rising t) (k : Nat) (v : α) : Rising (tins t k v) := by
  induction t with
  | nil => simp [tins, Rising]
  | cons f r ih =>
    obtain ⟨a, b⟩ := f
    have h' := List.pairwise_cons.mp h
    unfold tins
    split
    · rename_i hk
      refine List.pairwise_cons.mpr ⟨?_, h⟩
      intro e he
      rcases List.mem_cons.mp he with rfl | he
      · exact hk
      · exact lt_trans hk (h'.1 e he)
    · split
      · rename_i hk
        subst hk
        exact List.pairwise_cons.mpr ⟨h'.1, h'.2⟩
      · rename_i h1 h2
        refine List.pairwise_cons.mpr ⟨?_, ih h'.2⟩
        intro e he
        rcases mem_tins he with rfl | he
        · show a < k; omega
        · exact h'.1 e he

theorem filter_rising {t : Tbl α} (h : Rising t) (p : Nat × α → Bool) : Rising (t.filter p) := List.Pairwise.filter p h

theorem tdel_rising {t : Tbl α} (h : Rising t) (k : Nat) : Rising (tdel t k) := filter_rising h _

theorem tdel_twf [DecidableEq α] {d : α} {t : Tbl α} (h : twf d t) (k : Nat) : twf d (tdel t k) := by
  rw [twf_iff] at h ⊢
  exact ⟨tdel_rising h.1 k, fun e he => h.2 e (List.mem_filter.mp he).1⟩

theorem tput_twf [DecidableEq α] {d : α} {t : Tbl α} (h : twf d t) (k : Nat) (v : α) : twf d (tput d t k v) := by
  unfold tput
  split
  · exact tdel_twf h k
  · rename_i hv
    rw [twf_iff] at h ⊢
    refine ⟨tins_rising h.1 k v, fun e he => ?_⟩
    rcases mem_tins he with rfl | he
    · exact hv
    · exact h.2 e he

theorem tmod_twf [DecidableEq α] {d : α} {t : Tbl α} (h : twf d t) (k : Nat) (f : α → α) : twf d (tmod d t k f) := tput_twf h k _

theorem filter_twf [DecidableEq α] {d : α} {t : Tbl α} (h : twf d t) (p : Nat × α → Bool) : twf d (t.filter p) := by
  rw [twf_iff] at h ⊢
  exact ⟨filter_rising h.1 p, fun e he => h.2 e (List.mem_filter.mp he).1⟩

theorem tupd_rising {t : Tbl α} (h : Rising t) (k : Nat) (f : α → α) : Rising (tupd t k f) := by
  unfold tupd Rising
  rw [List.pairwise_map]
  refine List.Pairwise.imp ?_ h
  intro a b hab
  split <;> split <;> exact hab

theorem tmap_rising {t : Tbl α} (h : Rising t) (f : Nat → α → β) : Rising (tmap f t) := by
  unfold tmap Rising
  rw [List.pairwise_map]
  exact h

theorem tof_rising (l : List (Nat × α)) : Rising (tof l) := by
  unfold tof
  suffices h : ∀ t : Tbl α, Rising t → Rising (l.foldl (fun t e => tins t e.1 e.2) t) from h [] List.Pairwise.nil
  induction l with
  | nil => exact fun t h => h
  | cons e r ih => exact fun t h => ih _ (tins_rising h _ _)

theorem empty_twf [DecidableEq α] (d : α) : twf d ([] : Tbl α) := rfl

/-! ### Runs of values -/

theorem Rising.append {a b : Tbl α} (ha : Rising a) (hb : Rising b) (h : ∀ x ∈ a, ∀ y ∈ b, x.1 < y.1) : Rising (a ++ b) :=
  List.pairwise_append.mpr ⟨ha, hb, h⟩

theorem zipIdx_rising (l : List α) (base : Nat) : Rising ((l.zipIdx base).map fun p => (p.2, p.1)) := by
  induction l generalizing base with
  | nil => exact List.Pairwise.nil
  | cons a r ih =>
    rw [List.zipIdx_cons, List.map_cons]
    refine List.pairwise_cons.mpr ⟨?_, ih (base + 1)⟩
    intro e he
    obtain ⟨p, hp, rfl⟩ := List.mem_map.mp he
    have := List.mem_zipIdx hp
    show base < p.2
    omega

theorem mem_zipIdx_bound {l : List α} {base : Nat} {e : Nat × α} (h : e ∈ (l.zipIdx base).map fun p => (p.2, p.1)) :
    base ≤ e.1 ∧ e.1 < base + l.length := by
  obtain ⟨p, hp, rfl⟩ := List.mem_map.mp h
  have := List.mem_zipIdx hp
  exact ⟨this.1, this.2.1⟩

theorem tover_twf [DecidableEq α] {d : α} {t : Tbl α} (h : twf d t) (base : Nat) (l : List α) : twf d (tover d base l t) := by
  rw [twf_iff] at h ⊢
  unfold tover
  constructor
  · refine Rising.append (Rising.append (filter_rising h.1 _) (filter_rising (zipIdx_rising l base) _) ?_) (filter_rising h.1 _) ?_
    · intro x hx y hy
      have h1 := (List.mem_filter.mp hx).2
      have h2 := mem_zipIdx_bound (List.mem_filter.mp hy).1
      simp at h1
      omega
    · intro x hx y hy
      have h1 := (List.mem_filter.mp hy).2
      simp at h1
      rcases List.mem_append.mp hx with hx | hx
      · have h2 := (List.mem_filter.mp hx).2
        simp at h2
        omega
      · have h2 := mem_zipIdx_bound (List.mem_filter.mp hx).1
        omega
  · intro e he
    rcases List.mem_append.mp he with he | he
    · rcases List.mem_append.mp he with he | he
      · exact h.2 e (List.mem_filter.mp he).1
      · simpa using (List.mem_filter.mp he).2
    · exact h.2 e (List.mem_filter.mp he).1

theorem tfind_append (a b : Tbl α) (k : Nat) : tfind (a ++ b) k = (tfind a k).or (tfind b k) := by
  induction a with
  | nil => rfl
  | cons e r ih =>
    rw [List.cons_append, tfind_cons, tfind_cons]
    split <;> simp [ih]

theorem tfind_none {t : Tbl α} {k : Nat} (h : ∀ e ∈ t, e.1 ≠ k) : tfind t k = none := by
  induction t with
  | nil => rfl
  | cons e r ih =>
    rw [tfind_cons, if_neg (h e (List.mem_cons_self ..)), ih fun x hx => h x (List.mem_cons_of_mem _ hx)]

/-- Within a written run the table reads as written. -/
theorem tget_run [DecidableEq α] (d : α) (l : List α) (base i : Nat) (hi : i < l.length) :
    tget d (((l.zipIdx base).map fun p => (p.2, p.1)).filter fun e => e.2 != d) (base + i) = l[i] := by
  induction l generalizing base i with
  | nil => simp at hi
  | cons a r ih =>
    rw [List.zipIdx_cons, List.map_cons, List.filter_cons]
    cases i with
    | zero =>
      rw [List.getElem_cons_zero, Nat.add_zero]
      by_cases h : a = d
      · have hb : (a != d) = false := by simpa using h
        simp only [hb, Bool.false_eq_true, if_false]
        unfold tget
        rw [tfind_none, h]
        · rfl
        · intro e he
          have := mem_zipIdx_bound (List.mem_filter.mp he).1
          omega
      · have hb : (a != d) = true := by simpa using h
        simp only [hb, if_true]
        unfold tget
        rw [tfind_cons, if_pos (by simp)]
        rfl
    | succ n =>
      have hn : n < r.length := by simpa using hi
      have h2 := ih (base + 1) n hn
      have he : base + 1 + n = base + (n + 1) := by omega
      rw [he] at h2
      rw [List.getElem_cons_succ]
      split
      · unfold tget at h2 ⊢
        rw [tfind_cons, if_neg (by show ¬ base = base + (n + 1); omega)]
        exact h2
      · exact h2

theorem tget_tover [DecidableEq α] (d : α) (base : Nat) (l : List α) (t : Tbl α) (i : Nat) (hi : i < l.length) :
    tget d (tover d base l t) (base + i) = l[i] := by
  rw [← tget_run d l base i hi]
  unfold tover tget
  rw [tfind_append, tfind_append]
  rw [tfind_none (t := t.filter fun e => e.1 < base), tfind_none (t := t.filter fun e => base + l.length ≤ e.1)]
  · simp
  · intro e he
    have := (List.mem_filter.mp he).2
    simp at this
    omega
  · intro e he
    have := (List.mem_filter.mp he).2
    simp at this
    omega

/-- What was written as a run is read back as that run. -/
theorem trange_tover [DecidableEq α] (d : α) (base : Nat) (l : List α) (t : Tbl α) : trange d (tover d base l t) base l.length = l := by
  unfold trange
  refine List.ext_getElem (by simp) fun i h1 h2 => ?_
  simp only [List.getElem_map, List.getElem_range]
  exact tget_tover d base l t i h2

end Sys2Proof.Machine
end

