-- ==== Sys2Proof/Laws/State.lean ====
section
/-!
SUPPORT. What each update of the state leaves: one lemma per part of the state and update, so that no proof unfolds a record update.
-/

namespace Sys2Proof.Machine

variable (s : State)

@[simp] theorem State.modRst_rst (f : Rst → Rst) : (s.modRst f).rst = f s.rst := rfl
@[simp] theorem State.modRst_glb (f : Rst → Rst) : (s.modRst f).glb = s.glb := rfl
@[simp] theorem State.modRst_lanes (f : Rst → Rst) : (s.modRst f).lanes = s.lanes := rfl
@[simp] theorem State.modRst_grps (f : Rst → Rst) : (s.modRst f).grps = s.grps := rfl
@[simp] theorem State.modRst_sch (f : Rst → Rst) : (s.modRst f).sch = s.sch := rfl
@[simp] theorem State.modRst_pnd (f : Rst → Rst) : (s.modRst f).pnd = s.pnd := rfl
@[simp] theorem State.modRst_dp (f : Rst → Rst) : (s.modRst f).dp = s.dp := rfl
@[simp] theorem State.modRst_eng (f : Rst → Rst) : (s.modRst f).eng = s.eng := rfl
@[simp] theorem State.modRst_prot (f : Rst → Rst) : (s.modRst f).prot = s.prot := rfl
@[simp] theorem State.modRst_key (f : Rst → Rst) : (s.modRst f).key = s.key := rfl
@[simp] theorem State.modRst_tim (f : Rst → Rst) : (s.modRst f).tim = s.tim := rfl
@[simp] theorem State.modRst_twin (f : Rst → Rst) : (s.modRst f).twin = s.twin := rfl
@[simp] theorem State.modRst_mbx (f : Rst → Rst) : (s.modRst f).mbx = s.mbx := rfl
@[simp] theorem State.modRst_cps (f : Rst → Rst) : (s.modRst f).cps = s.cps := rfl
@[simp] theorem State.modRst_bus (f : Rst → Rst) : (s.modRst f).bus = s.bus := rfl
@[simp] theorem State.modRst_mem (f : Rst → Rst) : (s.modRst f).mem = s.mem := rfl
@[simp] theorem State.modRst_pwr (f : Rst → Rst) : (s.modRst f).pwr = s.pwr := rfl
@[simp] theorem State.modRst_perf (f : Rst → Rst) : (s.modRst f).perf = s.perf := rfl
@[simp] theorem State.modRst_pert (f : Rst → Rst) : (s.modRst f).pert = s.pert := rfl
@[simp] theorem State.modRst_drawn (f : Rst → Rst) : (s.modRst f).drawn = s.drawn := rfl
@[simp] theorem State.modRst_pending (f : Rst → Rst) : (s.modRst f).pending = s.pending := rfl

@[simp] theorem State.modGlb_rst (f : Glb → Glb) : (s.modGlb f).rst = s.rst := rfl
@[simp] theorem State.modGlb_glb (f : Glb → Glb) : (s.modGlb f).glb = f s.glb := rfl
@[simp] theorem State.modGlb_lanes (f : Glb → Glb) : (s.modGlb f).lanes = s.lanes := rfl
@[simp] theorem State.modGlb_grps (f : Glb → Glb) : (s.modGlb f).grps = s.grps := rfl
@[simp] theorem State.modGlb_sch (f : Glb → Glb) : (s.modGlb f).sch = s.sch := rfl
@[simp] theorem State.modGlb_pnd (f : Glb → Glb) : (s.modGlb f).pnd = s.pnd := rfl
@[simp] theorem State.modGlb_dp (f : Glb → Glb) : (s.modGlb f).dp = s.dp := rfl
@[simp] theorem State.modGlb_eng (f : Glb → Glb) : (s.modGlb f).eng = s.eng := rfl
@[simp] theorem State.modGlb_prot (f : Glb → Glb) : (s.modGlb f).prot = s.prot := rfl
@[simp] theorem State.modGlb_key (f : Glb → Glb) : (s.modGlb f).key = s.key := rfl
@[simp] theorem State.modGlb_tim (f : Glb → Glb) : (s.modGlb f).tim = s.tim := rfl
@[simp] theorem State.modGlb_twin (f : Glb → Glb) : (s.modGlb f).twin = s.twin := rfl
@[simp] theorem State.modGlb_mbx (f : Glb → Glb) : (s.modGlb f).mbx = s.mbx := rfl
@[simp] theorem State.modGlb_cps (f : Glb → Glb) : (s.modGlb f).cps = s.cps := rfl
@[simp] theorem State.modGlb_bus (f : Glb → Glb) : (s.modGlb f).bus = s.bus := rfl
@[simp] theorem State.modGlb_mem (f : Glb → Glb) : (s.modGlb f).mem = s.mem := rfl
@[simp] theorem State.modGlb_pwr (f : Glb → Glb) : (s.modGlb f).pwr = s.pwr := rfl
@[simp] theorem State.modGlb_perf (f : Glb → Glb) : (s.modGlb f).perf = s.perf := rfl
@[simp] theorem State.modGlb_pert (f : Glb → Glb) : (s.modGlb f).pert = s.pert := rfl
@[simp] theorem State.modGlb_drawn (f : Glb → Glb) : (s.modGlb f).drawn = s.drawn := rfl
@[simp] theorem State.modGlb_pending (f : Glb → Glb) : (s.modGlb f).pending = s.pending := rfl

@[simp] theorem State.modSch_rst (f : Sch → Sch) : (s.modSch f).rst = s.rst := rfl
@[simp] theorem State.modSch_glb (f : Sch → Sch) : (s.modSch f).glb = s.glb := rfl
@[simp] theorem State.modSch_lanes (f : Sch → Sch) : (s.modSch f).lanes = s.lanes := rfl
@[simp] theorem State.modSch_grps (f : Sch → Sch) : (s.modSch f).grps = s.grps := rfl
@[simp] theorem State.modSch_sch (f : Sch → Sch) : (s.modSch f).sch = f s.sch := rfl
@[simp] theorem State.modSch_pnd (f : Sch → Sch) : (s.modSch f).pnd = s.pnd := rfl
@[simp] theorem State.modSch_dp (f : Sch → Sch) : (s.modSch f).dp = s.dp := rfl
@[simp] theorem State.modSch_eng (f : Sch → Sch) : (s.modSch f).eng = s.eng := rfl
@[simp] theorem State.modSch_prot (f : Sch → Sch) : (s.modSch f).prot = s.prot := rfl
@[simp] theorem State.modSch_key (f : Sch → Sch) : (s.modSch f).key = s.key := rfl
@[simp] theorem State.modSch_tim (f : Sch → Sch) : (s.modSch f).tim = s.tim := rfl
@[simp] theorem State.modSch_twin (f : Sch → Sch) : (s.modSch f).twin = s.twin := rfl
@[simp] theorem State.modSch_mbx (f : Sch → Sch) : (s.modSch f).mbx = s.mbx := rfl
@[simp] theorem State.modSch_cps (f : Sch → Sch) : (s.modSch f).cps = s.cps := rfl
@[simp] theorem State.modSch_bus (f : Sch → Sch) : (s.modSch f).bus = s.bus := rfl
@[simp] theorem State.modSch_mem (f : Sch → Sch) : (s.modSch f).mem = s.mem := rfl
@[simp] theorem State.modSch_pwr (f : Sch → Sch) : (s.modSch f).pwr = s.pwr := rfl
@[simp] theorem State.modSch_perf (f : Sch → Sch) : (s.modSch f).perf = s.perf := rfl
@[simp] theorem State.modSch_pert (f : Sch → Sch) : (s.modSch f).pert = s.pert := rfl
@[simp] theorem State.modSch_drawn (f : Sch → Sch) : (s.modSch f).drawn = s.drawn := rfl
@[simp] theorem State.modSch_pending (f : Sch → Sch) : (s.modSch f).pending = s.pending := rfl

@[simp] theorem State.modPnd_rst (f : Pnd → Pnd) : (s.modPnd f).rst = s.rst := rfl
@[simp] theorem State.modPnd_glb (f : Pnd → Pnd) : (s.modPnd f).glb = s.glb := rfl
@[simp] theorem State.modPnd_lanes (f : Pnd → Pnd) : (s.modPnd f).lanes = s.lanes := rfl
@[simp] theorem State.modPnd_grps (f : Pnd → Pnd) : (s.modPnd f).grps = s.grps := rfl
@[simp] theorem State.modPnd_sch (f : Pnd → Pnd) : (s.modPnd f).sch = s.sch := rfl
@[simp] theorem State.modPnd_pnd (f : Pnd → Pnd) : (s.modPnd f).pnd = f s.pnd := rfl
@[simp] theorem State.modPnd_dp (f : Pnd → Pnd) : (s.modPnd f).dp = s.dp := rfl
@[simp] theorem State.modPnd_eng (f : Pnd → Pnd) : (s.modPnd f).eng = s.eng := rfl
@[simp] theorem State.modPnd_prot (f : Pnd → Pnd) : (s.modPnd f).prot = s.prot := rfl
@[simp] theorem State.modPnd_key (f : Pnd → Pnd) : (s.modPnd f).key = s.key := rfl
@[simp] theorem State.modPnd_tim (f : Pnd → Pnd) : (s.modPnd f).tim = s.tim := rfl
@[simp] theorem State.modPnd_twin (f : Pnd → Pnd) : (s.modPnd f).twin = s.twin := rfl
@[simp] theorem State.modPnd_mbx (f : Pnd → Pnd) : (s.modPnd f).mbx = s.mbx := rfl
@[simp] theorem State.modPnd_cps (f : Pnd → Pnd) : (s.modPnd f).cps = s.cps := rfl
@[simp] theorem State.modPnd_bus (f : Pnd → Pnd) : (s.modPnd f).bus = s.bus := rfl
@[simp] theorem State.modPnd_mem (f : Pnd → Pnd) : (s.modPnd f).mem = s.mem := rfl
@[simp] theorem State.modPnd_pwr (f : Pnd → Pnd) : (s.modPnd f).pwr = s.pwr := rfl
@[simp] theorem State.modPnd_perf (f : Pnd → Pnd) : (s.modPnd f).perf = s.perf := rfl
@[simp] theorem State.modPnd_pert (f : Pnd → Pnd) : (s.modPnd f).pert = s.pert := rfl
@[simp] theorem State.modPnd_drawn (f : Pnd → Pnd) : (s.modPnd f).drawn = s.drawn := rfl
@[simp] theorem State.modPnd_pending (f : Pnd → Pnd) : (s.modPnd f).pending = s.pending := rfl

@[simp] theorem State.modDp_rst (f : Dp → Dp) : (s.modDp f).rst = s.rst := rfl
@[simp] theorem State.modDp_glb (f : Dp → Dp) : (s.modDp f).glb = s.glb := rfl
@[simp] theorem State.modDp_lanes (f : Dp → Dp) : (s.modDp f).lanes = s.lanes := rfl
@[simp] theorem State.modDp_grps (f : Dp → Dp) : (s.modDp f).grps = s.grps := rfl
@[simp] theorem State.modDp_sch (f : Dp → Dp) : (s.modDp f).sch = s.sch := rfl
@[simp] theorem State.modDp_pnd (f : Dp → Dp) : (s.modDp f).pnd = s.pnd := rfl
@[simp] theorem State.modDp_dp (f : Dp → Dp) : (s.modDp f).dp = f s.dp := rfl
@[simp] theorem State.modDp_eng (f : Dp → Dp) : (s.modDp f).eng = s.eng := rfl
@[simp] theorem State.modDp_prot (f : Dp → Dp) : (s.modDp f).prot = s.prot := rfl
@[simp] theorem State.modDp_key (f : Dp → Dp) : (s.modDp f).key = s.key := rfl
@[simp] theorem State.modDp_tim (f : Dp → Dp) : (s.modDp f).tim = s.tim := rfl
@[simp] theorem State.modDp_twin (f : Dp → Dp) : (s.modDp f).twin = s.twin := rfl
@[simp] theorem State.modDp_mbx (f : Dp → Dp) : (s.modDp f).mbx = s.mbx := rfl
@[simp] theorem State.modDp_cps (f : Dp → Dp) : (s.modDp f).cps = s.cps := rfl
@[simp] theorem State.modDp_bus (f : Dp → Dp) : (s.modDp f).bus = s.bus := rfl
@[simp] theorem State.modDp_mem (f : Dp → Dp) : (s.modDp f).mem = s.mem := rfl
@[simp] theorem State.modDp_pwr (f : Dp → Dp) : (s.modDp f).pwr = s.pwr := rfl
@[simp] theorem State.modDp_perf (f : Dp → Dp) : (s.modDp f).perf = s.perf := rfl
@[simp] theorem State.modDp_pert (f : Dp → Dp) : (s.modDp f).pert = s.pert := rfl
@[simp] theorem State.modDp_drawn (f : Dp → Dp) : (s.modDp f).drawn = s.drawn := rfl
@[simp] theorem State.modDp_pending (f : Dp → Dp) : (s.modDp f).pending = s.pending := rfl

@[simp] theorem State.modEng_rst (f : Eng → Eng) : (s.modEng f).rst = s.rst := rfl
@[simp] theorem State.modEng_glb (f : Eng → Eng) : (s.modEng f).glb = s.glb := rfl
@[simp] theorem State.modEng_lanes (f : Eng → Eng) : (s.modEng f).lanes = s.lanes := rfl
@[simp] theorem State.modEng_grps (f : Eng → Eng) : (s.modEng f).grps = s.grps := rfl
@[simp] theorem State.modEng_sch (f : Eng → Eng) : (s.modEng f).sch = s.sch := rfl
@[simp] theorem State.modEng_pnd (f : Eng → Eng) : (s.modEng f).pnd = s.pnd := rfl
@[simp] theorem State.modEng_dp (f : Eng → Eng) : (s.modEng f).dp = s.dp := rfl
@[simp] theorem State.modEng_eng (f : Eng → Eng) : (s.modEng f).eng = f s.eng := rfl
@[simp] theorem State.modEng_prot (f : Eng → Eng) : (s.modEng f).prot = s.prot := rfl
@[simp] theorem State.modEng_key (f : Eng → Eng) : (s.modEng f).key = s.key := rfl
@[simp] theorem State.modEng_tim (f : Eng → Eng) : (s.modEng f).tim = s.tim := rfl
@[simp] theorem State.modEng_twin (f : Eng → Eng) : (s.modEng f).twin = s.twin := rfl
@[simp] theorem State.modEng_mbx (f : Eng → Eng) : (s.modEng f).mbx = s.mbx := rfl
@[simp] theorem State.modEng_cps (f : Eng → Eng) : (s.modEng f).cps = s.cps := rfl
@[simp] theorem State.modEng_bus (f : Eng → Eng) : (s.modEng f).bus = s.bus := rfl
@[simp] theorem State.modEng_mem (f : Eng → Eng) : (s.modEng f).mem = s.mem := rfl
@[simp] theorem State.modEng_pwr (f : Eng → Eng) : (s.modEng f).pwr = s.pwr := rfl
@[simp] theorem State.modEng_perf (f : Eng → Eng) : (s.modEng f).perf = s.perf := rfl
@[simp] theorem State.modEng_pert (f : Eng → Eng) : (s.modEng f).pert = s.pert := rfl
@[simp] theorem State.modEng_drawn (f : Eng → Eng) : (s.modEng f).drawn = s.drawn := rfl
@[simp] theorem State.modEng_pending (f : Eng → Eng) : (s.modEng f).pending = s.pending := rfl

@[simp] theorem State.modKey_rst (f : Key → Key) : (s.modKey f).rst = s.rst := rfl
@[simp] theorem State.modKey_glb (f : Key → Key) : (s.modKey f).glb = s.glb := rfl
@[simp] theorem State.modKey_lanes (f : Key → Key) : (s.modKey f).lanes = s.lanes := rfl
@[simp] theorem State.modKey_grps (f : Key → Key) : (s.modKey f).grps = s.grps := rfl
@[simp] theorem State.modKey_sch (f : Key → Key) : (s.modKey f).sch = s.sch := rfl
@[simp] theorem State.modKey_pnd (f : Key → Key) : (s.modKey f).pnd = s.pnd := rfl
@[simp] theorem State.modKey_dp (f : Key → Key) : (s.modKey f).dp = s.dp := rfl
@[simp] theorem State.modKey_eng (f : Key → Key) : (s.modKey f).eng = s.eng := rfl
@[simp] theorem State.modKey_prot (f : Key → Key) : (s.modKey f).prot = s.prot := rfl
@[simp] theorem State.modKey_key (f : Key → Key) : (s.modKey f).key = f s.key := rfl
@[simp] theorem State.modKey_tim (f : Key → Key) : (s.modKey f).tim = s.tim := rfl
@[simp] theorem State.modKey_twin (f : Key → Key) : (s.modKey f).twin = s.twin := rfl
@[simp] theorem State.modKey_mbx (f : Key → Key) : (s.modKey f).mbx = s.mbx := rfl
@[simp] theorem State.modKey_cps (f : Key → Key) : (s.modKey f).cps = s.cps := rfl
@[simp] theorem State.modKey_bus (f : Key → Key) : (s.modKey f).bus = s.bus := rfl
@[simp] theorem State.modKey_mem (f : Key → Key) : (s.modKey f).mem = s.mem := rfl
@[simp] theorem State.modKey_pwr (f : Key → Key) : (s.modKey f).pwr = s.pwr := rfl
@[simp] theorem State.modKey_perf (f : Key → Key) : (s.modKey f).perf = s.perf := rfl
@[simp] theorem State.modKey_pert (f : Key → Key) : (s.modKey f).pert = s.pert := rfl
@[simp] theorem State.modKey_drawn (f : Key → Key) : (s.modKey f).drawn = s.drawn := rfl
@[simp] theorem State.modKey_pending (f : Key → Key) : (s.modKey f).pending = s.pending := rfl

@[simp] theorem State.modTim_rst (f : Tim → Tim) : (s.modTim f).rst = s.rst := rfl
@[simp] theorem State.modTim_glb (f : Tim → Tim) : (s.modTim f).glb = s.glb := rfl
@[simp] theorem State.modTim_lanes (f : Tim → Tim) : (s.modTim f).lanes = s.lanes := rfl
@[simp] theorem State.modTim_grps (f : Tim → Tim) : (s.modTim f).grps = s.grps := rfl
@[simp] theorem State.modTim_sch (f : Tim → Tim) : (s.modTim f).sch = s.sch := rfl
@[simp] theorem State.modTim_pnd (f : Tim → Tim) : (s.modTim f).pnd = s.pnd := rfl
@[simp] theorem State.modTim_dp (f : Tim → Tim) : (s.modTim f).dp = s.dp := rfl
@[simp] theorem State.modTim_eng (f : Tim → Tim) : (s.modTim f).eng = s.eng := rfl
@[simp] theorem State.modTim_prot (f : Tim → Tim) : (s.modTim f).prot = s.prot := rfl
@[simp] theorem State.modTim_key (f : Tim → Tim) : (s.modTim f).key = s.key := rfl
@[simp] theorem State.modTim_tim (f : Tim → Tim) : (s.modTim f).tim = f s.tim := rfl
@[simp] theorem State.modTim_twin (f : Tim → Tim) : (s.modTim f).twin = s.twin := rfl
@[simp] theorem State.modTim_mbx (f : Tim → Tim) : (s.modTim f).mbx = s.mbx := rfl
@[simp] theorem State.modTim_cps (f : Tim → Tim) : (s.modTim f).cps = s.cps := rfl
@[simp] theorem State.modTim_bus (f : Tim → Tim) : (s.modTim f).bus = s.bus := rfl
@[simp] theorem State.modTim_mem (f : Tim → Tim) : (s.modTim f).mem = s.mem := rfl
@[simp] theorem State.modTim_pwr (f : Tim → Tim) : (s.modTim f).pwr = s.pwr := rfl
@[simp] theorem State.modTim_perf (f : Tim → Tim) : (s.modTim f).perf = s.perf := rfl
@[simp] theorem State.modTim_pert (f : Tim → Tim) : (s.modTim f).pert = s.pert := rfl
@[simp] theorem State.modTim_drawn (f : Tim → Tim) : (s.modTim f).drawn = s.drawn := rfl
@[simp] theorem State.modTim_pending (f : Tim → Tim) : (s.modTim f).pending = s.pending := rfl

@[simp] theorem State.modTwin_rst (f : Twin → Twin) : (s.modTwin f).rst = s.rst := rfl
@[simp] theorem State.modTwin_glb (f : Twin → Twin) : (s.modTwin f).glb = s.glb := rfl
@[simp] theorem State.modTwin_lanes (f : Twin → Twin) : (s.modTwin f).lanes = s.lanes := rfl
@[simp] theorem State.modTwin_grps (f : Twin → Twin) : (s.modTwin f).grps = s.grps := rfl
@[simp] theorem State.modTwin_sch (f : Twin → Twin) : (s.modTwin f).sch = s.sch := rfl
@[simp] theorem State.modTwin_pnd (f : Twin → Twin) : (s.modTwin f).pnd = s.pnd := rfl
@[simp] theorem State.modTwin_dp (f : Twin → Twin) : (s.modTwin f).dp = s.dp := rfl
@[simp] theorem State.modTwin_eng (f : Twin → Twin) : (s.modTwin f).eng = s.eng := rfl
@[simp] theorem State.modTwin_prot (f : Twin → Twin) : (s.modTwin f).prot = s.prot := rfl
@[simp] theorem State.modTwin_key (f : Twin → Twin) : (s.modTwin f).key = s.key := rfl
@[simp] theorem State.modTwin_tim (f : Twin → Twin) : (s.modTwin f).tim = s.tim := rfl
@[simp] theorem State.modTwin_twin (f : Twin → Twin) : (s.modTwin f).twin = f s.twin := rfl
@[simp] theorem State.modTwin_mbx (f : Twin → Twin) : (s.modTwin f).mbx = s.mbx := rfl
@[simp] theorem State.modTwin_cps (f : Twin → Twin) : (s.modTwin f).cps = s.cps := rfl
@[simp] theorem State.modTwin_bus (f : Twin → Twin) : (s.modTwin f).bus = s.bus := rfl
@[simp] theorem State.modTwin_mem (f : Twin → Twin) : (s.modTwin f).mem = s.mem := rfl
@[simp] theorem State.modTwin_pwr (f : Twin → Twin) : (s.modTwin f).pwr = s.pwr := rfl
@[simp] theorem State.modTwin_perf (f : Twin → Twin) : (s.modTwin f).perf = s.perf := rfl
@[simp] theorem State.modTwin_pert (f : Twin → Twin) : (s.modTwin f).pert = s.pert := rfl
@[simp] theorem State.modTwin_drawn (f : Twin → Twin) : (s.modTwin f).drawn = s.drawn := rfl
@[simp] theorem State.modTwin_pending (f : Twin → Twin) : (s.modTwin f).pending = s.pending := rfl

@[simp] theorem State.modMbx_rst (f : Mbx → Mbx) : (s.modMbx f).rst = s.rst := rfl
@[simp] theorem State.modMbx_glb (f : Mbx → Mbx) : (s.modMbx f).glb = s.glb := rfl
@[simp] theorem State.modMbx_lanes (f : Mbx → Mbx) : (s.modMbx f).lanes = s.lanes := rfl
@[simp] theorem State.modMbx_grps (f : Mbx → Mbx) : (s.modMbx f).grps = s.grps := rfl
@[simp] theorem State.modMbx_sch (f : Mbx → Mbx) : (s.modMbx f).sch = s.sch := rfl
@[simp] theorem State.modMbx_pnd (f : Mbx → Mbx) : (s.modMbx f).pnd = s.pnd := rfl
@[simp] theorem State.modMbx_dp (f : Mbx → Mbx) : (s.modMbx f).dp = s.dp := rfl
@[simp] theorem State.modMbx_eng (f : Mbx → Mbx) : (s.modMbx f).eng = s.eng := rfl
@[simp] theorem State.modMbx_prot (f : Mbx → Mbx) : (s.modMbx f).prot = s.prot := rfl
@[simp] theorem State.modMbx_key (f : Mbx → Mbx) : (s.modMbx f).key = s.key := rfl
@[simp] theorem State.modMbx_tim (f : Mbx → Mbx) : (s.modMbx f).tim = s.tim := rfl
@[simp] theorem State.modMbx_twin (f : Mbx → Mbx) : (s.modMbx f).twin = s.twin := rfl
@[simp] theorem State.modMbx_mbx (f : Mbx → Mbx) : (s.modMbx f).mbx = f s.mbx := rfl
@[simp] theorem State.modMbx_cps (f : Mbx → Mbx) : (s.modMbx f).cps = s.cps := rfl
@[simp] theorem State.modMbx_bus (f : Mbx → Mbx) : (s.modMbx f).bus = s.bus := rfl
@[simp] theorem State.modMbx_mem (f : Mbx → Mbx) : (s.modMbx f).mem = s.mem := rfl
@[simp] theorem State.modMbx_pwr (f : Mbx → Mbx) : (s.modMbx f).pwr = s.pwr := rfl
@[simp] theorem State.modMbx_perf (f : Mbx → Mbx) : (s.modMbx f).perf = s.perf := rfl
@[simp] theorem State.modMbx_pert (f : Mbx → Mbx) : (s.modMbx f).pert = s.pert := rfl
@[simp] theorem State.modMbx_drawn (f : Mbx → Mbx) : (s.modMbx f).drawn = s.drawn := rfl
@[simp] theorem State.modMbx_pending (f : Mbx → Mbx) : (s.modMbx f).pending = s.pending := rfl

@[simp] theorem State.modCps_rst (f : Cps → Cps) : (s.modCps f).rst = s.rst := rfl
@[simp] theorem State.modCps_glb (f : Cps → Cps) : (s.modCps f).glb = s.glb := rfl
@[simp] theorem State.modCps_lanes (f : Cps → Cps) : (s.modCps f).lanes = s.lanes := rfl
@[simp] theorem State.modCps_grps (f : Cps → Cps) : (s.modCps f).grps = s.grps := rfl
@[simp] theorem State.modCps_sch (f : Cps → Cps) : (s.modCps f).sch = s.sch := rfl
@[simp] theorem State.modCps_pnd (f : Cps → Cps) : (s.modCps f).pnd = s.pnd := rfl
@[simp] theorem State.modCps_dp (f : Cps → Cps) : (s.modCps f).dp = s.dp := rfl
@[simp] theorem State.modCps_eng (f : Cps → Cps) : (s.modCps f).eng = s.eng := rfl
@[simp] theorem State.modCps_prot (f : Cps → Cps) : (s.modCps f).prot = s.prot := rfl
@[simp] theorem State.modCps_key (f : Cps → Cps) : (s.modCps f).key = s.key := rfl
@[simp] theorem State.modCps_tim (f : Cps → Cps) : (s.modCps f).tim = s.tim := rfl
@[simp] theorem State.modCps_twin (f : Cps → Cps) : (s.modCps f).twin = s.twin := rfl
@[simp] theorem State.modCps_mbx (f : Cps → Cps) : (s.modCps f).mbx = s.mbx := rfl
@[simp] theorem State.modCps_cps (f : Cps → Cps) : (s.modCps f).cps = f s.cps := rfl
@[simp] theorem State.modCps_bus (f : Cps → Cps) : (s.modCps f).bus = s.bus := rfl
@[simp] theorem State.modCps_mem (f : Cps → Cps) : (s.modCps f).mem = s.mem := rfl
@[simp] theorem State.modCps_pwr (f : Cps → Cps) : (s.modCps f).pwr = s.pwr := rfl
@[simp] theorem State.modCps_perf (f : Cps → Cps) : (s.modCps f).perf = s.perf := rfl
@[simp] theorem State.modCps_pert (f : Cps → Cps) : (s.modCps f).pert = s.pert := rfl
@[simp] theorem State.modCps_drawn (f : Cps → Cps) : (s.modCps f).drawn = s.drawn := rfl
@[simp] theorem State.modCps_pending (f : Cps → Cps) : (s.modCps f).pending = s.pending := rfl

@[simp] theorem State.modBus_rst (f : Bus → Bus) : (s.modBus f).rst = s.rst := rfl
@[simp] theorem State.modBus_glb (f : Bus → Bus) : (s.modBus f).glb = s.glb := rfl
@[simp] theorem State.modBus_lanes (f : Bus → Bus) : (s.modBus f).lanes = s.lanes := rfl
@[simp] theorem State.modBus_grps (f : Bus → Bus) : (s.modBus f).grps = s.grps := rfl
@[simp] theorem State.modBus_sch (f : Bus → Bus) : (s.modBus f).sch = s.sch := rfl
@[simp] theorem State.modBus_pnd (f : Bus → Bus) : (s.modBus f).pnd = s.pnd := rfl
@[simp] theorem State.modBus_dp (f : Bus → Bus) : (s.modBus f).dp = s.dp := rfl
@[simp] theorem State.modBus_eng (f : Bus → Bus) : (s.modBus f).eng = s.eng := rfl
@[simp] theorem State.modBus_prot (f : Bus → Bus) : (s.modBus f).prot = s.prot := rfl
@[simp] theorem State.modBus_key (f : Bus → Bus) : (s.modBus f).key = s.key := rfl
@[simp] theorem State.modBus_tim (f : Bus → Bus) : (s.modBus f).tim = s.tim := rfl
@[simp] theorem State.modBus_twin (f : Bus → Bus) : (s.modBus f).twin = s.twin := rfl
@[simp] theorem State.modBus_mbx (f : Bus → Bus) : (s.modBus f).mbx = s.mbx := rfl
@[simp] theorem State.modBus_cps (f : Bus → Bus) : (s.modBus f).cps = s.cps := rfl
@[simp] theorem State.modBus_bus (f : Bus → Bus) : (s.modBus f).bus = f s.bus := rfl
@[simp] theorem State.modBus_mem (f : Bus → Bus) : (s.modBus f).mem = s.mem := rfl
@[simp] theorem State.modBus_pwr (f : Bus → Bus) : (s.modBus f).pwr = s.pwr := rfl
@[simp] theorem State.modBus_perf (f : Bus → Bus) : (s.modBus f).perf = s.perf := rfl
@[simp] theorem State.modBus_pert (f : Bus → Bus) : (s.modBus f).pert = s.pert := rfl
@[simp] theorem State.modBus_drawn (f : Bus → Bus) : (s.modBus f).drawn = s.drawn := rfl
@[simp] theorem State.modBus_pending (f : Bus → Bus) : (s.modBus f).pending = s.pending := rfl

@[simp] theorem State.modMem_rst (f : Mem → Mem) : (s.modMem f).rst = s.rst := rfl
@[simp] theorem State.modMem_glb (f : Mem → Mem) : (s.modMem f).glb = s.glb := rfl
@[simp] theorem State.modMem_lanes (f : Mem → Mem) : (s.modMem f).lanes = s.lanes := rfl
@[simp] theorem State.modMem_grps (f : Mem → Mem) : (s.modMem f).grps = s.grps := rfl
@[simp] theorem State.modMem_sch (f : Mem → Mem) : (s.modMem f).sch = s.sch := rfl
@[simp] theorem State.modMem_pnd (f : Mem → Mem) : (s.modMem f).pnd = s.pnd := rfl
@[simp] theorem State.modMem_dp (f : Mem → Mem) : (s.modMem f).dp = s.dp := rfl
@[simp] theorem State.modMem_eng (f : Mem → Mem) : (s.modMem f).eng = s.eng := rfl
@[simp] theorem State.modMem_prot (f : Mem → Mem) : (s.modMem f).prot = s.prot := rfl
@[simp] theorem State.modMem_key (f : Mem → Mem) : (s.modMem f).key = s.key := rfl
@[simp] theorem State.modMem_tim (f : Mem → Mem) : (s.modMem f).tim = s.tim := rfl
@[simp] theorem State.modMem_twin (f : Mem → Mem) : (s.modMem f).twin = s.twin := rfl
@[simp] theorem State.modMem_mbx (f : Mem → Mem) : (s.modMem f).mbx = s.mbx := rfl
@[simp] theorem State.modMem_cps (f : Mem → Mem) : (s.modMem f).cps = s.cps := rfl
@[simp] theorem State.modMem_bus (f : Mem → Mem) : (s.modMem f).bus = s.bus := rfl
@[simp] theorem State.modMem_mem (f : Mem → Mem) : (s.modMem f).mem = f s.mem := rfl
@[simp] theorem State.modMem_pwr (f : Mem → Mem) : (s.modMem f).pwr = s.pwr := rfl
@[simp] theorem State.modMem_perf (f : Mem → Mem) : (s.modMem f).perf = s.perf := rfl
@[simp] theorem State.modMem_pert (f : Mem → Mem) : (s.modMem f).pert = s.pert := rfl
@[simp] theorem State.modMem_drawn (f : Mem → Mem) : (s.modMem f).drawn = s.drawn := rfl
@[simp] theorem State.modMem_pending (f : Mem → Mem) : (s.modMem f).pending = s.pending := rfl

@[simp] theorem State.modPwr_rst (f : Pwr → Pwr) : (s.modPwr f).rst = s.rst := rfl
@[simp] theorem State.modPwr_glb (f : Pwr → Pwr) : (s.modPwr f).glb = s.glb := rfl
@[simp] theorem State.modPwr_lanes (f : Pwr → Pwr) : (s.modPwr f).lanes = s.lanes := rfl
@[simp] theorem State.modPwr_grps (f : Pwr → Pwr) : (s.modPwr f).grps = s.grps := rfl
@[simp] theorem State.modPwr_sch (f : Pwr → Pwr) : (s.modPwr f).sch = s.sch := rfl
@[simp] theorem State.modPwr_pnd (f : Pwr → Pwr) : (s.modPwr f).pnd = s.pnd := rfl
@[simp] theorem State.modPwr_dp (f : Pwr → Pwr) : (s.modPwr f).dp = s.dp := rfl
@[simp] theorem State.modPwr_eng (f : Pwr → Pwr) : (s.modPwr f).eng = s.eng := rfl
@[simp] theorem State.modPwr_prot (f : Pwr → Pwr) : (s.modPwr f).prot = s.prot := rfl
@[simp] theorem State.modPwr_key (f : Pwr → Pwr) : (s.modPwr f).key = s.key := rfl
@[simp] theorem State.modPwr_tim (f : Pwr → Pwr) : (s.modPwr f).tim = s.tim := rfl
@[simp] theorem State.modPwr_twin (f : Pwr → Pwr) : (s.modPwr f).twin = s.twin := rfl
@[simp] theorem State.modPwr_mbx (f : Pwr → Pwr) : (s.modPwr f).mbx = s.mbx := rfl
@[simp] theorem State.modPwr_cps (f : Pwr → Pwr) : (s.modPwr f).cps = s.cps := rfl
@[simp] theorem State.modPwr_bus (f : Pwr → Pwr) : (s.modPwr f).bus = s.bus := rfl
@[simp] theorem State.modPwr_mem (f : Pwr → Pwr) : (s.modPwr f).mem = s.mem := rfl
@[simp] theorem State.modPwr_pwr (f : Pwr → Pwr) : (s.modPwr f).pwr = f s.pwr := rfl
@[simp] theorem State.modPwr_perf (f : Pwr → Pwr) : (s.modPwr f).perf = s.perf := rfl
@[simp] theorem State.modPwr_pert (f : Pwr → Pwr) : (s.modPwr f).pert = s.pert := rfl
@[simp] theorem State.modPwr_drawn (f : Pwr → Pwr) : (s.modPwr f).drawn = s.drawn := rfl
@[simp] theorem State.modPwr_pending (f : Pwr → Pwr) : (s.modPwr f).pending = s.pending := rfl

@[simp] theorem State.modPerf_rst (f : Perf → Perf) : (s.modPerf f).rst = s.rst := rfl
@[simp] theorem State.modPerf_glb (f : Perf → Perf) : (s.modPerf f).glb = s.glb := rfl
@[simp] theorem State.modPerf_lanes (f : Perf → Perf) : (s.modPerf f).lanes = s.lanes := rfl
@[simp] theorem State.modPerf_grps (f : Perf → Perf) : (s.modPerf f).grps = s.grps := rfl
@[simp] theorem State.modPerf_sch (f : Perf → Perf) : (s.modPerf f).sch = s.sch := rfl
@[simp] theorem State.modPerf_pnd (f : Perf → Perf) : (s.modPerf f).pnd = s.pnd := rfl
@[simp] theorem State.modPerf_dp (f : Perf → Perf) : (s.modPerf f).dp = s.dp := rfl
@[simp] theorem State.modPerf_eng (f : Perf → Perf) : (s.modPerf f).eng = s.eng := rfl
@[simp] theorem State.modPerf_prot (f : Perf → Perf) : (s.modPerf f).prot = s.prot := rfl
@[simp] theorem State.modPerf_key (f : Perf → Perf) : (s.modPerf f).key = s.key := rfl
@[simp] theorem State.modPerf_tim (f : Perf → Perf) : (s.modPerf f).tim = s.tim := rfl
@[simp] theorem State.modPerf_twin (f : Perf → Perf) : (s.modPerf f).twin = s.twin := rfl
@[simp] theorem State.modPerf_mbx (f : Perf → Perf) : (s.modPerf f).mbx = s.mbx := rfl
@[simp] theorem State.modPerf_cps (f : Perf → Perf) : (s.modPerf f).cps = s.cps := rfl
@[simp] theorem State.modPerf_bus (f : Perf → Perf) : (s.modPerf f).bus = s.bus := rfl
@[simp] theorem State.modPerf_mem (f : Perf → Perf) : (s.modPerf f).mem = s.mem := rfl
@[simp] theorem State.modPerf_pwr (f : Perf → Perf) : (s.modPerf f).pwr = s.pwr := rfl
@[simp] theorem State.modPerf_perf (f : Perf → Perf) : (s.modPerf f).perf = f s.perf := rfl
@[simp] theorem State.modPerf_pert (f : Perf → Perf) : (s.modPerf f).pert = s.pert := rfl
@[simp] theorem State.modPerf_drawn (f : Perf → Perf) : (s.modPerf f).drawn = s.drawn := rfl
@[simp] theorem State.modPerf_pending (f : Perf → Perf) : (s.modPerf f).pending = s.pending := rfl

@[simp] theorem State.modPert_rst (f : Pert → Pert) : (s.modPert f).rst = s.rst := rfl
@[simp] theorem State.modPert_glb (f : Pert → Pert) : (s.modPert f).glb = s.glb := rfl
@[simp] theorem State.modPert_lanes (f : Pert → Pert) : (s.modPert f).lanes = s.lanes := rfl
@[simp] theorem State.modPert_grps (f : Pert → Pert) : (s.modPert f).grps = s.grps := rfl
@[simp] theorem State.modPert_sch (f : Pert → Pert) : (s.modPert f).sch = s.sch := rfl
@[simp] theorem State.modPert_pnd (f : Pert → Pert) : (s.modPert f).pnd = s.pnd := rfl
@[simp] theorem State.modPert_dp (f : Pert → Pert) : (s.modPert f).dp = s.dp := rfl
@[simp] theorem State.modPert_eng (f : Pert → Pert) : (s.modPert f).eng = s.eng := rfl
@[simp] theorem State.modPert_prot (f : Pert → Pert) : (s.modPert f).prot = s.prot := rfl
@[simp] theorem State.modPert_key (f : Pert → Pert) : (s.modPert f).key = s.key := rfl
@[simp] theorem State.modPert_tim (f : Pert → Pert) : (s.modPert f).tim = s.tim := rfl
@[simp] theorem State.modPert_twin (f : Pert → Pert) : (s.modPert f).twin = s.twin := rfl
@[simp] theorem State.modPert_mbx (f : Pert → Pert) : (s.modPert f).mbx = s.mbx := rfl
@[simp] theorem State.modPert_cps (f : Pert → Pert) : (s.modPert f).cps = s.cps := rfl
@[simp] theorem State.modPert_bus (f : Pert → Pert) : (s.modPert f).bus = s.bus := rfl
@[simp] theorem State.modPert_mem (f : Pert → Pert) : (s.modPert f).mem = s.mem := rfl
@[simp] theorem State.modPert_pwr (f : Pert → Pert) : (s.modPert f).pwr = s.pwr := rfl
@[simp] theorem State.modPert_perf (f : Pert → Pert) : (s.modPert f).perf = s.perf := rfl
@[simp] theorem State.modPert_pert (f : Pert → Pert) : (s.modPert f).pert = f s.pert := rfl
@[simp] theorem State.modPert_drawn (f : Pert → Pert) : (s.modPert f).drawn = s.drawn := rfl
@[simp] theorem State.modPert_pending (f : Pert → Pert) : (s.modPert f).pending = s.pending := rfl

/-! ### A lane -/

@[simp] theorem State.modLane_rst (n : Nat) (f : Lane → Lane) : (s.modLane n f).rst = s.rst := rfl
@[simp] theorem State.modLane_glb (n : Nat) (f : Lane → Lane) : (s.modLane n f).glb = s.glb := rfl
@[simp] theorem State.modLane_lanes (n : Nat) (f : Lane → Lane) : (s.modLane n f).lanes = tmod {} s.lanes n f := rfl
@[simp] theorem State.modLane_grps (n : Nat) (f : Lane → Lane) : (s.modLane n f).grps = s.grps := rfl
@[simp] theorem State.modLane_sch (n : Nat) (f : Lane → Lane) : (s.modLane n f).sch = s.sch := rfl
@[simp] theorem State.modLane_pnd (n : Nat) (f : Lane → Lane) : (s.modLane n f).pnd = s.pnd := rfl
@[simp] theorem State.modLane_dp (n : Nat) (f : Lane → Lane) : (s.modLane n f).dp = s.dp := rfl
@[simp] theorem State.modLane_eng (n : Nat) (f : Lane → Lane) : (s.modLane n f).eng = s.eng := rfl
@[simp] theorem State.modLane_prot (n : Nat) (f : Lane → Lane) : (s.modLane n f).prot = s.prot := rfl
@[simp] theorem State.modLane_key (n : Nat) (f : Lane → Lane) : (s.modLane n f).key = s.key := rfl
@[simp] theorem State.modLane_tim (n : Nat) (f : Lane → Lane) : (s.modLane n f).tim = s.tim := rfl
@[simp] theorem State.modLane_twin (n : Nat) (f : Lane → Lane) : (s.modLane n f).twin = s.twin := rfl
@[simp] theorem State.modLane_mbx (n : Nat) (f : Lane → Lane) : (s.modLane n f).mbx = s.mbx := rfl
@[simp] theorem State.modLane_cps (n : Nat) (f : Lane → Lane) : (s.modLane n f).cps = s.cps := rfl
@[simp] theorem State.modLane_bus (n : Nat) (f : Lane → Lane) : (s.modLane n f).bus = s.bus := rfl
@[simp] theorem State.modLane_mem (n : Nat) (f : Lane → Lane) : (s.modLane n f).mem = s.mem := rfl
@[simp] theorem State.modLane_pwr (n : Nat) (f : Lane → Lane) : (s.modLane n f).pwr = s.pwr := rfl
@[simp] theorem State.modLane_perf (n : Nat) (f : Lane → Lane) : (s.modLane n f).perf = s.perf := rfl
@[simp] theorem State.modLane_pert (n : Nat) (f : Lane → Lane) : (s.modLane n f).pert = s.pert := rfl
@[simp] theorem State.modLane_drawn (n : Nat) (f : Lane → Lane) : (s.modLane n f).drawn = s.drawn := rfl
@[simp] theorem State.modLane_pending (n : Nat) (f : Lane → Lane) : (s.modLane n f).pending = s.pending := rfl

/-! ### A group -/

@[simp] theorem State.modGrp_rst (g : Nat) (f : Grp → Grp) : (s.modGrp g f).rst = s.rst := rfl
@[simp] theorem State.modGrp_glb (g : Nat) (f : Grp → Grp) : (s.modGrp g f).glb = s.glb := rfl
@[simp] theorem State.modGrp_lanes (g : Nat) (f : Grp → Grp) : (s.modGrp g f).lanes = s.lanes := rfl
@[simp] theorem State.modGrp_grps (g : Nat) (f : Grp → Grp) : (s.modGrp g f).grps = tupd s.grps g f := rfl
@[simp] theorem State.modGrp_sch (g : Nat) (f : Grp → Grp) : (s.modGrp g f).sch = s.sch := rfl
@[simp] theorem State.modGrp_pnd (g : Nat) (f : Grp → Grp) : (s.modGrp g f).pnd = s.pnd := rfl
@[simp] theorem State.modGrp_dp (g : Nat) (f : Grp → Grp) : (s.modGrp g f).dp = s.dp := rfl
@[simp] theorem State.modGrp_eng (g : Nat) (f : Grp → Grp) : (s.modGrp g f).eng = s.eng := rfl
@[simp] theorem State.modGrp_prot (g : Nat) (f : Grp → Grp) : (s.modGrp g f).prot = s.prot := rfl
@[simp] theorem State.modGrp_key (g : Nat) (f : Grp → Grp) : (s.modGrp g f).key = s.key := rfl
@[simp] theorem State.modGrp_tim (g : Nat) (f : Grp → Grp) : (s.modGrp g f).tim = s.tim := rfl
@[simp] theorem State.modGrp_twin (g : Nat) (f : Grp → Grp) : (s.modGrp g f).twin = s.twin := rfl
@[simp] theorem State.modGrp_mbx (g : Nat) (f : Grp → Grp) : (s.modGrp g f).mbx = s.mbx := rfl
@[simp] theorem State.modGrp_cps (g : Nat) (f : Grp → Grp) : (s.modGrp g f).cps = s.cps := rfl
@[simp] theorem State.modGrp_bus (g : Nat) (f : Grp → Grp) : (s.modGrp g f).bus = s.bus := rfl
@[simp] theorem State.modGrp_mem (g : Nat) (f : Grp → Grp) : (s.modGrp g f).mem = s.mem := rfl
@[simp] theorem State.modGrp_pwr (g : Nat) (f : Grp → Grp) : (s.modGrp g f).pwr = s.pwr := rfl
@[simp] theorem State.modGrp_perf (g : Nat) (f : Grp → Grp) : (s.modGrp g f).perf = s.perf := rfl
@[simp] theorem State.modGrp_pert (g : Nat) (f : Grp → Grp) : (s.modGrp g f).pert = s.pert := rfl
@[simp] theorem State.modGrp_drawn (g : Nat) (f : Grp → Grp) : (s.modGrp g f).drawn = s.drawn := rfl
@[simp] theorem State.modGrp_pending (g : Nat) (f : Grp → Grp) : (s.modGrp g f).pending = s.pending := rfl

/-! ### A pond -/

@[simp] theorem State.modPond_rst (n : Nat) (f : Pond → Pond) : (s.modPond n f).rst = s.rst := rfl
@[simp] theorem State.modPond_glb (n : Nat) (f : Pond → Pond) : (s.modPond n f).glb = s.glb := rfl
@[simp] theorem State.modPond_lanes (n : Nat) (f : Pond → Pond) : (s.modPond n f).lanes = s.lanes := rfl
@[simp] theorem State.modPond_grps (n : Nat) (f : Pond → Pond) : (s.modPond n f).grps = s.grps := rfl
@[simp] theorem State.modPond_sch (n : Nat) (f : Pond → Pond) : (s.modPond n f).sch = s.sch := rfl
@[simp] theorem State.modPond_pnd (n : Nat) (f : Pond → Pond) : (s.modPond n f).pnd = s.pnd.modPond n f := rfl
@[simp] theorem State.modPond_dp (n : Nat) (f : Pond → Pond) : (s.modPond n f).dp = s.dp := rfl
@[simp] theorem State.modPond_eng (n : Nat) (f : Pond → Pond) : (s.modPond n f).eng = s.eng := rfl
@[simp] theorem State.modPond_prot (n : Nat) (f : Pond → Pond) : (s.modPond n f).prot = s.prot := rfl
@[simp] theorem State.modPond_key (n : Nat) (f : Pond → Pond) : (s.modPond n f).key = s.key := rfl
@[simp] theorem State.modPond_tim (n : Nat) (f : Pond → Pond) : (s.modPond n f).tim = s.tim := rfl
@[simp] theorem State.modPond_twin (n : Nat) (f : Pond → Pond) : (s.modPond n f).twin = s.twin := rfl
@[simp] theorem State.modPond_mbx (n : Nat) (f : Pond → Pond) : (s.modPond n f).mbx = s.mbx := rfl
@[simp] theorem State.modPond_cps (n : Nat) (f : Pond → Pond) : (s.modPond n f).cps = s.cps := rfl
@[simp] theorem State.modPond_bus (n : Nat) (f : Pond → Pond) : (s.modPond n f).bus = s.bus := rfl
@[simp] theorem State.modPond_mem (n : Nat) (f : Pond → Pond) : (s.modPond n f).mem = s.mem := rfl
@[simp] theorem State.modPond_pwr (n : Nat) (f : Pond → Pond) : (s.modPond n f).pwr = s.pwr := rfl
@[simp] theorem State.modPond_perf (n : Nat) (f : Pond → Pond) : (s.modPond n f).perf = s.perf := rfl
@[simp] theorem State.modPond_pert (n : Nat) (f : Pond → Pond) : (s.modPond n f).pert = s.pert := rfl
@[simp] theorem State.modPond_drawn (n : Nat) (f : Pond → Pond) : (s.modPond n f).drawn = s.drawn := rfl
@[simp] theorem State.modPond_pending (n : Nat) (f : Pond → Pond) : (s.modPond n f).pending = s.pending := rfl

/-! ### A mailbox -/

@[simp] theorem State.modBox_rst (n : Nat) (f : Mb → Mb) : (s.modBox n f).rst = s.rst := rfl
@[simp] theorem State.modBox_glb (n : Nat) (f : Mb → Mb) : (s.modBox n f).glb = s.glb := rfl
@[simp] theorem State.modBox_lanes (n : Nat) (f : Mb → Mb) : (s.modBox n f).lanes = s.lanes := rfl
@[simp] theorem State.modBox_grps (n : Nat) (f : Mb → Mb) : (s.modBox n f).grps = s.grps := rfl
@[simp] theorem State.modBox_sch (n : Nat) (f : Mb → Mb) : (s.modBox n f).sch = s.sch := rfl
@[simp] theorem State.modBox_pnd (n : Nat) (f : Mb → Mb) : (s.modBox n f).pnd = s.pnd := rfl
@[simp] theorem State.modBox_dp (n : Nat) (f : Mb → Mb) : (s.modBox n f).dp = s.dp := rfl
@[simp] theorem State.modBox_eng (n : Nat) (f : Mb → Mb) : (s.modBox n f).eng = s.eng := rfl
@[simp] theorem State.modBox_prot (n : Nat) (f : Mb → Mb) : (s.modBox n f).prot = s.prot := rfl
@[simp] theorem State.modBox_key (n : Nat) (f : Mb → Mb) : (s.modBox n f).key = s.key := rfl
@[simp] theorem State.modBox_tim (n : Nat) (f : Mb → Mb) : (s.modBox n f).tim = s.tim := rfl
@[simp] theorem State.modBox_twin (n : Nat) (f : Mb → Mb) : (s.modBox n f).twin = s.twin := rfl
@[simp] theorem State.modBox_mbx (n : Nat) (f : Mb → Mb) : (s.modBox n f).mbx = s.mbx.modBox n f := rfl
@[simp] theorem State.modBox_cps (n : Nat) (f : Mb → Mb) : (s.modBox n f).cps = s.cps := rfl
@[simp] theorem State.modBox_bus (n : Nat) (f : Mb → Mb) : (s.modBox n f).bus = s.bus := rfl
@[simp] theorem State.modBox_mem (n : Nat) (f : Mb → Mb) : (s.modBox n f).mem = s.mem := rfl
@[simp] theorem State.modBox_pwr (n : Nat) (f : Mb → Mb) : (s.modBox n f).pwr = s.pwr := rfl
@[simp] theorem State.modBox_perf (n : Nat) (f : Mb → Mb) : (s.modBox n f).perf = s.perf := rfl
@[simp] theorem State.modBox_pert (n : Nat) (f : Mb → Mb) : (s.modBox n f).pert = s.pert := rfl
@[simp] theorem State.modBox_drawn (n : Nat) (f : Mb → Mb) : (s.modBox n f).drawn = s.drawn := rfl
@[simp] theorem State.modBox_pending (n : Nat) (f : Mb → Mb) : (s.modBox n f).pending = s.pending := rfl

/-! ### A sticky bit of the interrupt summary -/

@[simp] theorem State.raise_rst (b : Nat) : (s.raise b).rst = s.rst := rfl
@[simp] theorem State.raise_lanes (b : Nat) : (s.raise b).lanes = s.lanes := rfl
@[simp] theorem State.raise_grps (b : Nat) : (s.raise b).grps = s.grps := rfl
@[simp] theorem State.raise_sch (b : Nat) : (s.raise b).sch = s.sch := rfl
@[simp] theorem State.raise_pnd (b : Nat) : (s.raise b).pnd = s.pnd := rfl
@[simp] theorem State.raise_dp (b : Nat) : (s.raise b).dp = s.dp := rfl
@[simp] theorem State.raise_eng (b : Nat) : (s.raise b).eng = s.eng := rfl
@[simp] theorem State.raise_prot (b : Nat) : (s.raise b).prot = s.prot := rfl
@[simp] theorem State.raise_key (b : Nat) : (s.raise b).key = s.key := rfl
@[simp] theorem State.raise_tim (b : Nat) : (s.raise b).tim = s.tim := rfl
@[simp] theorem State.raise_twin (b : Nat) : (s.raise b).twin = s.twin := rfl
@[simp] theorem State.raise_mbx (b : Nat) : (s.raise b).mbx = s.mbx := rfl
@[simp] theorem State.raise_cps (b : Nat) : (s.raise b).cps = s.cps := rfl
@[simp] theorem State.raise_bus (b : Nat) : (s.raise b).bus = s.bus := rfl
@[simp] theorem State.raise_mem (b : Nat) : (s.raise b).mem = s.mem := rfl
@[simp] theorem State.raise_pwr (b : Nat) : (s.raise b).pwr = s.pwr := rfl
@[simp] theorem State.raise_perf (b : Nat) : (s.raise b).perf = s.perf := rfl
@[simp] theorem State.raise_pert (b : Nat) : (s.raise b).pert = s.pert := rfl
@[simp] theorem State.raise_drawn (b : Nat) : (s.raise b).drawn = s.drawn := rfl
@[simp] theorem State.raise_pending (b : Nat) : (s.raise b).pending = s.pending := rfl

/-! ### An event counter -/

@[simp] theorem State.count_rst (i n : Nat) : (s.count i n).rst = s.rst := rfl
@[simp] theorem State.count_glb (i n : Nat) : (s.count i n).glb = s.glb := rfl
@[simp] theorem State.count_lanes (i n : Nat) : (s.count i n).lanes = s.lanes := rfl
@[simp] theorem State.count_grps (i n : Nat) : (s.count i n).grps = s.grps := rfl
@[simp] theorem State.count_sch (i n : Nat) : (s.count i n).sch = s.sch := rfl
@[simp] theorem State.count_pnd (i n : Nat) : (s.count i n).pnd = s.pnd := rfl
@[simp] theorem State.count_dp (i n : Nat) : (s.count i n).dp = s.dp := rfl
@[simp] theorem State.count_eng (i n : Nat) : (s.count i n).eng = s.eng := rfl
@[simp] theorem State.count_prot (i n : Nat) : (s.count i n).prot = s.prot := rfl
@[simp] theorem State.count_key (i n : Nat) : (s.count i n).key = s.key := rfl
@[simp] theorem State.count_tim (i n : Nat) : (s.count i n).tim = s.tim := rfl
@[simp] theorem State.count_twin (i n : Nat) : (s.count i n).twin = s.twin := rfl
@[simp] theorem State.count_mbx (i n : Nat) : (s.count i n).mbx = s.mbx := rfl
@[simp] theorem State.count_cps (i n : Nat) : (s.count i n).cps = s.cps := rfl
@[simp] theorem State.count_bus (i n : Nat) : (s.count i n).bus = s.bus := rfl
@[simp] theorem State.count_mem (i n : Nat) : (s.count i n).mem = s.mem := rfl
@[simp] theorem State.count_pwr (i n : Nat) : (s.count i n).pwr = s.pwr := rfl
@[simp] theorem State.count_perf (i n : Nat) : (s.count i n).perf = s.perf.count i n := rfl
@[simp] theorem State.count_pert (i n : Nat) : (s.count i n).pert = s.pert := rfl
@[simp] theorem State.count_drawn (i n : Nat) : (s.count i n).drawn = s.drawn := rfl
@[simp] theorem State.count_pending (i n : Nat) : (s.count i n).pending = s.pending := rfl

/-! ### A sticky bit of the reset block -/

@[simp] theorem State.rstSticky_glb (b : Nat) : (s.rstSticky b).glb = s.glb := rfl
@[simp] theorem State.rstSticky_lanes (b : Nat) : (s.rstSticky b).lanes = s.lanes := rfl
@[simp] theorem State.rstSticky_grps (b : Nat) : (s.rstSticky b).grps = s.grps := rfl
@[simp] theorem State.rstSticky_sch (b : Nat) : (s.rstSticky b).sch = s.sch := rfl
@[simp] theorem State.rstSticky_pnd (b : Nat) : (s.rstSticky b).pnd = s.pnd := rfl
@[simp] theorem State.rstSticky_dp (b : Nat) : (s.rstSticky b).dp = s.dp := rfl
@[simp] theorem State.rstSticky_eng (b : Nat) : (s.rstSticky b).eng = s.eng := rfl
@[simp] theorem State.rstSticky_prot (b : Nat) : (s.rstSticky b).prot = s.prot := rfl
@[simp] theorem State.rstSticky_key (b : Nat) : (s.rstSticky b).key = s.key := rfl
@[simp] theorem State.rstSticky_tim (b : Nat) : (s.rstSticky b).tim = s.tim := rfl
@[simp] theorem State.rstSticky_twin (b : Nat) : (s.rstSticky b).twin = s.twin := rfl
@[simp] theorem State.rstSticky_mbx (b : Nat) : (s.rstSticky b).mbx = s.mbx := rfl
@[simp] theorem State.rstSticky_cps (b : Nat) : (s.rstSticky b).cps = s.cps := rfl
@[simp] theorem State.rstSticky_bus (b : Nat) : (s.rstSticky b).bus = s.bus := rfl
@[simp] theorem State.rstSticky_mem (b : Nat) : (s.rstSticky b).mem = s.mem := rfl
@[simp] theorem State.rstSticky_pwr (b : Nat) : (s.rstSticky b).pwr = s.pwr := rfl
@[simp] theorem State.rstSticky_perf (b : Nat) : (s.rstSticky b).perf = s.perf := rfl
@[simp] theorem State.rstSticky_pert (b : Nat) : (s.rstSticky b).pert = s.pert := rfl
@[simp] theorem State.rstSticky_drawn (b : Nat) : (s.rstSticky b).drawn = s.drawn := rfl
@[simp] theorem State.rstSticky_pending (b : Nat) : (s.rstSticky b).pending = s.pending := rfl

/-! ### A record for MB7 -/

@[simp] theorem State.post_rst (r : EvRec) : (s.post r).rst = s.rst := rfl
@[simp] theorem State.post_glb (r : EvRec) : (s.post r).glb = s.glb := rfl
@[simp] theorem State.post_lanes (r : EvRec) : (s.post r).lanes = s.lanes := rfl
@[simp] theorem State.post_grps (r : EvRec) : (s.post r).grps = s.grps := rfl
@[simp] theorem State.post_sch (r : EvRec) : (s.post r).sch = s.sch := rfl
@[simp] theorem State.post_pnd (r : EvRec) : (s.post r).pnd = s.pnd := rfl
@[simp] theorem State.post_dp (r : EvRec) : (s.post r).dp = s.dp := rfl
@[simp] theorem State.post_eng (r : EvRec) : (s.post r).eng = s.eng := rfl
@[simp] theorem State.post_prot (r : EvRec) : (s.post r).prot = s.prot := rfl
@[simp] theorem State.post_key (r : EvRec) : (s.post r).key = s.key := rfl
@[simp] theorem State.post_tim (r : EvRec) : (s.post r).tim = s.tim := rfl
@[simp] theorem State.post_twin (r : EvRec) : (s.post r).twin = s.twin := rfl
@[simp] theorem State.post_cps (r : EvRec) : (s.post r).cps = s.cps := rfl
@[simp] theorem State.post_bus (r : EvRec) : (s.post r).bus = s.bus := rfl
@[simp] theorem State.post_mem (r : EvRec) : (s.post r).mem = s.mem := rfl
@[simp] theorem State.post_pwr (r : EvRec) : (s.post r).pwr = s.pwr := rfl
@[simp] theorem State.post_perf (r : EvRec) : (s.post r).perf = s.perf := rfl
@[simp] theorem State.post_pert (r : EvRec) : (s.post r).pert = s.pert := rfl
@[simp] theorem State.post_drawn (r : EvRec) : (s.post r).drawn = s.drawn := rfl
@[simp] theorem State.post_pending (r : EvRec) : (s.post r).pending = s.pending := rfl

/-! ### An event -/

@[simp] theorem State.event_rst (code b6 : Nat) (c : List Byte) : (s.event code b6 c).rst = s.rst := rfl
@[simp] theorem State.event_glb (code b6 : Nat) (c : List Byte) : (s.event code b6 c).glb = s.glb := rfl
@[simp] theorem State.event_lanes (code b6 : Nat) (c : List Byte) : (s.event code b6 c).lanes = s.lanes := rfl
@[simp] theorem State.event_grps (code b6 : Nat) (c : List Byte) : (s.event code b6 c).grps = s.grps := rfl
@[simp] theorem State.event_sch (code b6 : Nat) (c : List Byte) : (s.event code b6 c).sch = s.sch := rfl
@[simp] theorem State.event_pnd (code b6 : Nat) (c : List Byte) : (s.event code b6 c).pnd = s.pnd := rfl
@[simp] theorem State.event_dp (code b6 : Nat) (c : List Byte) : (s.event code b6 c).dp = s.dp := rfl
@[simp] theorem State.event_eng (code b6 : Nat) (c : List Byte) : (s.event code b6 c).eng = s.eng := rfl
@[simp] theorem State.event_prot (code b6 : Nat) (c : List Byte) : (s.event code b6 c).prot = s.prot := rfl
@[simp] theorem State.event_key (code b6 : Nat) (c : List Byte) : (s.event code b6 c).key = s.key := rfl
@[simp] theorem State.event_tim (code b6 : Nat) (c : List Byte) : (s.event code b6 c).tim = s.tim := rfl
@[simp] theorem State.event_twin (code b6 : Nat) (c : List Byte) : (s.event code b6 c).twin = s.twin := rfl
@[simp] theorem State.event_cps (code b6 : Nat) (c : List Byte) : (s.event code b6 c).cps = s.cps := rfl
@[simp] theorem State.event_bus (code b6 : Nat) (c : List Byte) : (s.event code b6 c).bus = s.bus := rfl
@[simp] theorem State.event_mem (code b6 : Nat) (c : List Byte) : (s.event code b6 c).mem = s.mem := rfl
@[simp] theorem State.event_pwr (code b6 : Nat) (c : List Byte) : (s.event code b6 c).pwr = s.pwr := rfl
@[simp] theorem State.event_perf (code b6 : Nat) (c : List Byte) : (s.event code b6 c).perf = s.perf := rfl
@[simp] theorem State.event_pert (code b6 : Nat) (c : List Byte) : (s.event code b6 c).pert = s.pert := rfl
@[simp] theorem State.event_drawn (code b6 : Nat) (c : List Byte) : (s.event code b6 c).drawn = s.drawn := rfl
@[simp] theorem State.event_pending (code b6 : Nat) (c : List Byte) : (s.event code b6 c).pending = s.pending := rfl

/-! ### A completion -/

@[simp] theorem State.complete_rst (q : Nat × W16) (code st b6 : Nat) (c : List Byte) : (s.complete q code st b6 c).rst = s.rst := rfl
@[simp] theorem State.complete_glb (q : Nat × W16) (code st b6 : Nat) (c : List Byte) : (s.complete q code st b6 c).glb = s.glb := rfl
@[simp] theorem State.complete_lanes (q : Nat × W16) (code st b6 : Nat) (c : List Byte) : (s.complete q code st b6 c).lanes = s.lanes := rfl
@[simp] theorem State.complete_grps (q : Nat × W16) (code st b6 : Nat) (c : List Byte) : (s.complete q code st b6 c).grps = s.grps := rfl
@[simp] theorem State.complete_sch (q : Nat × W16) (code st b6 : Nat) (c : List Byte) : (s.complete q code st b6 c).sch = s.sch := rfl
@[simp] theorem State.complete_pnd (q : Nat × W16) (code st b6 : Nat) (c : List Byte) : (s.complete q code st b6 c).pnd = s.pnd := rfl
@[simp] theorem State.complete_dp (q : Nat × W16) (code st b6 : Nat) (c : List Byte) : (s.complete q code st b6 c).dp = s.dp := rfl
@[simp] theorem State.complete_eng (q : Nat × W16) (code st b6 : Nat) (c : List Byte) : (s.complete q code st b6 c).eng = s.eng := rfl
@[simp] theorem State.complete_prot (q : Nat × W16) (code st b6 : Nat) (c : List Byte) : (s.complete q code st b6 c).prot = s.prot := rfl
@[simp] theorem State.complete_key (q : Nat × W16) (code st b6 : Nat) (c : List Byte) : (s.complete q code st b6 c).key = s.key := rfl
@[simp] theorem State.complete_tim (q : Nat × W16) (code st b6 : Nat) (c : List Byte) : (s.complete q code st b6 c).tim = s.tim := rfl
@[simp] theorem State.complete_twin (q : Nat × W16) (code st b6 : Nat) (c : List Byte) : (s.complete q code st b6 c).twin = s.twin := rfl
@[simp] theorem State.complete_cps (q : Nat × W16) (code st b6 : Nat) (c : List Byte) : (s.complete q code st b6 c).cps = s.cps := rfl
@[simp] theorem State.complete_bus (q : Nat × W16) (code st b6 : Nat) (c : List Byte) : (s.complete q code st b6 c).bus = s.bus := rfl
@[simp] theorem State.complete_mem (q : Nat × W16) (code st b6 : Nat) (c : List Byte) : (s.complete q code st b6 c).mem = s.mem := rfl
@[simp] theorem State.complete_pwr (q : Nat × W16) (code st b6 : Nat) (c : List Byte) : (s.complete q code st b6 c).pwr = s.pwr := rfl
@[simp] theorem State.complete_perf (q : Nat × W16) (code st b6 : Nat) (c : List Byte) : (s.complete q code st b6 c).perf = s.perf := rfl
@[simp] theorem State.complete_pert (q : Nat × W16) (code st b6 : Nat) (c : List Byte) : (s.complete q code st b6 c).pert = s.pert := rfl
@[simp] theorem State.complete_drawn (q : Nat × W16) (code st b6 : Nat) (c : List Byte) : (s.complete q code st b6 c).drawn = s.drawn := rfl
@[simp] theorem State.complete_pending (q : Nat × W16) (code st b6 : Nat) (c : List Byte) : (s.complete q code st b6 c).pending = s.pending := rfl

/-! ### A unit record -/

@[simp] theorem State.unitRecord_rst (cls kind unit cause events cover : Nat) : (s.unitRecord cls kind unit cause events cover).rst = s.rst := rfl
@[simp] theorem State.unitRecord_glb (cls kind unit cause events cover : Nat) : (s.unitRecord cls kind unit cause events cover).glb = s.glb := rfl
@[simp] theorem State.unitRecord_lanes (cls kind unit cause events cover : Nat) : (s.unitRecord cls kind unit cause events cover).lanes = s.lanes := rfl
@[simp] theorem State.unitRecord_grps (cls kind unit cause events cover : Nat) : (s.unitRecord cls kind unit cause events cover).grps = s.grps := rfl
@[simp] theorem State.unitRecord_sch (cls kind unit cause events cover : Nat) : (s.unitRecord cls kind unit cause events cover).sch = s.sch := rfl
@[simp] theorem State.unitRecord_pnd (cls kind unit cause events cover : Nat) : (s.unitRecord cls kind unit cause events cover).pnd = s.pnd := rfl
@[simp] theorem State.unitRecord_dp (cls kind unit cause events cover : Nat) : (s.unitRecord cls kind unit cause events cover).dp = s.dp := rfl
@[simp] theorem State.unitRecord_eng (cls kind unit cause events cover : Nat) : (s.unitRecord cls kind unit cause events cover).eng = s.eng := rfl
@[simp] theorem State.unitRecord_prot (cls kind unit cause events cover : Nat) : (s.unitRecord cls kind unit cause events cover).prot = s.prot := rfl
@[simp] theorem State.unitRecord_key (cls kind unit cause events cover : Nat) : (s.unitRecord cls kind unit cause events cover).key = s.key := rfl
@[simp] theorem State.unitRecord_tim (cls kind unit cause events cover : Nat) : (s.unitRecord cls kind unit cause events cover).tim = s.tim := rfl
@[simp] theorem State.unitRecord_twin (cls kind unit cause events cover : Nat) : (s.unitRecord cls kind unit cause events cover).twin = s.twin := rfl
@[simp] theorem State.unitRecord_bus (cls kind unit cause events cover : Nat) : (s.unitRecord cls kind unit cause events cover).bus = s.bus := rfl
@[simp] theorem State.unitRecord_mem (cls kind unit cause events cover : Nat) : (s.unitRecord cls kind unit cause events cover).mem = s.mem := rfl
@[simp] theorem State.unitRecord_pwr (cls kind unit cause events cover : Nat) : (s.unitRecord cls kind unit cause events cover).pwr = s.pwr := rfl
@[simp] theorem State.unitRecord_perf (cls kind unit cause events cover : Nat) : (s.unitRecord cls kind unit cause events cover).perf = s.perf := rfl
@[simp] theorem State.unitRecord_pert (cls kind unit cause events cover : Nat) : (s.unitRecord cls kind unit cause events cover).pert = s.pert := rfl
@[simp] theorem State.unitRecord_drawn (cls kind unit cause events cover : Nat) : (s.unitRecord cls kind unit cause events cover).drawn = s.drawn := rfl
@[simp] theorem State.unitRecord_pending (cls kind unit cause events cover : Nat) : (s.unitRecord cls kind unit cause events cover).pending = s.pending := rfl

/-! ### A mode change -/

@[simp] theorem State.setMode_rst (m : Mode) (t : Nat) : (s.setMode m t).rst = s.rst := rfl
@[simp] theorem State.setMode_lanes (m : Mode) (t : Nat) : (s.setMode m t).lanes = s.lanes := rfl
@[simp] theorem State.setMode_grps (m : Mode) (t : Nat) : (s.setMode m t).grps = s.grps := rfl
@[simp] theorem State.setMode_sch (m : Mode) (t : Nat) : (s.setMode m t).sch = s.sch := rfl
@[simp] theorem State.setMode_pnd (m : Mode) (t : Nat) : (s.setMode m t).pnd = s.pnd := rfl
@[simp] theorem State.setMode_dp (m : Mode) (t : Nat) : (s.setMode m t).dp = s.dp := rfl
@[simp] theorem State.setMode_eng (m : Mode) (t : Nat) : (s.setMode m t).eng = s.eng := rfl
@[simp] theorem State.setMode_prot (m : Mode) (t : Nat) : (s.setMode m t).prot = s.prot := rfl
@[simp] theorem State.setMode_key (m : Mode) (t : Nat) : (s.setMode m t).key = s.key := rfl
@[simp] theorem State.setMode_tim (m : Mode) (t : Nat) : (s.setMode m t).tim = s.tim := rfl
@[simp] theorem State.setMode_twin (m : Mode) (t : Nat) : (s.setMode m t).twin = s.twin := rfl
@[simp] theorem State.setMode_cps (m : Mode) (t : Nat) : (s.setMode m t).cps = s.cps := rfl
@[simp] theorem State.setMode_bus (m : Mode) (t : Nat) : (s.setMode m t).bus = s.bus := rfl
@[simp] theorem State.setMode_mem (m : Mode) (t : Nat) : (s.setMode m t).mem = s.mem := rfl
@[simp] theorem State.setMode_pwr (m : Mode) (t : Nat) : (s.setMode m t).pwr = s.pwr := rfl
@[simp] theorem State.setMode_perf (m : Mode) (t : Nat) : (s.setMode m t).perf = s.perf := rfl
@[simp] theorem State.setMode_pert (m : Mode) (t : Nat) : (s.setMode m t).pert = s.pert := rfl
@[simp] theorem State.setMode_drawn (m : Mode) (t : Nat) : (s.setMode m t).drawn = s.drawn := rfl
@[simp] theorem State.setMode_pending (m : Mode) (t : Nat) : (s.setMode m t).pending = s.pending := rfl

/-! ### A trigger -/

@[simp] theorem State.trigger_rst (t : ModeTrigger) : (s.trigger t).rst = s.rst := rfl
@[simp] theorem State.trigger_lanes (t : ModeTrigger) : (s.trigger t).lanes = s.lanes := rfl
@[simp] theorem State.trigger_grps (t : ModeTrigger) : (s.trigger t).grps = s.grps := rfl
@[simp] theorem State.trigger_sch (t : ModeTrigger) : (s.trigger t).sch = s.sch := rfl
@[simp] theorem State.trigger_pnd (t : ModeTrigger) : (s.trigger t).pnd = s.pnd := rfl
@[simp] theorem State.trigger_dp (t : ModeTrigger) : (s.trigger t).dp = s.dp := rfl
@[simp] theorem State.trigger_eng (t : ModeTrigger) : (s.trigger t).eng = s.eng := rfl
@[simp] theorem State.trigger_prot (t : ModeTrigger) : (s.trigger t).prot = s.prot := rfl
@[simp] theorem State.trigger_key (t : ModeTrigger) : (s.trigger t).key = s.key := rfl
@[simp] theorem State.trigger_tim (t : ModeTrigger) : (s.trigger t).tim = s.tim := rfl
@[simp] theorem State.trigger_twin (t : ModeTrigger) : (s.trigger t).twin = s.twin := rfl
@[simp] theorem State.trigger_mbx (t : ModeTrigger) : (s.trigger t).mbx = s.mbx := rfl
@[simp] theorem State.trigger_cps (t : ModeTrigger) : (s.trigger t).cps = s.cps := rfl
@[simp] theorem State.trigger_bus (t : ModeTrigger) : (s.trigger t).bus = s.bus := rfl
@[simp] theorem State.trigger_mem (t : ModeTrigger) : (s.trigger t).mem = s.mem := rfl
@[simp] theorem State.trigger_pwr (t : ModeTrigger) : (s.trigger t).pwr = s.pwr := rfl
@[simp] theorem State.trigger_perf (t : ModeTrigger) : (s.trigger t).perf = s.perf := rfl
@[simp] theorem State.trigger_pert (t : ModeTrigger) : (s.trigger t).pert = s.pert := rfl
@[simp] theorem State.trigger_drawn (t : ModeTrigger) : (s.trigger t).drawn = s.drawn := rfl
@[simp] theorem State.trigger_pending (t : ModeTrigger) : (s.trigger t).pending = s.pending := rfl

/-! ### The interrupt outputs -/

@[simp] theorem State.settle_rst : (s.settle).rst = s.rst := rfl
@[simp] theorem State.settle_lanes : (s.settle).lanes = s.lanes := rfl
@[simp] theorem State.settle_grps : (s.settle).grps = s.grps := rfl
@[simp] theorem State.settle_sch : (s.settle).sch = s.sch := rfl
@[simp] theorem State.settle_pnd : (s.settle).pnd = s.pnd := rfl
@[simp] theorem State.settle_dp : (s.settle).dp = s.dp := rfl
@[simp] theorem State.settle_eng : (s.settle).eng = s.eng := rfl
@[simp] theorem State.settle_prot : (s.settle).prot = s.prot := rfl
@[simp] theorem State.settle_key : (s.settle).key = s.key := rfl
@[simp] theorem State.settle_tim : (s.settle).tim = s.tim := rfl
@[simp] theorem State.settle_twin : (s.settle).twin = s.twin := rfl
@[simp] theorem State.settle_mbx : (s.settle).mbx = s.mbx := rfl
@[simp] theorem State.settle_cps : (s.settle).cps = s.cps := rfl
@[simp] theorem State.settle_bus : (s.settle).bus = s.bus := rfl
@[simp] theorem State.settle_mem : (s.settle).mem = s.mem := rfl
@[simp] theorem State.settle_pwr : (s.settle).pwr = s.pwr := rfl
@[simp] theorem State.settle_perf : (s.settle).perf = s.perf := rfl
@[simp] theorem State.settle_pert : (s.settle).pert = s.pert := rfl
@[simp] theorem State.settle_drawn : (s.settle).drawn = s.drawn := rfl
@[simp] theorem State.settle_pending : (s.settle).pending = s.pending := rfl

/-! ### A free value -/

@[simp] theorem State.drawState_rst (w : Nat) : ((s.draw w).2).rst = s.rst := rfl
@[simp] theorem State.drawState_glb (w : Nat) : ((s.draw w).2).glb = s.glb := rfl
@[simp] theorem State.drawState_lanes (w : Nat) : ((s.draw w).2).lanes = s.lanes := rfl
@[simp] theorem State.drawState_grps (w : Nat) : ((s.draw w).2).grps = s.grps := rfl
@[simp] theorem State.drawState_sch (w : Nat) : ((s.draw w).2).sch = s.sch := rfl
@[simp] theorem State.drawState_pnd (w : Nat) : ((s.draw w).2).pnd = s.pnd := rfl
@[simp] theorem State.drawState_dp (w : Nat) : ((s.draw w).2).dp = s.dp := rfl
@[simp] theorem State.drawState_eng (w : Nat) : ((s.draw w).2).eng = s.eng := rfl
@[simp] theorem State.drawState_prot (w : Nat) : ((s.draw w).2).prot = s.prot := rfl
@[simp] theorem State.drawState_key (w : Nat) : ((s.draw w).2).key = s.key := rfl
@[simp] theorem State.drawState_tim (w : Nat) : ((s.draw w).2).tim = s.tim := rfl
@[simp] theorem State.drawState_twin (w : Nat) : ((s.draw w).2).twin = s.twin := rfl
@[simp] theorem State.drawState_mbx (w : Nat) : ((s.draw w).2).mbx = s.mbx := rfl
@[simp] theorem State.drawState_cps (w : Nat) : ((s.draw w).2).cps = s.cps := rfl
@[simp] theorem State.drawState_bus (w : Nat) : ((s.draw w).2).bus = s.bus := rfl
@[simp] theorem State.drawState_mem (w : Nat) : ((s.draw w).2).mem = s.mem := rfl
@[simp] theorem State.drawState_pwr (w : Nat) : ((s.draw w).2).pwr = s.pwr := rfl
@[simp] theorem State.drawState_perf (w : Nat) : ((s.draw w).2).perf = s.perf := rfl
@[simp] theorem State.drawState_pert (w : Nat) : ((s.draw w).2).pert = s.pert := rfl
@[simp] theorem State.drawState_drawn (w : Nat) : ((s.draw w).2).drawn = s.drawn + 1 := rfl
@[simp] theorem State.drawState_pending (w : Nat) : ((s.draw w).2).pending = s.pending := rfl

/-! ### Journal records -/

@[simp] theorem State.note_rst (l : List JRec) : (s.note l).rst = s.rst := rfl
@[simp] theorem State.note_glb (l : List JRec) : (s.note l).glb = s.glb := rfl
@[simp] theorem State.note_lanes (l : List JRec) : (s.note l).lanes = s.lanes := rfl
@[simp] theorem State.note_grps (l : List JRec) : (s.note l).grps = s.grps := rfl
@[simp] theorem State.note_sch (l : List JRec) : (s.note l).sch = s.sch := rfl
@[simp] theorem State.note_pnd (l : List JRec) : (s.note l).pnd = s.pnd := rfl
@[simp] theorem State.note_dp (l : List JRec) : (s.note l).dp = s.dp := rfl
@[simp] theorem State.note_eng (l : List JRec) : (s.note l).eng = s.eng := rfl
@[simp] theorem State.note_prot (l : List JRec) : (s.note l).prot = s.prot := rfl
@[simp] theorem State.note_key (l : List JRec) : (s.note l).key = s.key := rfl
@[simp] theorem State.note_tim (l : List JRec) : (s.note l).tim = s.tim := rfl
@[simp] theorem State.note_twin (l : List JRec) : (s.note l).twin = s.twin := rfl
@[simp] theorem State.note_cps (l : List JRec) : (s.note l).cps = s.cps := rfl
@[simp] theorem State.note_bus (l : List JRec) : (s.note l).bus = s.bus := rfl
@[simp] theorem State.note_mem (l : List JRec) : (s.note l).mem = s.mem := rfl
@[simp] theorem State.note_pwr (l : List JRec) : (s.note l).pwr = s.pwr := rfl
@[simp] theorem State.note_perf (l : List JRec) : (s.note l).perf = s.perf := rfl
@[simp] theorem State.note_pert (l : List JRec) : (s.note l).pert = s.pert := rfl
@[simp] theorem State.note_drawn (l : List JRec) : (s.note l).drawn = s.drawn := rfl
@[simp] theorem State.note_pending (l : List JRec) : (s.note l).pending = s.pending := rfl

theorem State.note_waiting (l : List JRec) : (s.note l).mbx.waiting = s.mbx.waiting := by unfold State.note; simp only [State.modMbx_mbx]; split <;> rfl
theorem State.note_serving (l : List JRec) : (s.note l).mbx.serving = s.mbx.serving := by unfold State.note; simp only [State.modMbx_mbx]; split <;> rfl
theorem State.note_boxes (l : List JRec) : (s.note l).mbx.boxes = s.mbx.boxes := by unfold State.note; simp only [State.modMbx_mbx]; split <;> rfl

/-! ### A request taken from its buffer -/

@[simp] theorem State.rung_rst (code : Nat) (r : MbReq) : (s.rung code r).rst = s.rst := rfl
@[simp] theorem State.rung_glb (code : Nat) (r : MbReq) : (s.rung code r).glb = s.glb := rfl
@[simp] theorem State.rung_lanes (code : Nat) (r : MbReq) : (s.rung code r).lanes = s.lanes := rfl
@[simp] theorem State.rung_grps (code : Nat) (r : MbReq) : (s.rung code r).grps = s.grps := rfl
@[simp] theorem State.rung_sch (code : Nat) (r : MbReq) : (s.rung code r).sch = s.sch := rfl
@[simp] theorem State.rung_pnd (code : Nat) (r : MbReq) : (s.rung code r).pnd = s.pnd := rfl
@[simp] theorem State.rung_dp (code : Nat) (r : MbReq) : (s.rung code r).dp = s.dp := rfl
@[simp] theorem State.rung_eng (code : Nat) (r : MbReq) : (s.rung code r).eng = s.eng := rfl
@[simp] theorem State.rung_prot (code : Nat) (r : MbReq) : (s.rung code r).prot = s.prot := rfl
@[simp] theorem State.rung_key (code : Nat) (r : MbReq) : (s.rung code r).key = s.key := rfl
@[simp] theorem State.rung_tim (code : Nat) (r : MbReq) : (s.rung code r).tim = s.tim := rfl
@[simp] theorem State.rung_twin (code : Nat) (r : MbReq) : (s.rung code r).twin = s.twin := rfl
@[simp] theorem State.rung_cps (code : Nat) (r : MbReq) : (s.rung code r).cps = s.cps := rfl
@[simp] theorem State.rung_bus (code : Nat) (r : MbReq) : (s.rung code r).bus = s.bus := rfl
@[simp] theorem State.rung_mem (code : Nat) (r : MbReq) : (s.rung code r).mem = s.mem := rfl
@[simp] theorem State.rung_pwr (code : Nat) (r : MbReq) : (s.rung code r).pwr = s.pwr := rfl
@[simp] theorem State.rung_pert (code : Nat) (r : MbReq) : (s.rung code r).pert = s.pert := rfl
@[simp] theorem State.rung_drawn (code : Nat) (r : MbReq) : (s.rung code r).drawn = s.drawn := rfl
@[simp] theorem State.rung_pending (code : Nat) (r : MbReq) : (s.rung code r).pending = s.pending := rfl

theorem State.rung_waiting (code : Nat) (r : MbReq) : (s.rung code r).mbx.waiting = s.mbx.waiting := by
  unfold State.rung; rw [State.note_waiting]; rfl
theorem State.rung_serving (code : Nat) (r : MbReq) : (s.rung code r).mbx.serving = s.mbx.serving := by
  unfold State.rung; rw [State.note_serving]; rfl

/-! ### An answer -/

@[simp] theorem State.answer_rst (code : Nat) (r : MbReq) (a : Ans) : (s.answer code r a).rst = s.rst := rfl
@[simp] theorem State.answer_glb (code : Nat) (r : MbReq) (a : Ans) : (s.answer code r a).glb = s.glb := rfl
@[simp] theorem State.answer_lanes (code : Nat) (r : MbReq) (a : Ans) : (s.answer code r a).lanes = s.lanes := rfl
@[simp] theorem State.answer_grps (code : Nat) (r : MbReq) (a : Ans) : (s.answer code r a).grps = s.grps := rfl
@[simp] theorem State.answer_sch (code : Nat) (r : MbReq) (a : Ans) : (s.answer code r a).sch = s.sch := rfl
@[simp] theorem State.answer_pnd (code : Nat) (r : MbReq) (a : Ans) : (s.answer code r a).pnd = s.pnd := rfl
@[simp] theorem State.answer_dp (code : Nat) (r : MbReq) (a : Ans) : (s.answer code r a).dp = s.dp := rfl
@[simp] theorem State.answer_eng (code : Nat) (r : MbReq) (a : Ans) : (s.answer code r a).eng = s.eng := rfl
@[simp] theorem State.answer_prot (code : Nat) (r : MbReq) (a : Ans) : (s.answer code r a).prot = s.prot := rfl
@[simp] theorem State.answer_key (code : Nat) (r : MbReq) (a : Ans) : (s.answer code r a).key = s.key := rfl
@[simp] theorem State.answer_tim (code : Nat) (r : MbReq) (a : Ans) : (s.answer code r a).tim = s.tim := rfl
@[simp] theorem State.answer_twin (code : Nat) (r : MbReq) (a : Ans) : (s.answer code r a).twin = s.twin := rfl
@[simp] theorem State.answer_cps (code : Nat) (r : MbReq) (a : Ans) : (s.answer code r a).cps = s.cps := rfl
@[simp] theorem State.answer_bus (code : Nat) (r : MbReq) (a : Ans) : (s.answer code r a).bus = s.bus := rfl
@[simp] theorem State.answer_mem (code : Nat) (r : MbReq) (a : Ans) : (s.answer code r a).mem = s.mem := rfl
@[simp] theorem State.answer_pwr (code : Nat) (r : MbReq) (a : Ans) : (s.answer code r a).pwr = s.pwr := rfl
@[simp] theorem State.answer_perf (code : Nat) (r : MbReq) (a : Ans) : (s.answer code r a).perf = s.perf := rfl
@[simp] theorem State.answer_pert (code : Nat) (r : MbReq) (a : Ans) : (s.answer code r a).pert = s.pert := rfl
@[simp] theorem State.answer_drawn (code : Nat) (r : MbReq) (a : Ans) : (s.answer code r a).drawn = s.drawn := rfl
@[simp] theorem State.answer_pending (code : Nat) (r : MbReq) (a : Ans) : (s.answer code r a).pending = s.pending := rfl

/-! ### Accessors -/

@[simp] theorem State.modLane_lane_same (n : Nat) (f : Lane → Lane) : (s.modLane n f).lane n = f (s.lane n) := tget_tmod_same _ _ _ _
@[simp] theorem State.modLane_lane_ne (n m : Nat) (h : m ≠ n) (f : Lane → Lane) : (s.modLane n f).lane m = s.lane m := tget_tmod_ne _ _ h _
@[simp] theorem State.modPond_pond_same (n : Nat) (f : Pond → Pond) : (s.modPond n f).pond n = f (s.pond n) := tget_tmod_same _ _ _ _
@[simp] theorem State.modPond_pond_ne (n m : Nat) (h : m ≠ n) (f : Pond → Pond) : (s.modPond n f).pond m = s.pond m := by
  unfold State.pond State.modPond State.modPnd Pnd.modPond
  exact tget_tmod_ne_default _ _ _ h _
@[simp] theorem State.modBox_box_same (n : Nat) (f : Mb → Mb) : (s.modBox n f).box n = f (s.box n) := tget_tmod_same _ _ _ _
@[simp] theorem State.modBox_box_ne (n m : Nat) (h : m ≠ n) (f : Mb → Mb) : (s.modBox n f).box m = s.box m := tget_tmod_ne _ _ h _

/-- The interrupt outputs aside, settling changes nothing of the global block. -/
theorem State.settle_glb : s.settle.glb = { s.glb with aPrev := s.settle.glb.aPrev, msixHeld := s.settle.glb.msixHeld, msixSent := s.settle.glb.msixSent } := by
  unfold State.settle State.modGlb Glb.sendMsix
  simp only
  split
  · split <;> rfl
  · rfl

end Sys2Proof.Machine
end

