-- ==== Sys2Proof/Laws/Frames.lean ====
section
/-!
SUPPORT. Answers, frames and invariants: how they compose, and that the shared operations keep them.
-/

namespace Sys2Proof.Machine

/-! ### Answers -/

theorem answers_next (t : State) (P : State → Prop) : Answers (.next t) P ↔ P t := by
  constructor
  · rintro ⟨u, h, hp⟩
    cases h
    exact hp
  · exact fun h => ⟨t, rfl, h⟩

theorem answers_done (s : State) (P : State → Prop) : Answers (done s) P ↔ P s.settle := answers_next _ _

theorem Answers.mono {o : Result} {P Q : State → Prop} (h : Answers o P) (hpq : ∀ t, P t → Q t) : Answers o Q := by
  obtain ⟨t, ho, hp⟩ := h
  exact ⟨t, ho, hpq t hp⟩

theorem Answers.and {o : Result} {P Q : State → Prop} (hp : Answers o P) (hq : Answers o Q) : Answers o fun t => P t ∧ Q t := by
  obtain ⟨t, rfl, hp⟩ := hp
  exact ⟨t, rfl, hp, (answers_next t Q).mp hq⟩

/-! ### Frames -/

theorem Same.refl (s : State) (p : Part) : Same s s p := by cases p <;> rfl

theorem Same.trans {s t u : State} {p : Part} (h : Same s t p) (h' : Same t u p) : Same s u p := by
  cases p <;> simp only [Same] at h h' ⊢ <;> first | exact h'.trans h | (rw [h', h])

theorem FrameBut.refl (l : List Part) (s : State) : FrameBut l s s := fun p _ => Same.refl s p

theorem FrameBut.trans {l : List Part} {s t u : State} (h : FrameBut l s t) (h' : FrameBut l t u) : FrameBut l s u :=
  fun p hp => (h p hp).trans (h' p hp)

theorem FrameBut.mono {l m : List Part} {s t : State} (h : FrameBut l s t) (hm : ∀ p ∈ l, p ∈ m) : FrameBut m s t :=
  fun p hp => h p fun hl => hp (hm p hl)

/-- Settling the interrupt outputs touches no part. -/
theorem FrameBut.settle (l : List Part) (s : State) : FrameBut l s s.settle := by
  intro p _
  cases p
  case glb => exact State.settle_glb s
  all_goals rfl

theorem FrameBut.then_settle {l : List Part} {s t : State} (h : FrameBut l s t) : FrameBut l s t.settle := h.trans (FrameBut.settle l t)

theorem frameBut_modRst (f : Rst → Rst) (s : State) : FrameBut [.rst] s (s.modRst f) := by
  intro p hp; cases p <;> first | exact absurd (List.mem_singleton.mpr rfl) hp | rfl

theorem frameBut_modGlb (f : Glb → Glb) (s : State) : FrameBut [.glb] s (s.modGlb f) := by
  intro p hp; cases p <;> first | exact absurd (List.mem_singleton.mpr rfl) hp | rfl

theorem frameBut_modSch (f : Sch → Sch) (s : State) : FrameBut [.sch] s (s.modSch f) := by
  intro p hp; cases p <;> first | exact absurd (List.mem_singleton.mpr rfl) hp | rfl

theorem frameBut_modPnd (f : Pnd → Pnd) (s : State) : FrameBut [.pnd] s (s.modPnd f) := by
  intro p hp; cases p <;> first | exact absurd (List.mem_singleton.mpr rfl) hp | rfl

theorem frameBut_modDp (f : Dp → Dp) (s : State) : FrameBut [.dp] s (s.modDp f) := by
  intro p hp; cases p <;> first | exact absurd (List.mem_singleton.mpr rfl) hp | rfl

theorem frameBut_modEng (f : Eng → Eng) (s : State) : FrameBut [.eng] s (s.modEng f) := by
  intro p hp; cases p <;> first | exact absurd (List.mem_singleton.mpr rfl) hp | rfl

theorem frameBut_modKey (f : Key → Key) (s : State) : FrameBut [.key] s (s.modKey f) := by
  intro p hp; cases p <;> first | exact absurd (List.mem_singleton.mpr rfl) hp | rfl

theorem frameBut_modTim (f : Tim → Tim) (s : State) : FrameBut [.tim] s (s.modTim f) := by
  intro p hp; cases p <;> first | exact absurd (List.mem_singleton.mpr rfl) hp | rfl

theorem frameBut_modTwin (f : Twin → Twin) (s : State) : FrameBut [.twin] s (s.modTwin f) := by
  intro p hp; cases p <;> first | exact absurd (List.mem_singleton.mpr rfl) hp | rfl

theorem frameBut_modMbx (f : Mbx → Mbx) (s : State) : FrameBut [.mbx] s (s.modMbx f) := by
  intro p hp; cases p <;> first | exact absurd (List.mem_singleton.mpr rfl) hp | rfl

theorem frameBut_modCps (f : Cps → Cps) (s : State) : FrameBut [.cps] s (s.modCps f) := by
  intro p hp; cases p <;> first | exact absurd (List.mem_singleton.mpr rfl) hp | rfl

theorem frameBut_modBus (f : Bus → Bus) (s : State) : FrameBut [.bus] s (s.modBus f) := by
  intro p hp; cases p <;> first | exact absurd (List.mem_singleton.mpr rfl) hp | rfl

theorem frameBut_modMem (f : Mem → Mem) (s : State) : FrameBut [.mem] s (s.modMem f) := by
  intro p hp; cases p <;> first | exact absurd (List.mem_singleton.mpr rfl) hp | rfl

theorem frameBut_modPwr (f : Pwr → Pwr) (s : State) : FrameBut [.pwr] s (s.modPwr f) := by
  intro p hp; cases p <;> first | exact absurd (List.mem_singleton.mpr rfl) hp | rfl

theorem frameBut_modPerf (f : Perf → Perf) (s : State) : FrameBut [.perf] s (s.modPerf f) := by
  intro p hp; cases p <;> first | exact absurd (List.mem_singleton.mpr rfl) hp | rfl

theorem frameBut_modPert (f : Pert → Pert) (s : State) : FrameBut [.pert] s (s.modPert f) := by
  intro p hp; cases p <;> first | exact absurd (List.mem_singleton.mpr rfl) hp | rfl

theorem frameBut_lane (n : Nat) (f : Lane → Lane) (s : State) : FrameBut [.lanes] s (s.modLane n f) := by
  intro p hp; cases p <;> first | rfl | simp at hp

theorem frameBut_pond (n : Nat) (f : Pond → Pond) (s : State) : FrameBut [.pnd] s (s.modPond n f) := by
  intro p hp; cases p <;> first | rfl | simp at hp

theorem frameBut_grp (n : Nat) (f : Grp → Grp) (s : State) : FrameBut [.grps] s (s.modGrp n f) := by
  intro p hp; cases p <;> first | rfl | simp at hp

theorem frameBut_box (n : Nat) (f : Mb → Mb) (s : State) : FrameBut [.mbx] s (s.modBox n f) := by
  intro p hp; cases p <;> first | rfl | simp at hp

theorem frameBut_post (r : EvRec) (s : State) : FrameBut [.mbx] s (s.post r) := by
  intro p hp; cases p <;> first | rfl | simp at hp

theorem frameBut_event (code b6 : Nat) (c : List Byte) (s : State) : FrameBut [.mbx] s (s.event code b6 c) := frameBut_post _ s

theorem frameBut_count (i n : Nat) (s : State) : FrameBut [.perf] s (s.count i n) := by
  intro p hp; cases p <;> first | rfl | simp at hp

theorem frameBut_raise (b : Nat) (s : State) : FrameBut [.glb] s (s.raise b) := by
  intro p hp; cases p <;> first | rfl | simp at hp

theorem frameBut_unitRecord (cls kind unit cause events cover : Nat) (s : State) :
    FrameBut [.mbx, .cps] s (s.unitRecord cls kind unit cause events cover) := by
  intro p hp; cases p <;> first | rfl | simp at hp

/-! ### Invariants: each depends on one part, and a mode change keeps its own -/

theorem bankRoles_of_sch {s t : State} (h : t.sch = s.sch) : BankRoles t ↔ BankRoles s := by unfold BankRoles; rw [h]

theorem modePower_of_glb {s t : State} (hm : t.glb.mode = s.glb.mode) (hp : t.glb.power = s.glb.power) : ModePower t ↔ ModePower s := by
  unfold ModePower; rw [hm, hp]

theorem debugAllowed_of_rst {s t : State} (h : t.rst = s.rst) : DebugAllowed t ↔ DebugAllowed s := by unfold DebugAllowed; rw [h]

theorem modePower_settle (s : State) : ModePower s.settle ↔ ModePower s := by
  have h := State.settle_glb s
  exact modePower_of_glb (by rw [h]) (by rw [h])

/-- The power state a mode names is the one it names for itself. -/
theorem Mode.power_power (m : Mode) (p : BitVec 2) : m.power (m.power p) = m.power p := by
  revert p; cases m <;> decide

theorem modePower_setMode (m : Mode) (trigger : Nat) (s : State) : ModePower (s.setMode m trigger) := by
  unfold ModePower State.setMode
  exact (Mode.power_power m s.glb.power).symm

theorem commit_keeps_roles {s : State} (h : BankRoles s) :
    BankRoles (s.modSch fun c => { c with present := c.future, past := c.present, future := c.past }) := by
  obtain ⟨h1, h2, h3, h4, h5, h6⟩ := h
  exact ⟨h3, h1, h2, h5.symm, h6.symm, h4⟩

end Sys2Proof.Machine
end

