-- ==== Sys2Proof/Laws/Bus.lean ====
section
/-!
SUPPORT. What one bus access does: nothing while a cold reset is held, a decode error where the master has no path, and else the target's
answer and one grant (R362, R369). One lemma for a read, one for a write, and their aligned forms.
-/

namespace Sys2Proof.Machine

theorem readOne_cases (m : BusMaster) (a : Nat) (s : State) :
    (s.held = true ∧ s.readOne m a = (none, s)) ∨
    (s.held = false ∧ s.granted m false (s.decode m a) = false ∧
      s.readOne m a = (none, s.decodeError m false (s.decode m a).1 (BitVec.ofNat 64 a))) ∨
    (s.held = false ∧ s.granted m false (s.decode m a) = true ∧
      s.readOne m a = (some (s.targetRead m (s.decode m a).1 (s.decode m a).2).1,
        (s.targetRead m (s.decode m a).1 (s.decode m a).2).2.count (560 + busIndex m) 1)) := by
  unfold State.readOne
  by_cases hh : s.held = true
  · exact .inl ⟨hh, if_pos hh⟩
  · have hf : s.held = false := by simpa using hh
    cases hp : s.granted m false (s.decode m a)
    · exact .inr (.inl ⟨hf, rfl, (if_neg hh).trans (if_pos (by rw [hp]; rfl))⟩)
    · exact .inr (.inr ⟨hf, rfl, (if_neg hh).trans (if_neg (by rw [hp]; decide))⟩)

theorem writeOne_cases (m : BusMaster) (a : Nat) (be : BitVec 4) (v : W32) (h : HostMem) (s : State) :
    (s.held = true ∧ s.writeOne m a be v h = s) ∨
    (s.held = false ∧ s.granted m true (s.decode m a) = false ∧
      s.writeOne m a be v h = s.decodeError m true (s.decode m a).1 (BitVec.ofNat 64 a)) ∨
    (s.held = false ∧ s.granted m true (s.decode m a) = true ∧
      s.writeOne m a be v h = (s.targetWrite m (s.decode m a).1 (s.decode m a).2 be v h).count (560 + busIndex m) 1) := by
  unfold State.writeOne
  by_cases hh : s.held = true
  · exact .inl ⟨hh, if_pos hh⟩
  · have hf : s.held = false := by simpa using hh
    cases hp : s.granted m true (s.decode m a)
    · exact .inr (.inl ⟨hf, rfl, (if_neg hh).trans (if_pos (by rw [hp]; rfl))⟩)
    · exact .inr (.inr ⟨hf, rfl, (if_neg hh).trans (if_neg (by rw [hp]; decide))⟩)

theorem busWrite_aligned {a : Nat} (ha : a % 4 = 0) (m : BusMaster) (be : BitVec 4) (v : W32) (h : HostMem) (s : State) :
    s.busWrite m a be v h = s.writeOne m a be v h := by
  unfold State.busWrite
  exact if_pos ha

theorem busRead_aligned {a : Nat} (ha : a % 4 = 0) {m : BusMaster} {s : State} {v : W32} (h : (s.readOne m a).1 = some v) :
    s.busRead m a = (s.readOne m a).2.readAnswer m v := by
  unfold State.busRead
  simp only [ha, Nat.sub_zero, if_true, h]

/-- No access is served while a cold reset is held. -/
theorem busWrite_held {s : State} (hs : s.held = true) (m : BusMaster) (a : Nat) (be : BitVec 4) (v : W32) (h : HostMem) :
    s.busWrite m a be v h = s := by
  have w : ∀ b e u, s.writeOne m b e u h = s := fun b e u => if_pos hs
  unfold State.busWrite
  simp only [w, ite_self]

theorem busRead_held {s : State} (hs : s.held = true) (m : BusMaster) (a : Nat) : s.busRead m a = s := by
  have r : ∀ b, s.readOne m b = (none, s) := fun b => if_pos hs
  unfold State.busRead
  simp only [r, ite_self]

/-- The data of a read stands where the master finds it. -/
theorem readAnswer_data (m : BusMaster) (v : W32) (s : State) : tget 0 (s.readAnswer m v).bus.readData (busIndex m) = v := by
  unfold State.readAnswer State.modBus
  simp

theorem frameBut_readAnswer (m : BusMaster) (v : W32) (s : State) : FrameBut [.bus] s (s.readAnswer m v) := by
  intro p hp; cases p <;> first | rfl | simp at hp

theorem frameBut_decodeError (m : BusMaster) (w : Bool) (n : Nat) (a : W64) (s : State) : FrameBut [.bus] s (s.decodeError m w n a) := by
  unfold State.decodeError
  exact if h : s.bus.errInfo.getLsbD 31 = true then by rw [if_pos h]; exact FrameBut.refl _ _
    else by rw [if_neg h]; exact frameBut_modBus _ _

end Sys2Proof.Machine
end

