-- ==== Sys2Proof/Laws/Mailbox.lean ====
section
/-!
SUPPORT. What a mailbox exchange does: one lemma for the row, one for the response.
-/

namespace Sys2Proof.Machine

theorem leBytes_length (n v : Nat) : (leBytes n v).length = n := by
  induction n generalizing v with
  | zero => rfl
  | succ n ih => simp [leBytes, ih]

theorem msgHeader_length (code : Nat) (seq : W16) (len flags st : Nat) : (msgHeader code seq len flags st).length = 16 := by
  simp [msgHeader, leBytes_length]

/-- A response is read back whole from the buffer, with the mailbox DONE. -/
theorem answered_answer (code : Nat) (r : MbReq) (a : Ans) (s : State) : Answered code r a.status a.payload (s.answer code r a).settle := by
  have hb : ((s.answer code r a).settle).box r.mb = { s.box r.mb with
      state := .done, seq := r.seq, noInt := r.flags.getLsbD 0
      resp := tover 0 0 (msgHeader code r.seq a.payload.length 0 a.status ++ a.payload) (s.box r.mb).resp } := by
    have : ((s.answer code r a).settle).box r.mb = (s.answer code r a).box r.mb := rfl
    rw [this, State.answer, State.modBox_box_same]
  refine ⟨by rw [hb], by rw [hb], ?_⟩
  rw [hb]
  have hl : 16 + a.payload.length = (msgHeader code r.seq a.payload.length 0 a.status ++ a.payload).length := by
    simp [msgHeader_length]
  rw [hl]
  exact trange_tover _ _ _ _

/-! ### The state in which a command runs -/

@[simp] theorem filled_rst (code : Nat) (r : MbReq) (s : State) : (s.filled code r).rst = s.rst := by simp [State.filled]
@[simp] theorem filled_glb (code : Nat) (r : MbReq) (s : State) : (s.filled code r).glb = s.glb := by simp [State.filled]
@[simp] theorem filled_lanes (code : Nat) (r : MbReq) (s : State) : (s.filled code r).lanes = s.lanes := by simp [State.filled]
@[simp] theorem filled_grps (code : Nat) (r : MbReq) (s : State) : (s.filled code r).grps = s.grps := by simp [State.filled]
@[simp] theorem filled_sch (code : Nat) (r : MbReq) (s : State) : (s.filled code r).sch = s.sch := by simp [State.filled]
@[simp] theorem filled_pnd (code : Nat) (r : MbReq) (s : State) : (s.filled code r).pnd = s.pnd := by simp [State.filled]
@[simp] theorem filled_dp (code : Nat) (r : MbReq) (s : State) : (s.filled code r).dp = s.dp := by simp [State.filled]
@[simp] theorem filled_eng (code : Nat) (r : MbReq) (s : State) : (s.filled code r).eng = s.eng := by simp [State.filled]
@[simp] theorem filled_prot (code : Nat) (r : MbReq) (s : State) : (s.filled code r).prot = s.prot := by simp [State.filled]
@[simp] theorem filled_key (code : Nat) (r : MbReq) (s : State) : (s.filled code r).key = s.key := by simp [State.filled]
@[simp] theorem filled_tim (code : Nat) (r : MbReq) (s : State) : (s.filled code r).tim = s.tim := by simp [State.filled]
@[simp] theorem filled_twin (code : Nat) (r : MbReq) (s : State) : (s.filled code r).twin = s.twin := by simp [State.filled]
@[simp] theorem filled_cps (code : Nat) (r : MbReq) (s : State) : (s.filled code r).cps = s.cps := by simp [State.filled]
@[simp] theorem filled_bus (code : Nat) (r : MbReq) (s : State) : (s.filled code r).bus = s.bus := by simp [State.filled]
@[simp] theorem filled_mem (code : Nat) (r : MbReq) (s : State) : (s.filled code r).mem = s.mem := by simp [State.filled]
@[simp] theorem filled_pwr (code : Nat) (r : MbReq) (s : State) : (s.filled code r).pwr = s.pwr := by simp [State.filled]
@[simp] theorem filled_pert (code : Nat) (r : MbReq) (s : State) : (s.filled code r).pert = s.pert := by simp [State.filled]
@[simp] theorem filled_drawn (code : Nat) (r : MbReq) (s : State) : (s.filled code r).drawn = s.drawn := by simp [State.filled]
@[simp] theorem filled_pending (code : Nat) (r : MbReq) (s : State) : (s.filled code r).pending = s.pending := by simp [State.filled]

theorem frameBut_filled (code : Nat) (r : MbReq) (s : State) : FrameBut exchangeParts s (s.filled code r) := by
  intro p hp; cases p <;> simp [Same, exchangeParts] at hp ⊢

/-- Taking a request keeps what decides whether it is admitted. -/
theorem denies_filled (code : Nat) (r : MbReq) (s : State) (c : Nat) : (s.filled code r).denies r c = s.denies r c := by
  unfold State.denies; rw [filled_rst]

/-- Taking a request adds no waiting command. -/
theorem filled_waiting (code : Nat) (r : MbReq) (s : State) : (s.filled code r).mbx.waiting = s.mbx.waiting := by
  unfold State.filled; rw [State.rung_waiting]; rfl

theorem filled_serves (code : Nat) (r : MbReq) (s : State) : (s.filled code r).cpServes = s.cpServes := by
  have h : (s.filled code r).mbx.serving = s.mbx.serving := by unfold State.filled; rw [State.rung_serving]; rfl
  unfold State.cpServes; rw [h, filled_rst, filled_cps]

theorem filled_tick (code : Nat) (r : MbReq) (s : State) : (s.filled code r).tick = s.tick := by unfold State.tick; rw [filled_glb]

theorem runForm_admitted {code : Nat} {f : Form} {r : MbReq} {s : State} (body : MbReq → State → Ans × State)
    (hp : s.rst.phase = .started) (h : Admitted code f r s) : runForm code f body r (s.filled code r) = body r (s.filled code r) := by
  unfold runForm
  rw [filled_rst, hp]
  simp [h.1, h.2.1, denies_filled, h.2.2]

/-- Filling a buffer leaves the mailbox's state. -/
theorem fill_state (code : Nat) (r : MbReq) (b : Mb) : (b.fill code r).state = b.state := by unfold Mb.fill; split <;> rfl

/-- A request that is taken runs at once. -/
theorem request_ready {code : Nat} {run : MbReq → State → Ans × State} {r : MbReq} {s : State} (h : MbReady r s) :
    s.request code run r = (s.filled code r).exchange code run r := by
  obtain ⟨h1, h2, h3, h4, h5, h6, h7⟩ := h
  have hh : s.held = false := by unfold State.held; rw [h2]; rfl
  have hst : ((s.modBox r.mb (Mb.fill code r)).box r.mb).state = (s.box r.mb).state := by
    rw [State.modBox_box_same, fill_state]
  have hn : ¬ (s.box r.mb).state = .busy ∧ ¬ (s.box r.mb).state = .closed := by rcases h4 with h | h <;> rw [h] <;> simp
  have hs : ((s.modBox r.mb (Mb.fill code r)).rung code r).cpServes = true := (filled_serves code r s).trans h5
  have hw : ((s.modBox r.mb (Mb.fill code r)).rung code r).mbx.waiting.any
      (Waiting.ripe ((s.modBox r.mb (Mb.fill code r)).rung code r).tick) = false := by
    have hq := filled_waiting code r s
    have ht := filled_tick code r s
    unfold State.filled at hq ht
    rw [hq, ht]; exact h7
  have hd : (s.modBox r.mb (Mb.fill code r)).pert.bellDelay r.mb = 0 := h6
  have h8 : ¬ r.mb > 7 := by omega
  have h9 : ¬ r.mb = 7 := by omega
  unfold State.request State.ring State.filled
  simp only [hh, h3, h8, h9, if_neg, hst, hn.1, hn.2, hd, hs, hw, not_false_eq_true]
  simp

/-- What a mailbox row answers when its mailbox is ready and the request admitted: the body's effect, journalled, and its response. -/
theorem mailboxRow_ready {code : Nat} {f : Form} {body : MbReq → State → Ans × State} {r : MbReq} {s : State}
    (h : MbReady r s) (ha : Admitted code f r s) (hc : code ≠ 0x0104) :
    mailboxRow code f body r s =
      .next (((body r (s.filled code r)).2.note ((body r (s.filled code r)).2.journalOf code r (body r (s.filled code r)).1)).answer code r
        (body r (s.filled code r)).1).settle := by
  unfold mailboxRow done
  rw [request_ready h]
  unfold State.exchange State.runJournalled
  rw [runForm_admitted body h.2.1 ha]
  simp [hc]

end Sys2Proof.Machine
end

