-- ==== Sys2Proof/Laws/Memory.lean ====
section
/-!
SUPPORT. Memories: a read after a write, and that each memory operation keeps the canonical form.
-/

namespace Sys2Proof.Machine

/-- Reset's memories list nothing. -/
theorem reset_memWf : State.reset.memWf = true := by decide

/-! ### Ponds -/

theorem Pond.raw_setWord_same (p : Pond) (half col : Nat) (v : W64) : (p.setWord half col v).raw half col = v := by
  unfold Pond.raw Pond.setWord Pond.cells Pond.base
  split <;> simp

theorem Pond.raw_setWord_ne (p : Pond) (half : Nat) {col c : Nat} (h : c ≠ col) (v : W64) : (p.setWord half col v).raw half c = p.raw half c := by
  unfold Pond.raw Pond.setWord Pond.cells Pond.base
  split <;> simp [h]

theorem Pond.setWord_wf {p : Pond} (h : p.wf = true) (half col : Nat) (v : W64) : (p.setWord half col v).wf = true := by
  unfold Pond.wf at h ⊢
  obtain ⟨h0, h1⟩ := Bool.and_eq_true _ _ ▸ h
  unfold Pond.setWord
  split
  · exact Bool.and_eq_true_iff.mpr ⟨tput_twf h0 _ _, h1⟩
  · exact Bool.and_eq_true_iff.mpr ⟨h0, tput_twf h1 _ _⟩

theorem Pond.setHalf_wf {p : Pond} (h : p.wf = true) (half : Nat) {w : Tbl W64} (hw : twf 0 w = true) : (p.setHalf half w).wf = true := by
  unfold Pond.wf at h ⊢
  obtain ⟨h0, h1⟩ := Bool.and_eq_true _ _ ▸ h
  unfold Pond.setHalf
  split
  · exact Bool.and_eq_true_iff.mpr ⟨hw, h1⟩
  · exact Bool.and_eq_true_iff.mpr ⟨h0, hw⟩

theorem Pond.wipe_wf (p : Pond) : p.wipe.wf = true := rfl

/-! ### Connection maps -/

theorem Bank.entry_store_same (b : Bank) (k : Nat) (e : BitVec 48) : (b.store k e).entry k = e := by
  unfold Bank.entry Bank.store
  cases h : b.undef with
  | none => simp
  | some n =>
    have : k ∈ addNew b.written k := by
      unfold addNew
      split <;> simp_all
    simp [this]

theorem Bank.entry_store_ne (b : Bank) {k j : Nat} (h : j ≠ k) (e : BitVec 48) : (b.store k e).entry j = b.entry j := by
  unfold Bank.entry Bank.store
  cases hu : b.undef with
  | none => simp [h]
  | some n =>
    have : j ∈ addNew b.written k ↔ j ∈ b.written := by
      unfold addNew
      split <;> simp [h]
    simp [this, h]

theorem Bank.store_wf {b : Bank} (h : b.wf = true) (k : Nat) (e : BitVec 48) : (b.store k e).wf = true := tput_twf h _ _

/-! ### Working SRAM -/

theorem Bus.byte_setByte_same (b : Bus) (k i : Nat) (v : Byte) : (b.setByte k i v).byte k i = v := by
  unfold Bus.byte Bus.setByte Bus.mask
  simp [tget_tmod_same]

theorem Bus.byte_setByte_ne (b : Bus) {k i j n : Nat} (h : j ≠ k ∨ n ≠ i) (v : Byte) : (b.setByte k i v).byte j n = b.byte j n := by
  unfold Bus.byte Bus.setByte Bus.mask
  by_cases hj : j = k
  · subst hj
    have hn : n ≠ i := by rcases h with h | h; exact absurd rfl h; exact h
    simp [tget_tmod_same, hn]
  · simp [tget_tmod_ne _ _ hj]

/-- A byte of an engine scratchpad reads back as written, whatever the access that names it modulo 16,384 (R370). -/
theorem Bus.engByte_setEngByte_same (b : Bus) (e : Nat) {a c : Nat} (h : c % 16384 = a % 16384) (v : Byte) :
    (b.setEngByte e a v).engByte e c = v := by
  unfold Bus.engByte Bus.setEngByte
  simp [tget_tmod_same, h]

/-- Every other byte, and every other engine's, is as it was. -/
theorem Bus.engByte_setEngByte_ne (b : Bus) {e d a c : Nat} (h : d ≠ e ∨ c % 16384 ≠ a % 16384) (v : Byte) :
    (b.setEngByte e a v).engByte d c = b.engByte d c := by
  unfold Bus.engByte Bus.setEngByte
  by_cases hd : d = e
  · subst hd
    simp [tget_tmod_same, tget_tput_ne, h.resolve_left (fun h => h rfl)]
  · simp [tget_tmod_ne, hd]

/-- A write of `n` lanes leaves every byte outside them. -/
theorem Bus.engByte_engWrite_ne (b : Bus) {e d a c w : Nat} (h : d ≠ e ∨ ∀ i, i < w → c % 16384 ≠ (a + i) % 16384) (v : W64) :
    (b.engWrite e a w v).engByte d c = b.engByte d c := by
  induction w with
  | zero => rfl
  | succ w ih =>
    unfold Bus.engWrite at ih ⊢
    rw [List.range_succ, List.foldl_append]
    show (Bus.setEngByte _ _ _ _).engByte d c = _
    rw [Bus.engByte_setEngByte_ne]
    · exact ih (h.imp_right fun h i hi => h i (by omega))
    · exact h.imp_right fun h => h w (by omega)

/-- The lane of a write that names a byte last is what the byte then holds. -/
theorem Bus.engByte_engWrite_lane (b : Bus) (e a : Nat) {w i : Nat} (hi : i < w) (hw : w ≤ 8) (v : W64) :
    (b.engWrite e a w v).engByte e (a + i) = BitVec.ofNat 8 (v.toNat / 256 ^ i) := by
  induction w with
  | zero => omega
  | succ w ih =>
    unfold Bus.engWrite at ih ⊢
    rw [List.range_succ, List.foldl_append]
    show (Bus.setEngByte _ _ _ _).engByte e (a + i) = _
    by_cases h : i = w
    · subst h
      exact Bus.engByte_setEngByte_same _ _ rfl _
    · rw [Bus.engByte_setEngByte_ne]
      · exact ih (by omega) (by omega)
      · exact .inr (by omega)

theorem mem_of_tfind {α : Type} {t : Tbl α} {k : Nat} {v : α} (h : tfind t k = some v) : (k, v) ∈ t := by
  induction t with
  | nil => simp [tfind] at h
  | cons e r ih =>
    rw [tfind_cons] at h
    split at h
    · rename_i hk
      obtain ⟨a, b⟩ := e
      simp at h hk
      subst h hk
      exact List.mem_cons_self ..
    · exact List.mem_cons_of_mem _ (ih h)

theorem mem_tput {α : Type} [DecidableEq α] {d : α} {t : Tbl α} {k : Nat} {v : α} {e : Nat × α} (h : e ∈ tput d t k v) :
    e = (k, v) ∨ e ∈ t := by
  unfold tput at h
  split at h
  · exact .inr (List.mem_filter.mp h).1
  · exact mem_tins h

theorem Bus.setByte_wf {b : Bus} (h : b.wf = true) (k i : Nat) (v : Byte) : (b.setByte k i v).wf = true := by
  unfold Bus.wf at h ⊢
  simp only [Bool.and_eq_true, List.all_eq_true] at h ⊢
  obtain ⟨⟨⟨h1, h2⟩, h3⟩, h4⟩ := h
  have hk : twf 0 (tget [] b.sram k) = true := by
    unfold tget
    cases hf : tfind b.sram k with
    | none => rfl
    | some t => exact h2 _ (mem_of_tfind hf)
  have hv := tput_twf (d := (0 : Byte)) hk i (v ^^^ b.mask k i)
  unfold Bus.setByte
  refine ⟨⟨⟨tput_twf h1 _ _, fun e he => ?_⟩, h3⟩, h4⟩
  rcases mem_tput he with rfl | he
  · exact hv
  · exact h2 e he

/-! ### Mailbox buffers -/

/-- A run of bytes written into the request buffer. -/
theorem Mb.req_wf {m : Mb} (h : m.wf = true) (o : Nat) (l : List Byte) : ({ m with req := tover 0 o l m.req } : Mb).wf = true := by
  unfold Mb.wf at h ⊢
  obtain ⟨h0, h1⟩ := Bool.and_eq_true _ _ ▸ h
  exact Bool.and_eq_true_iff.mpr ⟨tover_twf h0 _ _, h1⟩

/-- A response written into the response buffer. -/
theorem Mb.resp_wf {m : Mb} (h : m.wf = true) (o : Nat) (l : List Byte) : ({ m with resp := tover 0 o l m.resp } : Mb).wf = true := by
  unfold Mb.wf at h ⊢
  obtain ⟨h0, h1⟩ := Bool.and_eq_true _ _ ▸ h
  exact Bool.and_eq_true_iff.mpr ⟨h0, tover_twf h1 _ _⟩

end Sys2Proof.Machine
end

