-- ==== Sys2Proof/Laws/Reset.lean ====
section
/-!
SUPPORT. What asserting a cold or warm reset leaves (R385, R386), part by part.
-/

namespace Sys2Proof.Machine

variable (cold : Bool) (src : Nat) (s : State)

@[simp] theorem assertReset_lanes : (s.assertReset cold src).lanes = [] := rfl
@[simp] theorem assertReset_grps : (s.assertReset cold src).grps = [] := rfl
@[simp] theorem assertReset_sch : (s.assertReset cold src).sch = {} := rfl
@[simp] theorem assertReset_pnd : (s.assertReset cold src).pnd = {} := rfl
@[simp] theorem assertReset_dp : (s.assertReset cold src).dp = {} := rfl
@[simp] theorem assertReset_prot : (s.assertReset cold src).prot = [] := rfl
@[simp] theorem assertReset_twin : (s.assertReset cold src).twin = {} := rfl
@[simp] theorem assertReset_bus : (s.assertReset cold src).bus = {} := rfl
@[simp] theorem assertReset_mem : (s.assertReset cold src).mem = {} := rfl
@[simp] theorem assertReset_perf : (s.assertReset cold src).perf = {} := rfl
@[simp] theorem assertReset_pert : (s.assertReset cold src).pert = {} := rfl
@[simp] theorem assertReset_drawn : (s.assertReset cold src).drawn = s.drawn := rfl
@[simp] theorem assertReset_pending : (s.assertReset cold src).pending = s.pending := rfl

theorem assertReset_phase : (s.assertReset cold src).rst.phase = .inReset := rfl
theorem assertReset_debug : (s.assertReset cold src).rst.dbgLevel = 0 := rfl
theorem assertReset_slots : (s.assertReset cold src).key.slots = [] := by
  have h : (s.assertReset cold src).key = ((s.clearAll cold src).lcAtReset s.rst.lcPend.isSome s.rst.lc).key := rfl
  rw [h]; unfold State.lcAtReset; dsimp only; split <;> rfl

/-- The mailboxes are emptied, but for the LC_CHANGE of a transition that the reset overtook (R409). -/
theorem assertReset_mbx (h : s.rst.lcPend = none) : (s.assertReset cold src).mbx = {} := by
  unfold State.assertReset; rw [h]; rfl

/-- A cold reset restarts the timing unit. -/
theorem assertReset_tim_cold : (s.assertReset true src).tim = {} := rfl

theorem assertReset_bankRoles : BankRoles (s.assertReset cold src) := by
  unfold BankRoles
  rw [assertReset_sch]
  decide

theorem assertReset_modePower : ModePower (s.assertReset cold src) := by
  show ModePower { s with glb := s.glb.stayDecommissioned (s.glb.reset (cold || (s.rst.phase = .inReset && s.rst.coldKind))) }
  unfold ModePower Glb.stayDecommissioned
  split <;> rfl

theorem assertReset_debugAllowed : DebugAllowed (s.assertReset cold src) := Nat.zero_le _

/-- Entering a P3 mode leaves no schedule and enters the mode in its power state. -/
theorem enterShallows_sch : s.enterShallows.sch = {} := rfl
theorem enterShallows_mode : s.enterShallows.glb.mode = .shallows ∧ s.enterShallows.glb.power = 3 := ⟨rfl, rfl⟩
theorem enterShallows_pending : s.enterShallows.pending = s.pending := rfl
theorem enterDecommission_sch : s.enterDecommission.sch = {} := rfl
theorem enterDecommission_mode : s.enterDecommission.glb.mode = .decommission ∧ s.enterDecommission.glb.power = 3 := ⟨rfl, rfl⟩
theorem enterDecommission_pending : s.enterDecommission.pending = s.pending := rfl

end Sys2Proof.Machine
end

