-- ==== Sys2Proof/Machine/Package.lean ====
section
/-!
DEFINITION. Pins, rails, package and power (chapter 21): where every ball lies, what each rail and pin must meet, and what the device
draws. Lengths are in micrometres, voltages in millivolts, currents in milliamperes, powers in tenths of a watt, temperatures in tenths
of a degree Celsius.
-/

namespace Sys2Proof.Machine

/-! ### Package and balls (R454-R459) -/

structure PackageData where
  body : Nat
  rows : Nat
  cols : Nat
  pitch : Nat
  span : Nat
  border : Nat
  ballDiameter : Nat
  standoff : Nat
  height : Nat
  lid : Nat
  coplanarity : Nat
  massGrams : Nat
  lidLoadNewton : Nat
  msl : Nat
  reflowPeak : Nat
  reflows : Nat
  deriving DecidableEq, Repr

/-- The package (R454). -/
def package : PackageData :=
  { body := 70000, rows := 68, cols := 68, pitch := 1000, span := 67000, border := 1500, ballDiameter := 600, standoff := 450, height := 4650
    lid := 66000, coplanarity := 200, massGrams := 58, lidLoadNewton := 450, msl := 3, reflowPeak := 2500, reflows := 3 }

/-- A ball's region: the band of a quadrant, with the coordinates p along the edge and d from it, or the centre (R455). -/
inductive Region where
  | band (q p d : Nat)
  | centre
  deriving DecidableEq, Repr

/-- The region of the ball in row `y` and column `x`, each 1 to 68 (R455). -/
def regionOf (y x : Nat) : Region :=
  if x ≤ 14 && 15 ≤ y then .band 0 (y - 14) x
  else if y ≤ 14 && x ≤ 54 then .band 1 x y
  else if 55 ≤ x && y ≤ 54 then .band 2 y (69 - x)
  else if 55 ≤ y && 15 ≤ x then .band 3 (x - 14) (69 - y)
  else .centre

/-- The row and column of band coordinates (R455). -/
def bandBall (q p d : Nat) : Nat × Nat :=
  if q = 0 then (14 + p, d) else if q = 1 then (d, p) else if q = 2 then (p, 69 - d) else (69 - d, 14 + p)

/-- The supply rails (R465). -/
inductive Rail where
  | core | sram | lane | laneA | io | ao
  deriving DecidableEq, Repr

/-- What a ball carries; pairs name their true (true) and complement (false) side. -/
inductive Ball where
  | laneTx (n : Nat) (p : Bool)
  | laneRx (n : Nat) (p : Bool)
  | pcieTx (k : Nat) (p : Bool)
  | pcieRx (k : Nat) (p : Bool)
  | pcieRefclk (p : Bool)
  | perstN
  | extIn (n : Nat) (p : Bool)
  | localOsc (p : Bool)
  | clkOut (p : Bool)
  | fsyncIn | fsyncOut | ppsIn
  | twinHbOut | twinHbIn | twinActOut | twinActIn
  | tamperN | resetN | intN
  | qspiClk | qspiCsN
  | qspiIo (k : Nat)
  | pmbusClk | pmbusData | pmbusAlertN
  | tck | tms | tdi | tdo | trstN
  | vsense (p : Bool)
  | gpio (n : Nat)
  | dnc
  | supply (r : Rail)
  | vss
  deriving DecidableEq, Repr

/-- A ball of a band (R456). -/
def bandContent (q p d : Nat) : Ball :=
  let e := 32 * q + 2 * ((p - 4) / 3)
  if p < 4 || 51 < p then (if 13 ≤ d then .supply .lane else .vss)
  else if (p - 4) % 3 = 0 then
    (if d = 2 || d = 3 then .laneTx e (d = 2) else if d = 5 || d = 6 then .laneTx (e + 1) (d = 5)
     else if d = 8 || d = 9 then .laneRx e (d = 8) else if d = 11 || d = 12 then .laneRx (e + 1) (d = 11)
     else if d = 14 then .supply .laneA else .vss)
  else if (p - 4) % 3 = 1 then (if d = 14 then .supply .lane else .vss)
  else if 13 ≤ d then .supply .lane else .vss

/-- The signals with index 35 to 64 (R458). -/
def signalList : List Ball :=
  [.localOsc true, .localOsc false, .clkOut true, .clkOut false, .fsyncIn, .fsyncOut, .ppsIn, .twinHbOut, .twinHbIn, .twinActOut, .twinActIn,
   .tamperN, .resetN, .intN, .qspiClk, .qspiCsN, .qspiIo 0, .qspiIo 1, .qspiIo 2, .qspiIo 3, .pmbusClk, .pmbusData, .pmbusAlertN,
   .tck, .tms, .tdi, .tdo, .trstN, .vsense true, .vsense false]

/-- A ball of the signal block by its index (R458). -/
def signalContent (i : Nat) : Ball :=
  if i < 8 then .pcieTx (i / 2) (i % 2 = 0)
  else if i < 16 then .pcieRx ((i - 8) / 2) (i % 2 = 0)
  else if i < 18 then .pcieRefclk (i = 16)
  else if i = 18 then .perstN
  else if i < 35 then .extIn ((i - 19) / 2) (i % 2 = 1)
  else if 65 ≤ i && i < 129 then .gpio (i - 65)
  else signalList[i - 35]?.getD .dnc

/-- A ball of the centre (R457, R458). -/
def centreContent (y x : Nat) : Ball :=
  if x ≤ 26 && y ≤ 26 then signalContent (12 * (y - 15) + (x - 15))
  else if y = 15 && x ≤ 38 then .supply .io
  else if y = 16 && x ≤ 30 then .supply .io
  else if y = 16 && x ≤ 38 then .supply .ao
  else if (x + y) % 2 = 1 then .vss
  else if 51 ≤ y then .supply .sram else .supply .core

/-- What the ball in row `y` and column `x` carries (R455-R458). -/
def ballAt (y x : Nat) : Ball :=
  match regionOf y x with
  | .band q p d => bandContent q p d
  | .centre => centreContent y x

/-- The ball of the signal block with index `i` (R458). -/
def signalBall (i : Nat) : Nat × Nat := (15 + i / 12, 15 + i % 12)

/-- The balls that carry what `f` holds of. -/
def ballCount (f : Ball → Bool) : Nat :=
  ((List.range 68).map fun y => ((List.range 68).filter fun x => f (ballAt (y + 1) (x + 1))).length).sum

/-! ### Lanes and logic pins (R460-R463) -/

/-- The interface that a lane meets at a rate, 112.5, 56.25 or 27.95 Gbit/s, and a reach class (R460). -/
def laneInterface (rate reach : Nat) : String :=
  if rate = 0 then (if reach = 2 then "CEI-112G-VSR-PAM4" else "CEI-112G-LR-PAM4")
  else if rate = 1 then (if reach = 1 then "CEI-56G-MR-PAM4" else if reach = 2 then "CEI-56G-VSR-PAM4" else "CEI-56G-LR-PAM4")
  else if reach = 1 then "CEI-28G-MR" else if reach = 2 then "CEI-28G-VSR" else "CEI-28G-LR"

/-- The taps that `LANE.PHY_CFG` sets, in 64ths, from c(-2) to c(+1): the main tap is 1 less the magnitudes of the others (R461). -/
def phyTaps (v : W32) : Int × Int × Int × Int :=
  let f (lo w : Nat) : Int := fld v.toNat lo w
  (f 24 4, -f 18 6, 64 - f 24 4 - f 18 6 - f 12 6, -f 12 6)

/-- The differential swing that `LANE.PHY_CFG` sets, in millivolts (R461). -/
def phySwing (v : W32) : Nat := 400 + 10 * min 50 (fld v.toNat 0 6)

/-- A clock input works single-ended where its complement reads below 0.1 V at reset release (R462). -/
def extSingleEnded (nMv : Nat) : Bool := nMv < 100

/-- The levels of a logic pin with its supply: VIH min, VIL max, VOH min, VOL max (R463). -/
def logicLevels (vddio : Nat) : Nat × Nat × Nat × Nat := (65 * vddio / 100, 35 * vddio / 100, vddio - 450, 450)

/-! ### Rails (R465-R469) -/

/-- The nominal voltage of a rail. -/
def Rail.nominal : Rail → Nat
  | .core => 720
  | .sram => 800
  | .lane => 750
  | .laneA => 1200
  | .io => 1800
  | .ao => 800

/-- A rail of `v` tenths of a millivolt lies in its operating range; VDD_CORE follows the commanded value (R465). -/
def Rail.inRange (cmdMv : Nat) (v : Nat) : Rail → Bool
  | .core => 975 * cmdMv ≤ 100 * v && 100 * v ≤ 1025 * cmdMv
  | .sram => 7760 ≤ v && v ≤ 8240
  | .lane => 7275 ≤ v && v ≤ 7725
  | .laneA => 11640 ≤ v && v ≤ 12360
  | .io => 17100 ≤ v && v ≤ 18900
  | .ao => 7600 ≤ v && v ≤ 8400

/-- Typical and maximum current of a rail. -/
def Rail.current : Rail → Nat × Nat
  | .core => (150000, 186000)
  | .sram => (21500, 27000)
  | .lane => (80000, 84000)
  | .laneA => (15800, 17000)
  | .io => (400, 900)
  | .ao => (100, 100)

/-- The rail that must have passed 90 % of its nominal value before this one ramps up, and after which it goes in power-down (R466,
R467): VDD_AO and VDDIO are the first. -/
def Rail.after : Rail → Option Rail
  | .core => some .ao
  | .sram => some .core
  | .lane => some .sram
  | .laneA => some .lane
  | .io | .ao => none

/-- The absolute maximum of a rail; none may go below -0.3 V (R468). -/
def Rail.absMax : Rail → Nat
  | .core | .sram | .ao => 950
  | .lane => 900
  | .laneA => 1450
  | .io => 2200

/-- Junction temperatures: the operating range (R469), the absolute maximum and the storage range (R468). -/
def junctionRange : Int × Int := (-50, 1050)
def junctionMax : Int := 1250
def storageRange : Int × Int := (-550, 1250)

/-! ### Power and heat (R470, R471) -/

/-- Typical and maximum power of a mode, before gating (R470). -/
def Mode.draw : Mode → Nat × Nat
  | .service | .degraded | .mateFollow => (2050, 2480)
  | .provisioning => (1680, 2060)
  | .bringUp => (950, 1400)
  | .hold => (380, 460)
  | .shallows | .decommission => (90, 120)

/-- What gating an island of the gated-island mask saves: a cluster pair, an engine island or a cipher island. -/
def islandSaving (bit : Nat) : Nat := if bit < 16 then 83 else if bit < 20 then 43 else 80

/-- The typical power (R470): in P1 less what each gated island saves; the cipher islands of the SLG9128-N are gated always, and save 16 W in
every mode but those of P3. -/
def State.typicalPower (s : State) : Nat :=
  let p := s.glb.mode.draw.1
  if s.glb.mode = .shallows || s.glb.mode = .decommission then p
  else
    let n := if s.rst.variant = 2 then 160 else 0
    let gated := if s.glb.power = 1 then ((List.range (if s.rst.variant = 2 then 20 else 22)).filter (s.pwr.gated.getLsbD ·)).map islandSaving else []
    p - n - gated.sum

/-- Thermal resistance from junction to lid in hundredths of a degree per watt, and maximum power, of the core die and of a quadrant die
(R471). -/
def coreDie : Nat × Nat := (15, 870)
def quadrantDie : Nat × Nat := (30, 403)

/-- The rise of a die above the lid. -/
def lidRise (d : Nat × Nat) : Nat := (d.1 * d.2 + 50) / 100

/-- The lid temperature that keeps the core die within 105 degrees at the maximum power (R471). -/
def lidLimit : Nat := 1050 - lidRise coreDie

end Sys2Proof.Machine
end

