-- ==== Sys2Proof/WellFormed.lean ====
section
/-!
DEFINITION. Which operands a command can carry: the numbers that name an object lie in the ranges the spec gives the object, and
a measured list has one entry for each thing measured. The meanings are total; a command outside these ranges names nothing.
-/

namespace Sys2Proof

/-- A mailbox request: one of MB0-MB7, a payload of at most 4,080 bytes (R335, R340). -/
def MbReq.wf (r : MbReq) : Bool := r.mb < 8 && r.payload.length ≤ 4080

/-- A transaction at a weir: cases 1-5 of R399, a master of R362 and a target code of R365. -/
def WeirTxn.wf (t : WeirTxn) : Bool := 1 ≤ t.kind && t.kind ≤ 5 && t.master < 10 && t.target < 16 && t.addr < 2 ^ 28

/-- A march mismatch: a memory of R367 and one of its 72 bit-columns of 8 words (R374). -/
def Mismatch.wf (m : Mismatch) : Bool := (m.memory ≤ 0x18 || (0x20 ≤ m.memory && m.memory ≤ 0x2F) || (0x40 ≤ m.memory && m.memory ≤ 0xC3)) && m.col < 576

/-- What the outside gives a frame: contexts, endpoints, streams, islands and counters that exist (R13, R86, R218, R442). -/
def FrameInput.wf (f : FrameInput) : Bool :=
  f.arrivals.all (fun e => e.1 < 16384) && f.residual.all (fun e => e.1 < 16384) && f.msi.all (fun e => e.1 < 128 && e.2.length ≤ 80) &&
  f.lcr.all (fun e => e.1 < 2 && e.2.1 < 16384) && f.multiframe.all (· < 128) && f.loflom.all (· < 16384) &&
  f.ramp.all (· < 16384) && f.endpoints.all (fun e => e.ep < 262144) && f.acks.all (· < 22) && f.stopped.all (· < 22) &&
  f.perf.all (fun e => e.1 < 778) && f.tuCheck.all (· < 2) && f.noEdge.all (· < 40) && f.testCheck.all (· < 128)

/-- A line group, a lane, an engine, a tributary, a protection group, a candidate and a key slot by number. -/
def laneNo (n : Nat) : Bool := n < 128
def engineNo (n : Nat) : Bool := n < 1024
def tribNo (n : Nat) : Bool := n < 16384
def pgNo (n : Nat) : Bool := n < 8192
def candNo (n : Nat) : Bool := n < 40
def slotNo (n : Nat) : Bool := n < 16384
def pondNo (n : Nat) : Bool := n < 132
def funcNo (n : Nat) : Bool := n < 44

/-- A cipher pipeline by cluster, side and pipe (R277). -/
def pipeNo (cluster side pipe : Nat) : Bool := cluster < 16 && side < 2 && pipe < 9

/-- A member of a redundant pair: pair 0 the timing units, pair 1 the CPs (R427). -/
def memberNo (pair unit : Nat) : Bool := pair < 2 && unit < 2

/-- The checks of one command. -/
def Instr.wf : Instr → Bool
  | .powerOn | .resetNAssert | .resetRelease | .fuseLoadDone | .flashBoot _ | .bootTimeout | .coreRelease _ | .ppsAlignTimeout => true
  | .pllLockTimeout island => funcNo island
  | .bringUpMarchDone first e => first.all Mismatch.wf && e.second.all Mismatch.wf && e.wires.all fun w => w.1 < 4
  | .bootOk m => m = .cpA || m = .cpB
  | .hostColdReset _ | .hostWarmReset _ | .ioHoldRelease | .tamperAlarm _ | .wipeComplete _ _ => true
  | .functionResetRequest _ txns | .perstNAssert txns => txns.all WeirTxn.wf
  | .pendingResetApply f txns => funcNo f && txns.all WeirTxn.wf
  | .functionResetRelease f => funcNo f
  | .pcieFlr pf txns => pf < 2 && txns.all WeirTxn.wf
  | .critParityError unit _ => unit < 16
  | .frameBoundary inp => inp.wf
  | .secondBoundary meas => meas.all fun c => candNo c.cand
  | .ppsEdge _ | .ppsLoss => true
  | .signalDetected n | .signalLost n | .adaptConverged n | .adaptTimeout n | .huntAccept n | .huntTimeout n | .dlofDeclare n
  | .cdrLockLoss n | .laneTryWindowEnd n => laneNo n
  | .lineFrame n f => laneNo n && f.logical < 5
  | .burstDetected n _ _ | .stitchFrame n _ | .stitchToken n _ => laneNo n
  | .deskewDone g delays => laneNo g && delays.length ≤ 20
  | .osmcPdu g _ _ | .osmcTimeout g | .osmcInfoTx g => laneNo g
  | .tribOpen t | .dfcmovfDeclare t | .dfcmovfClear t | .encryptBlockStart t | .headerReceived t _ | .tagCheck t _ _
  | .untrustClear t => tribNo t
  | .mirrorRecord _ | .commitNotice | .domainReadiness | .domainVeto | .commitDecision | .commitTakeEffect
  | .rollbackTakeEffect | .domainIdCheck | .schLoadDone | .dmaSReadError | .bmeLost | .schCopyDone | .schCheckDone => true
  | .scrubStep memory _ _ => memory < 256
  | .marchStep mismatch => mismatch.all fun p => pondNo p.1
  | .pondPermanentFault p => pondNo p
  | .pondRepairMarchDone p first second => pondNo p && first.all Mismatch.wf && second.all Mismatch.wf
  | .diagMarchDone found => found.all Mismatch.wf
  | .engineFaultEvent e cause => engineNo e && cause < 16
  | .engineRestart e | .engineSelfTestDone e _ | .engineWindowEnd e => engineNo e
  | .harvestStart | .harvestDone | .harvestTruncate => true
  | .holdOffExpire pg _ _ | .wtrExpire pg | .apsAccept pg _ | .fopNrTimeout pg => pgNo pg
  | .pipeMismatch c side p _ | .pipeSelfTestDone c side p _ => pipeNo c side p
  | .pipeHandover c side t => pipeNo c side 0 && tribNo t
  | .spareKat c side _ => pipeNo c side 0
  | .candActivityLoss n | .candWtrExpire n | .qlTimeout n | .disputeClear n => candNo n
  | .disputeCompare n m _ _ => candNo n && candNo m
  | .timTransitionEnd | .timLock | .timLockLoss _ | .hoReady _ | .holdoverLimit | .tuPeriodicSwap | .tuEdgeMissing => true
  | .heartbeatLoss pair unit _ _ | .unitReady pair unit | .resyncTimeout pair unit | .unitWindowEnd pair unit => memberNo pair unit
  | .cpPeriodicSwap | .journalRecord | .twinHbLoss | .twinActivate | .twinStandbyTakeover | .twinJoinAligned _ | .twinJoinDone
  | .twinHandover _ => true
  | .conjPinEdge pin _ => pin < 64
  | .tempSample readings => readings.length = 16
  | .avsTick counts => counts.length ≤ 16
  | .avsPoll mv _ => mv < 65536
  | .pmbusRetry _ | .pmbusAlert _ => true
  | .islandGate bit => bit < 22
  | .resizeComplete a b cause => tribNo a && tribNo b && cause < 5
  | .pondFlip | .perfSnapshotDone | .jtagScan | .devResetStart => true
  | .pertCountdownEnd control => control < 8
  | .tagRecord t => t.src < 6 && t.engine < 256
  | .jtagDebugSet level => level < 4
  | .jtagFuseProgram _ _ seed _ _ => seed.length = 32
  | .mailboxReopen mb => mb < 8
  | .msixUnmask | .intEoi _ | .mbEvConsWrite _ _ => true
  | .mbRequestWrite mb off _ _ => mb < 8 && off < 0x1000
  | .futureWindowWriteLo _ k _ _ | .futureWindowWriteHi _ k _ _ => k < 2097152
  | .coherentRead _ _ | .clearingRead _ _ | .registerWrite _ _ _ _ _ => true
  | .aliasWrite a _ _ | .aliasRead a => 0x200000 ≤ a && a < 0x22A000
  | .busDecodeError _ _ target _ => target < 16
  | .remapWrite _ _ => true
  | .phyCfgWrite n _ _ => laneNo n
  | .pondMaintRead p _ cycle | .pondMaintWrite p _ cycle => pondNo p && cycle < 16384
  | .keyDeskClaim | .keyDeskRelease | .keyDeskComplete | .perfFreeze _ | .perfSnapshot | .perfClear | .tagBufferClear => true
  | .deskLoad k _ | .deskActivate k | .deskEraseNext k | .deskEraseSlot k => slotNo k
  | .devInfo r | .devCpSwap r | .devLcChallenge r | .devDebugSet r | .devRedCfg r | .devUnitStatus r | .devUnitReadmit r | .devGpioCfg r
  | .grpCreate r | .grpDelete r | .grpStatus r | .laneRetire r | .laneReadmit r | .grpSetOptions r
  | .trbStatus r | .trbResize r | .trbResizeAbort r
  | .schCopy r | .schPrepare r | .schUnprepare r | .schArm r | .schDisarm r | .schRollback r | .schStatus r
  | .conjNotice r | .conjCancel r | .conjPinCfg r | .conjStatus r
  | .epPlace r | .epConfig r | .epStatus r | .epHarvestCfg r | .engStatus r | .engReadmit r
  | .pgCommand r | .pgStatus r | .pgList r
  | .keyLock r | .keyActivate r | .keyErase r | .keyStatus r | .keyPipeStatus r | .keyPipeReadmit r
  | .timCfg r | .timCandCfg r | .timSetQl r | .timStatus r | .timHistory r | .timSwap r
  | .pwrHold r | .pwrResume r | .pwrStatus r | .pwrGateUnused r
  | .diagMarch r | .diagLog r | .diagPondSpare r | .diagPondRestore r | .diagMemStatus r | .diagPerfAccess r
  | .fwInfo r | .fwWrite r | .fwSelect r | .fwLiveUpdate r | .fwRecoverStart r
  | .twinJoin r | .twinLeave r | .twinStatus r | .twinCfg r | .twinYield r | .domCfg r | .domStatus r | .stcLaneSet r
  | .stcLaneRelease r => r.wf
  | .devDecommission r _ | .devLcAdvance r _ | .keyLoad r _ | .schLoad r _ => r.wf
  | .devReset r txns => r.wf && txns.all WeirTxn.wf
  | .quadrantFailure q => q < 4
  | .jtagCpHalt unit _ => unit < 2
  | .tamperConditionEnd _ | .powerDown => true
  | .elasticBufferRecentring cluster => cluster < 16
  | .cpBankUncorrectableError unit => unit < 2

end Sys2Proof
end

