-- ==== Sys2Proof/Tests/Slice0.lean ====
section
/-!
SUPPORT. Tests: the checks of well-formed commands, values the spec's worked examples give, and for each statement of
Obligations.lean a state and operands that meet the hypotheses of each of its clauses.
-/

open Sys2Proof Sys2Proof.Machine

namespace Sys2Proof.Tests

/-! ### Well-formed commands: an ill-formed term for each check -/

def badTxn : WeirTxn := ⟨6, 0, 0, 0, 0⟩
def badCell : Mismatch := ⟨0x1F, 0, 0, 0⟩
def badReq : MbReq := ⟨8, 0, 0, 0, 0, []⟩

theorem test_wf_refuses_ranges :
    (WeirTxn.wf badTxn || WeirTxn.wf ⟨0, 0, 0, 0, 0⟩ || WeirTxn.wf ⟨1, 10, 0, 0, 0⟩ || WeirTxn.wf ⟨1, 0, 16, 0, 0⟩ ||
      WeirTxn.wf ⟨1, 0, 0, 0, 2 ^ 28⟩ || Mismatch.wf badCell ||
      Mismatch.wf ⟨0xC4, 0, 0, 0⟩ || Mismatch.wf ⟨0, 0, 0, 576⟩ || MbReq.wf badReq ||
      MbReq.wf ⟨0, 0, 0, 0, 0, List.replicate 4081 0⟩) = false := by decide +kernel

theorem test_wf_refuses_inputs :
    (({ FrameInput.none with arrivals := [(16384, [])] }).wf || ({ FrameInput.none with residual := [(16384, 0)] }).wf ||
      ({ FrameInput.none with msi := [(128, [])] }).wf || ({ FrameInput.none with msi := [(0, List.replicate 81 none)] }).wf ||
      ({ FrameInput.none with lcr := [(2, 0, 0)] }).wf || ({ FrameInput.none with multiframe := [128] }).wf || ({ FrameInput.none with loflom := [16384] }).wf ||
      ({ FrameInput.none with ramp := [16384] }).wf || ({ FrameInput.none with endpoints := [⟨262144, [], 0, none⟩] }).wf ||
      ({ FrameInput.none with acks := [22] }).wf || ({ FrameInput.none with stopped := [22] }).wf ||
      ({ FrameInput.none with perf := [(778, 1)] }).wf || ({ FrameInput.none with noEdge := [40] }).wf ||
      ({ FrameInput.none with testCheck := [128] }).wf || ({ FrameInput.none with tuCheck := [2] }).wf) = false := by decide

theorem test_wf_refuses_commands :
    ([Instr.pllLockTimeout 44, .bringUpMarchDone [badCell] ⟨[], []⟩, .bringUpMarchDone [] ⟨[badCell], []⟩, .bringUpMarchDone [] ⟨[], [(4, 0)]⟩, .bootOk .dmaS,
      .functionResetRequest 0 [badTxn], .perstNAssert [badTxn], .pendingResetApply 44 [], .pendingResetApply 0 [badTxn],
      .functionResetRelease 44, .pcieFlr 2 [], .pcieFlr 0 [badTxn], .critParityError 16 0,
      .frameBoundary { FrameInput.none with acks := [22] }, .secondBoundary [⟨40, 0, true⟩]].any Instr.wf) = false := by decide

theorem test_wf_refuses_line_commands :
    ([Instr.signalDetected 128, .signalLost 128, .adaptConverged 128, .adaptTimeout 128, .huntAccept 128, .huntTimeout 128,
      .dlofDeclare 128, .cdrLockLoss 128, .laneTryWindowEnd 128, .lineFrame 128 ⟨[], 0, true, 0, 0, [], false, (0, 0, 0)⟩, .lineFrame 0 ⟨[], 5, true, 0, 0, [], false, (0, 0, 0)⟩, .burstDetected 128 0 0,
      .stitchFrame 128 ⟨true, 0, 0, 0, 0, 0, 0, [], []⟩, .stitchToken 128 0, .deskewDone 128 [], .deskewDone 0 (List.replicate 21 0),
      .osmcPdu 128 0 [], .osmcTimeout 128, .osmcInfoTx 128, .tribOpen 16384, .dfcmovfDeclare 16384, .dfcmovfClear 16384,
      .encryptBlockStart 16384, .headerReceived 16384 ⟨0, 0, 0⟩, .tagCheck 16384 0 true, .untrustClear 16384].any Instr.wf) = false := by
  decide

theorem test_wf_refuses_unit_commands :
    ([Instr.scrubStep 256 0 0, .marchStep [(132, 0)], .pondPermanentFault 132, .pondRepairMarchDone 132 [] [],
      .pondRepairMarchDone 0 [badCell] [], .pondRepairMarchDone 0 [] [badCell], .diagMarchDone [badCell], .engineFaultEvent 1024 1,
      .engineFaultEvent 0 16, .engineRestart 1024, .engineSelfTestDone 1024 true, .engineWindowEnd 1024, .holdOffExpire 8192 true true,
      .wtrExpire 8192, .apsAccept 8192 0, .fopNrTimeout 8192, .pipeMismatch 16 0 0 1, .pipeMismatch 0 2 0 1, .pipeMismatch 0 0 9 1,
      .pipeSelfTestDone 16 0 0 true, .pipeHandover 0 0 16384, .pipeHandover 16 0 0, .spareKat 16 0 true].any Instr.wf) = false := by decide

theorem test_wf_refuses_timing_and_host_commands :
    ([Instr.candActivityLoss 40, .candWtrExpire 40, .qlTimeout 40, .disputeClear 40, .disputeCompare 40 0 0 0, .disputeCompare 0 40 0 0,
      .heartbeatLoss 2 0 true true, .unitReady 0 2, .resyncTimeout 2 0, .unitWindowEnd 2 0, .conjPinEdge 64 true, .tempSample [],
      .avsTick (List.replicate 17 0), .avsPoll 65536 0, .islandGate 22, .resizeComplete 16384 0 0, .resizeComplete 0 16384 0,
      .resizeComplete 0 0 5, .pertCountdownEnd 8, .tagRecord ⟨6, 0, 0, 0, 0, 0, 0, 0⟩, .tagRecord ⟨0, 256, 0, 0, 0, 0, 0, 0⟩, .jtagDebugSet 4,
      .jtagFuseProgram 0 0 [] [] [], .mailboxReopen 8, .mbRequestWrite 8 0 15 0, .mbRequestWrite 0 0x1000 15 0,
      .futureWindowWriteLo .pcie 2097152 15 0, .futureWindowWriteHi .pcie 2097152 15 0, .aliasWrite 0x1FFFFF 15 0, .aliasRead 0x22A000,
      .busDecodeError .pcie true 16 0, .phyCfgWrite 128 15 0, .pondMaintRead 132 0 0, .pondMaintRead 0 0 16384, .pondMaintWrite 132 0 0,
      .pondMaintWrite 0 0 16384, .deskLoad 16384 ⟨⟨0, 0⟩, ⟨0, 0⟩⟩, .deskActivate 16384, .deskEraseNext 16384, .deskEraseSlot 16384,
      .quadrantFailure 4, .jtagCpHalt 2 true, .elasticBufferRecentring 16, .cpBankUncorrectableError 2].any Instr.wf) = false := by decide

theorem test_wf_refuses_requests :
    ([Instr.devInfo badReq, .devDecommission badReq true, .devLcAdvance badReq true, .devReset badReq [],
      .devReset ⟨0, 0, 0, 0, 0, []⟩ [badTxn], .keyLoad badReq ⟨⟨0, 0⟩, ⟨0, 0⟩⟩, .schLoad badReq [], .schArm badReq, .conjNotice badReq,
      .epPlace badReq, .pgCommand badReq, .timCfg badReq, .pwrHold badReq, .fwInfo badReq, .twinJoin badReq].any Instr.wf) = false := by
  decide

theorem test_wf_accepts :
    ([Instr.powerOn, .pllLockTimeout 43, .pcieFlr 1 [⟨5, 9, 15, 4, 0⟩], .critParityError 15 0, .signalLost 127, .tagCheck 16383 0 true,
      .engineFaultEvent 1023 15, .pipeMismatch 15 1 8 3, .candWtrExpire 39, .aliasRead 0x229FFC, .mailboxReopen 7,
      .devInfo ⟨7, 0, 0, 0, 0, []⟩].all Instr.wf) = true := by decide

/-! ### States for the tests -/

end Sys2Proof.Tests

namespace Sys2Proof
open Sys2Proof.Tests

/-- Started, in Service. -/
def Machine.State.up (s : State) : State :=
  (s.modRst fun r => { r with phase := .started, powered := true, inReset := 0, pend := 0, scanDirty := false, cpHalted := 0, bootOkSeen := true }).modGlb fun g =>
    { g with released := true, mode := .service, power := 0 }
/-- Mailbox `mb` takes and answers its next command at once. -/
def Machine.State.open (s : State) (mb : Nat) : State :=
  ((((s.modRst fun r => { r with phase := .started, inReset := 0, pend := 0, scanDirty := false, cpHalted := 0, variant := 1 }).modMbx fun m =>
    { m with serving := true, waiting := [] }).modPert fun p => { p with bell := 0 }).modBox mb fun b => { b with state := .idle })
def Tests.rq (mb : Nat) (l : List Byte) : MbReq := ⟨mb, 5, 0, 0, BitVec.ofNat 32 l.length, l⟩
def Tests.base0 : State := (State.reset.up.open 0).open 6
def Machine.State.putLanes (l : Tbl Lane) (s : State) : State := { s with lanes := l }
def Machine.State.putGrps (l : Tbl Grp) (s : State) : State := { s with grps := l }
def Tests.aGrp : Grp := { lanes := 2, rate := 2, otl := false, gidTx := 7, gidExp := 7, contain := false, retireAuto := true, burstWin := 128, burstUcw := 64, expMap := [1, 2], txMap := [1, 2] }
def Machine.State.putGrp (g : Nat) (r : Grp) (s : State) : State := { s with grps := tins s.grps g r }
def Machine.State.ago (s : State) (n : Nat) : Cfn := s.tick - BitVec.ofNat 48 n
def Tests.aFrame : StitchRx := ⟨true, 9, 3, 2, 0, 500, 17, [(0, 5), (7, 0xFF)], []⟩
def Tests.anArmed (f : Cfn) : Armed := { target := f, effect := f, rollback := false, domain := false, resume := false, id := 9, origin := none }
def Machine.State.pv (s : State) (b : Bank) : State := s.modSch fun c => { c with bank0 := b, bank1 := b, bank2 := b, present := 0, past := 1, future := 2, present1 := 0, present2 := 0 }
def Machine.State.putProt (n : Nat) (r : PgRun) (s : State) : State := { s with prot := tins s.prot n r }
def Tests.aPg : Pg := { type := 0, active := true, revertive := true, aps := true, sd := true, wPond := 1, wRp := false, pPond := 2, pRp := false, wT := 3, pT := 4, wEp := 5, pEp := 6, apsEp := 7, holdOff := 1, init := 0, wtr := 300 }
def Machine.State.putBind (n : Nat) (r : BindRun) (x : Slot) (s : State) : State := s.modKey fun k => { k with binds := tins k.binds n r, slots := tins k.slots 9 x }
def Tests.aBank : Bank := { ckey := [(5, ⟨9, true, 1⟩), (16384 + 5, ⟨9, true, 1⟩)], ing := [(5, { active := true, type := 1, stream := 127, n := 100 })], eg := [(5, { active := true, type := 1, stream := 3, n := 100 })] }
def Machine.State.live (s : State) : State := ((s.putLanes []).modLane 0 fun l => { l with role := .line, state := .locked }) |>.putGrps []
def Tests.goodHeader (inv : BitVec 48) (ki : Bool) : CipherHeader := ⟨inv, if ki then 0x80 else 0, BitVec.ofNat 8 (crc8 (beBytes 6 inv.toNat ++ [if ki then 0x80 else 0]))⟩
/-- A pair of bindings of slot 9 on tributary 5, in service. -/
def Machine.State.bound (s : State) : State := ((s.up.pv aBank).putGrps [(126, { aGrp with carrying := 3 })]).modDp fun d => { d with ing := [], eg := [] }
def Tests.curSlot : Slot := { h1 := { state := .current }, ki := true, inv := 41 }
def Machine.State.unit' (s : State) (p u : Nat) (f : UnitRun → UnitRun) : State := s.modCps fun c => c.modUnit p u f
def Tests.zs (n : Nat) : List Byte := List.replicate n 0
def Tests.aLine : LineFrame := ⟨[], 0, true, 7, 1, [1, 2], false, (0, 0, 0)⟩
def Tests.anEsmc : List Byte := [0x0A, 0x00, 0x19, 0xA7, 0x00, 0x01, 0x10, 0, 0, 0, 0x01, 0x00, 0x04, 0x02]

end Sys2Proof

namespace Sys2Proof.Tests

/-! ### Values of the spec's worked examples -/

/-- The empty key header of the example in spec/11: KI 1, invocation 0, HCRC 0x89. -/
theorem test_headerCrc : crc8 (beBytes 6 0 ++ [0x80]) = 0x89 := by decide +kernel

/-- The digits 1 to 9, over which the check value of each CRC is published. -/
def digits : List Byte := [0x31, 0x32, 0x33, 0x34, 0x35, 0x36, 0x37, 0x38, 0x39]

theorem test_crc8 : crc8 digits = 0xF4 := by decide +kernel
theorem test_crc16 : crc16 digits = 0x29B1 := by decide +kernel
theorem test_crc32 : crc32 digits = 0xCBF43926 := by decide +kernel
theorem test_crc32c : crc32c digits = 0xE3069283 := by decide +kernel

/-- The entry of the example in spec/05 (R117): pond 3, read column 5, egress column 17. -/
theorem test_mapEntry :
    let e : Entry := 0x8060_0280_2200#48
    e.v = true ∧ e.kind = 0 ∧ e.rp = 0 ∧ e.pond = 3 ∧ e.srcCol = 5 ∧ e.dstCol = 17 ∧ e.formatOk = true ∧
      0x0100_0000 + entryKey 40 300 * 8 = 0x0150_0960 := by decide +kernel

def openFuture : State := base0.up.modSch fun c => { c with futState := .opened, present := 0, past := 1, future := 2 }

/-- The two host writes of the same example store the entry. -/
theorem test_futureWindowWriteHi :
    (match execFutureWindowWriteLo .pcie 655660 0xF 0x0280_2200 openFuture with
     | .next t => match execFutureWindowWriteHi .pcie 655660 0xF 0x0000_8060 t with
       | .next u => (u.futureBank.entry 655660).toNat
       | _ => 0
     | _ => 0) = 0x8060_0280_2200 := by decide +kernel

def odu2 : CtxCfg :=
  { active := true, type := 2, stream := 3, idx := 2, n := 1600
    qsMask := BitVec.ofNat 80 (maskOf [4, 5, 24, 25, 44, 45, 64, 65]), lineTs := BitVec.ofNat 80 (maskOf [4, 5]) }

/-- Position 0 and 1,599 of ingress context T210 of the example in spec/04. -/
theorem test_allotment :
    (odu2.allotment.length, odu2.allotment[0]?, odu2.allotment[1]?, odu2.allotment[1599]?) = (1600, some 4, some 5, some 15985) := by
  decide +kernel

/-- The stuff positions of R93, by hand: 0 and 8 of 16 at count 14, 0 alone at count 15, none at 16. -/
theorem test_stuffPositions :
    ([14, 15, 16].map fun c => ((dataPositions 16 c).zipIdx.filter fun p => !p.1).map Prod.snd) = [[0, 8], [0], []] := by decide +kernel

/-- The justification word of frame k + 1 of the same example, for k + 1 = 5. -/
theorem test_justificationWord :
    let w := jWord 2 0 false 5 1598 0
    jValid w 5 1600 = true ∧ jCount w = 1598 ∧ jSrc w = 2 ∧ jMaintOf w = 0 := by decide +kernel

def l8 : Lane := { role := .line, rate := 2, state := .locked, everLocked := true }
def l13 : Lane := { role := .line, rate := 2, state := .retired, everLocked := true, retired := true, tries := 3, sticky := 0x10 }
def clusterOne : State :=
  (base0.up.modPwr fun p => { p with gated := 0 }).putLanes [(8, l8), (9, l8), (10, l8), (11, l8), (12, l8), (13, l13), (14, l8), (15, l8)]

/-- The alias read of the example in spec/15: L8's value, BCAST_MIXED and the alias offset. -/
theorem test_aliasRead :
    (match execAliasRead 0x204100 clusterOne with
     | .next t => (tget 0 t.bus.readData 4, t.glb.intSticky.getLsbD 26, t.glb.bcastAddr)
     | _ => (0, false, 0)) = (0x6400_8000#32, true, 0x204100#24) := by decide +kernel

/-- L13's own value in that example. -/
theorem test_laneStat : l13.read 0x100 = 0x6DD0_8000 := by decide

/-- The alias write of its step 3 clears the sticky bits and leaves RETIRED, STATE and TRIES. -/
theorem test_aliasWrite :
    (match execAliasWrite 0x204100 0xF 0x003F_0000 clusterOne with
     | .next t => (t.lane 13).read 0x100
     | _ => 0) = 0x6DC0_8000 := by decide +kernel

/-- The groups of quadrant Q0 in the example of spec/03 and their streams. -/
theorem test_groupStreams :
    groupStreams 8 { aGrp with rate := 2, lanes := 8, otl := false } = [8, 9, 10, 11, 12, 13, 14, 15] ∧
    groupStreams 16 { aGrp with rate := 1, lanes := 8, otl := false } = [16, 18, 20, 22] ∧
    groupStreams 24 { aGrp with rate := 0, lanes := 4, otl := true } = [24] := by decide

def l8para : Para := { conjs := [⟨112, 0x3F, [1, 2, 3]⟩, ⟨128, 0x7F, [1, 2]⟩, ⟨144, 0xFF, [1]⟩, ⟨160, 0xFF, []⟩] }

/-- R194 on the paradigm of the example in spec/08: without slice 7 the index comes down from 3 to 1, without slice 6 to 0. -/
theorem test_paradigmLimit : l8para.limit 0xFF 3 = 3 ∧ l8para.limit 0x7F 3 = 1 ∧ l8para.limit 0xBF 2 = 0 := by decide

/-- The wait of 300 s in the example of spec/12, in core frames. -/
theorem test_secFrames : secFrames 300 = 29296875 ∧ secFrames 10 = 976563 ∧ secFrames 60 = 5859375 := by decide

/-- The request and the response of the example in spec/14 (t0 and t2). -/
theorem test_armBytes :
    reqImage 0x0405 ⟨1, 0x17, 0, 0, 24, leBytes 8 60000050 ++ [1, 0, 0, 0, 0, 0, 0, 0] ++ zs 8⟩ =
      [0x05, 0x04, 0x17, 0, 0x18, 0, 0, 0, 0, 0, 0, 0, 0, 0, 0, 0, 0x32, 0x87, 0x93, 0x03, 0, 0, 0, 0, 1, 0, 0, 0, 0, 0, 0, 0,
       0, 0, 0, 0, 0, 0, 0, 0] ∧
    msgHeader 0x0405 0x17 8 0 1 = [0x05, 0x04, 0x17, 0, 8, 0, 0, 0, 0, 0, 0, 0, 1, 0, 0, 0] ∧
    cfnBytes 60000030 = [0x1E, 0x87, 0x93, 0x03, 0, 0, 0, 0] := by decide

/-- A step takes the command at the front; the next is then the queue's front. -/
theorem test_stepTakesFront :
    (match step { base0 with pending := [.keyDeskClaim, .keyDeskRelease] } with
     | .next t => (t.pending, t.key.owner)
     | _ => ([], 9)) = ([Instr.keyDeskRelease], 1) := by decide +kernel

/-- Known answers of the standards of R4: SHA-256 of "abc" (FIPS 180-4), AES-256 (FIPS 197), and the first hash step of test case 2 of
GCM. -/
theorem test_sha256 :
    beNat (sha256 [0x61, 0x62, 0x63]) = 0xba7816bf8f01cfea414140de5dae2223b00361a396177a9cb410ff61f20015ad := by decide +kernel

theorem test_aes256 :
    aesBlock 0x000102030405060708090a0b0c0d0e0f101112131415161718191a1b1c1d1e1f 0x00112233445566778899aabbccddeeff =
      0x8ea2b7ca516745bfeafc49904b496089#128 := by decide +kernel

/-- The key data of section 4.6 of RFC 3394, unwrapped. -/
theorem test_unwrap :
    kwSteps (aesKeys 0x000102030405060708090A0B0C0D0E0F101112131415161718191A1B1C1D1E1F) 24 0x28C9F404C4B810F4
        [0xCBCCB35CFB87F826, 0x3F5786E2D80ED326, 0xCBC7F0E71A99F43B, 0xFB988B9B7A02DD21] =
      (0xA6A6A6A6A6A6A6A6, [0x0011223344556677, 0x8899AABBCCDDEEFF, 0x0001020304050607, 0x08090A0B0C0D0E0F]) := by decide +kernel

/-- A product in the byte field of AES. -/
def fieldTimes : Nat → Nat → Nat → Nat
  | 0, _, _ => 0
  | n + 1, a, b => (if b % 2 = 1 then a else 0) ^^^ fieldTimes n (if a < 128 then 2 * a else (2 * a) ^^^ 0x11B) (b / 2)

/-- The S-box of FIPS 197 takes a byte to the affine image of its inverse, and the other box undoes it. -/
theorem test_sBox : ((List.range 256).all fun a =>
    let s := byteAt sBox a
    let turn (n : Nat) : Nat := s * 2 ^ n % 256 + s / 2 ^ (8 - n)
    byteAt sBoxBack s = a && fieldTimes 8 a (turn 1 ^^^ turn 3 ^^^ turn 6 ^^^ 5) = (if a = 0 then 0 else 1)) = true := by decide +kernel

theorem test_ghash :
    ghashStep 0x66e94bd4ef8a2c3b884cfa59ca342b2e 0 0x0388dace60b6a392f328c2b971b2fe78 = 0x5e2ec746917062882c85b0685353deb7#128 := by
  decide +kernel

/-- The areas of a frame (R253): row 1 column 14, row 1 column 15, row 4 column 15 and row 4 column 17. -/
theorem test_areas : [13, 14, 3 * 3824 + 14, 3 * 3824 + 16].map areaOf = [.clear, .eoh 0, .psi, .payload] := by decide

/-- The balls of the Vanhal board (21, worked example): lane 45, the ground around its pair, and GPIO 12. -/
theorem test_balls :
    [(5, 22), (6, 22), (11, 22), (12, 22), (4, 22), (7, 22), (5, 23), (21, 20)].map (fun x => ballAt x.1 x.2) =
      [.laneTx 45 true, .laneTx 45 false, .laneRx 45 true, .laneRx 45 false, .vss, .vss, .vss, .gpio 12] ∧ signalBall 77 = (21, 20) := by decide

/-- The counts of R459 over all 4,624 balls. -/
theorem test_ballCounts :
    ballCount (· = .vss) = 2924 ∧ ballCount (· = .supply .core) = 636 ∧ ballCount (· = .supply .lane) = 240 ∧ ballCount (· = .dnc) = 15 := by
  decide +kernel

/-- R471: rises of 13.1 and 12.1 degrees, and a lid of at most 91.9. -/
theorem test_lid : (lidRise coreDie, lidRise quadrantDie, lidLimit) = (131, 121, 919) := by decide

/-! ### The hypotheses of the statements can be met -/

/-- An image with schedule ID 9 and one empty key section, and its header CRC, run in pieces. -/
def imageStart : List Byte := leBytes 4 0x53474C53 ++ [1, 0, 0, 1] ++ leBytes 8 9 ++ zs 10 ++ [1] ++ zs 5 ++ leBytes 8 320
def anImage : List Byte :=
  imageStart ++ zs 212 ++ leBytes 4 0xb86d7648 ++ leBytes 4 0x59454B43 ++ [1, 0, 0, 0] ++ leBytes 8 320 ++ zs 16 ++ zs 32
def crcRun (c : Nat) (l : List Byte) : Nat :=
  l.foldl (fun c b => ([0, 1, 2, 3, 4, 5, 6, 7] : List Nat).foldl
    (fun c _ => if c.testBit 0 then (c / 2) ^^^ 0x82F6_3B78 else c / 2) (c ^^^ b.toNat)) c
theorem crcRun_append (c : Nat) (l m : List Byte) : crcRun c (l ++ m) = crcRun (crcRun c l) m := List.foldl_append ..
theorem crc32c_run (l : List Byte) : crc32c l = crcRun 0xFFFFFFFF l ^^^ 0xFFFFFFFF := rfl
theorem anImage_crc : crc32c (slice anImage 0 0xFC) = 0xb86d7648 := by
  have e : slice anImage 0 0xFC = imageStart ++ (zs 53 ++ (zs 53 ++ (zs 53 ++ zs 53))) := by decide +kernel

  have a : crcRun 0xFFFFFFFF imageStart = 521942718 := by decide +kernel
  have b : crcRun 521942718 (zs 53) = 396581855 := by decide +kernel
  have c : crcRun 396581855 (zs 53) = 1085058290 := by decide +kernel
  have d : crcRun 1085058290 (zs 53) = 3040047733 := by decide +kernel
  have f : crcRun 3040047733 (zs 53) = 1200785847 := by decide +kernel
  rw [crc32c_run, e, crcRun_append, a, crcRun_append, b, crcRun_append, c, crcRun_append, d, f]
  decide
theorem anImage_header : headerOk anImage = true := by
  have h : leAt anImage 0xFC 4 = 0xb86d7648 := by decide +kernel
  have g : (leAt anImage 0 4 = 0x53474C53 && leAt anImage 4 1 = 1 && leAt anImage 6 2 = 0x100 && leAt anImage 0x19 1 ≤ 1 &&
    leAt anImage 0x1B 5 = 0 && allZero (slice anImage 0x30 16) && allZero (slice anImage 0x60 156)) = true := by decide +kernel
  unfold headerOk
  rw [anImage_crc, h, g]; decide
theorem step1_anImage (s : State) (h : s.twin.index.toNat = 0) :
    step1 s { data := anImage, total := 320, stop := true } = none := by
  unfold step1
  have l : anImage.length = 320 := by decide +kernel
  have h1 : imgSize anImage = 320 := by decide +kernel
  have h2 : leAt anImage 0x18 1 = 0 := by decide +kernel
  have h3 : imgId anImage = 9 := by decide +kernel
  have h4 : imgDelta anImage = false := by decide +kernel
  have h5 : leAt anImage 0x1A 1 = 1 := by decide +kernel
  have h6 : leAt anImage 0x10 8 = 0 := by decide +kernel
  have h7 : (tableErr 320 288 [] (imgSections anImage)).isNone = true := by decide +kernel
  have h8 : (imgSections anImage).any (fun e => e.ty = tyCKEY && e.count > 0) = false := by decide +kernel
  have h9 : tableErr 320 288 [] (imgSections anImage) = none := by simpa using h7
  simp [l, h1, h2, h3, h4, h5, h6, h9, h8, anImage_header, h]
def aDelivery : Delivery := deliver [(0, 4096), (2, 320), (3, 1)] [(4096, anImage)] 0 1
theorem aDelivery_eq : aDelivery = { data := anImage, total := 320, stop := true } := by
  have a : aDelivery.data = anImage := by decide +kernel
  have b : (aDelivery.total, aDelivery.fail, aDelivery.stop) = (320, false, true) := by decide +kernel
  cases h : aDelivery
  simp_all

/-- With nothing placed and no engine retired the engine at which the search starts takes the request. -/
theorem placeAll_isSome (s : State) (free : Nat) (q : List Byte) (h : s.presentBank.epwl = []) (g : s.eng.engs = [])
    (c : s.placeCost (leAt q 0 2) (slice q 4 8) ≤ 9728) : (s.placeAll free [q]).isSome = true := by
  have hf : ∀ e, s.headroom [] e (s.placeCost (leAt q 0 2) (slice q 4 8)) = true := by
    intro e; simp [State.headroom, State.loadWith, h, tfind, c]
  have hu : ∀ e, (s.understudyFor [] e (s.placeCost (leAt q 0 2) (slice q 4 8))).isSome = true := by
    intro e
    simp only [State.understudyFor, State.loadWith, h, tfind, List.find?_isSome, List.find?_nil]
    refine ⟨if e = e / 256 * 256 then e / 256 * 256 + 1 else e / 256 * 256, ?_⟩
    split <;> simp [Eng.run, g, tget, tfind, c] <;> omega
  have hp : ∀ e, (s.freeEndpoint [] e).isSome = true := by
    intro e
    simp [State.freeEndpoint, Bank.items, h, List.find?_isSome]
    exact ⟨0, by omega⟩
  have ho : (s.placeOne free [] q).isSome = true := by
    simp only [State.placeOne, List.findSome?_isSome_iff]
    refine ⟨_, List.mem_map.2 ⟨0, by simp, rfl⟩, ?_⟩
    obtain ⟨u, hu⟩ := Option.isSome_iff_exists.1 (hu (s.placeIsland free (leAt q 2 1) (slice q 4 8) * 256 + (free + 0) % 256))
    obtain ⟨p, hp⟩ := Option.isSome_iff_exists.1 (hp (s.placeIsland free (leAt q 2 1) (slice q 4 8) * 256 + (free + 0) % 256))
    rw [hu, hp, hf]
    simp [Eng.run, g, tget, tfind]
  obtain ⟨x, hx⟩ := Option.isSome_iff_exists.1 ho
  simp [State.placeAll, hx]

/-- A request that costs more than an engine can carry finds no place. -/
theorem placeAll_none (s : State) (free : Nat) (q : List Byte) (c : 9728 < s.placeCost (leAt q 0 2) (slice q 4 8)) :
    s.placeAll free [q] = none := by
  have ho : s.placeOne free [] q = none := by
    simp only [State.placeOne, List.findSome?_eq_none_iff]
    intro e _
    rw [if_pos]
    simp only [State.headroom, Bool.or_eq_true, Bool.not_eq_true', Bool.and_eq_false_iff, decide_eq_false_iff_not]
    exact .inr (.inl (by omega))
  simp [State.placeAll, ho]

/-! ### Witnesses of the whole-machine statements -/

/-- Reset with one command waiting. -/
def withOne : State := { State.reset with pending := [.keyDeskClaim] }

theorem witness_StepRunsFrontCommand : withOne.pending = .keyDeskClaim :: [] ∧ State.reset.pending = [] := ⟨rfl, rfl⟩
theorem witness_CommandsKeepQueue : ∃ t, exec .keyDeskClaim State.reset = .next t := ⟨_, rfl⟩
theorem witness_StepKeepsBankRoles : BankRoles withOne ∧ ∃ t, step withOne = .next t := ⟨by unfold BankRoles; decide, _, rfl⟩
theorem witness_StepKeepsModePower : ModePower withOne ∧ ∃ t, step withOne = .next t := ⟨by unfold ModePower; decide, _, rfl⟩
theorem witness_StepKeepsDebugAllowed : DebugAllowed withOne ∧ ∃ t, step withOne = .next t := ⟨by unfold DebugAllowed; decide, _, rfl⟩
/-- The clauses of `CommandFrames` assume only that the command answers a next state, which every command does. -/
theorem witness_CommandFrames : ∃ t, exec .tuEdgeMissing State.reset = .next t := ⟨_, rfl⟩
/-- The pond ranges of `ResetState` at their ends. -/
theorem witness_ResetState : (127 < 128 ∧ 0 < 128) ∧ (128 ≤ 128 ∧ 128 < 132) ∧ (128 ≤ 131 ∧ 131 < 132) := by decide

theorem witness_ResetSources :
    (∃ (s : State), s.rst.powered = true) ∧
    (∃ (s : State) (v : W32), s.rst.powered = true ∧ fld v.toNat 16 16 = 0x6E6E ∧ v.getLsbD 1 = true) ∧
    (∃ (s : State) (v : W32), s.rst.powered = true ∧ s.rst.phase ≠ .inReset ∧ fld v.toNat 16 16 = 0x6E6E ∧ v.getLsbD 1 = false ∧
     v.getLsbD 0 = true) ∧
    (∃ (s : State), s.rst.devReset = some 3) ∧
    (∃ (s : State), s.rst.devReset = some 2) ∧
    (∃ (s : State), s.rst.devReset = some 9) :=
  ⟨(let s : State := base0.modRst fun r => { r with powered := true }
    ⟨s, by decide +zetaReduce⟩),
   (let v : W32 := (0x6E6E0002#32)
    let s : State := base0.modRst fun r => { r with powered := true, phase := .started }
    ⟨s, v, by decide +zetaReduce⟩),
   (let v : W32 := (0x6E6E0001#32)
    let s : State := base0.modRst fun r => { r with powered := true, phase := .started }
    ⟨s, v, by decide +zetaReduce⟩),
   (let s : State := base0.modRst fun r => { r with devReset := some 3 }
    ⟨s, by decide +zetaReduce⟩),
   (let s : State := base0.modRst fun r => { r with devReset := some 2 }
    ⟨s, by decide +zetaReduce⟩),
   (let s : State := base0.modRst fun r => { r with devReset := some 9 }
    ⟨s, by decide +zetaReduce⟩)⟩

theorem witness_ParityTamperAndHold :
    (∃ (s : State), s.starting = false) ∧
    (∃ (s : State) (u : _), 2 ≤ u ∧ u ≤ 7 ∧ s.starting = false) ∧
    (∃ (s : State), s.rst.phase ≠ .inReset ∧ s.key.tamperCfg.getLsbD 3 = true) ∧
    (∃ (s : State), s.key.wiping = true ∧ s.key.wipeBad = false) ∧
    (∃ (s : State), s.key.wiping = true) ∧
    (∃ (s : State) (src : Byte), s.key.tamperSet = [src.toNat]) ∧
    (∃ (s : State) (src : Byte) (n : _), n ∈ s.key.tamperSet ∧ n ≠ src.toNat) :=
  ⟨(let s : State := base0.modRst fun r => { r with phase := .started }
    ⟨s, by decide +zetaReduce⟩),
   (let u := 7
    let s : State := base0.modRst fun r => { r with phase := .started }
    ⟨s, u, by decide +zetaReduce⟩),
   (let s : State := (base0.modRst fun r => { r with phase := .started }).modKey fun k => { k with tamperCfg := 8 }
    ⟨s, by decide +zetaReduce⟩),
   (let s : State := base0.modKey fun k => { k with wiping := true, wipeBad := false }
    ⟨s, by decide +zetaReduce⟩),
   (let s : State := base0.modKey fun k => { k with wiping := true }
    ⟨s, by decide +zetaReduce⟩),
   (let src : Byte := (11#8)
    let s : State := base0.modKey fun k => { k with tamperSet := [11] }
    ⟨s, src, by decide +zetaReduce⟩),
   (let src : Byte := (11#8)
    let n := 3
    let s : State := base0.modKey fun k => { k with tamperSet := [11, 3] }
    ⟨s, src, n, by decide +zetaReduce⟩)⟩

theorem witness_StartSequence :
    (∃ (s : State), s.rst.phase = .inReset ∧ s.rst.powered = true ∧ s.rst.coldKind = true) ∧
    (∃ (s : State), s.rst.phase = .inReset ∧ s.rst.powered = true ∧ s.rst.coldKind = false ∧ s.rst.shadowOk = true ∧
     s.rst.lc ≠ .decommissioned ∧ s.rst.count < 3) ∧
    (∃ (s : State), s.rst.phase = .inReset ∧ s.rst.powered = true ∧ s.rst.coldKind = false ∧ s.rst.shadowOk = true ∧
     s.rst.lc ≠ .decommissioned ∧ s.rst.count = 3) ∧
    (∃ (s : State), s.rst.phase = .fuseLoad ∧ (s.rst.fuse0.blank && s.rst.fuse1.blank) = false ∧ s.rst.fuse0.crcOk = true ∧
     lcOf s.rst.fuse0 s.rst.fuse1 ≠ .decommissioned ∧ s.rst.count < 3) ∧
    (∃ (s : State), s.rst.phase = .fuseLoad ∧ (s.rst.fuse0.blank && s.rst.fuse1.blank) = false ∧ s.rst.fuse0.crcOk = false ∧
     s.rst.fuse1.crcOk = false) ∧
    (∃ (s : State), s.rst.phase = .march) ∧
    (∃ (s : State) (k : _), s.rst.phase = .romBoot ∧ s.cps.bootSlot (s.rst.recoverSlot.getD s.cps.bootPointer) = some k) ∧
    (∃ (c : Cps), c.bootCrc0.toNat = pointerCrc c.bootPtr0) ∧
    (∃ (c : Cps), c.bootCrc0.toNat ≠ pointerCrc c.bootPtr0 ∧ c.bootCrc1.toNat = pointerCrc c.bootPtr1) ∧
    (∃ (c : Cps) (k : _), (c.image k).valid = true) ∧
    (∃ (c : Cps) (k : _), (c.image k).valid = false ∧ (c.image (1 - k)).valid = true) ∧
    (∃ (s : State) (m : BusMaster), (m = .cpA ∨ m = .cpB) ∧ s.rst.phase = .nganas ∧ s.rst.marchOk = true ∧ s.rst.scanDirty = false ∧
     s.glb.alignAtStart = false) ∧
    (∃ (s : State), s.rst.phase = .releaseWait ∧ s.pwr.gateOn = false) ∧
    (∃ (s : State), s.rst.phase = .ppsWait) :=
  ⟨(let s : State := base0.modRst fun r => { r with phase := .inReset, powered := true, coldKind := true }
    ⟨s, by decide +zetaReduce⟩),
   (let s : State := base0.modRst fun r =>
      { r with phase := .inReset, powered := true, coldKind := false, shadowOk := true, lc := .operational, count := 2 }
    ⟨s, by decide +zetaReduce⟩),
   (let s : State := base0.modRst fun r =>
      { r with phase := .inReset, powered := true, coldKind := false, shadowOk := true, lc := .operational, count := 3 }
    ⟨s, by decide +zetaReduce⟩),
   (let s : State := base0.modRst fun r => { r with phase := .fuseLoad, fuse0 := {}, fuse1 := {}, count := 2 }
    ⟨s, by decide +kernel +zetaReduce⟩),
   (let s : State := base0.modRst fun r => { r with phase := .fuseLoad, fuse0 := { crc := 0 }, fuse1 := { crc := 1 }, count := 2 }
    ⟨s, by decide +kernel +zetaReduce⟩),
   (let s : State := base0.modRst fun r => { r with phase := .march }
    ⟨s, by decide +zetaReduce⟩),
   (let k := 1
    let s : State := (base0.modRst fun r => { r with phase := .romBoot, recoverSlot := none }).modCps fun c =>
      { c with bootPtr0 := 1, bootCrc0 := BitVec.ofNat 32 (pointerCrc 1), slot1 := { c.slot1 with valid := true, version := 7, ucodeId := 9, cpSize := 0 } }
    ⟨s, k, by decide +zetaReduce⟩),
   (let c : Cps := { (base0.cps : Cps) with bootPtr0 := 1, bootCrc0 := BitVec.ofNat 32 (pointerCrc 1) }
    ⟨c, by decide +zetaReduce⟩),
   (let c : Cps :=
      { (base0.cps : Cps) with bootPtr0 := 1, bootCrc0 := BitVec.ofNat 32 (pointerCrc 0), bootPtr1 := 1, bootCrc1 := BitVec.ofNat 32 (pointerCrc 1) }
    ⟨c, by decide +zetaReduce⟩),
   (let c : Cps := { (base0.cps : Cps) with slot1 := { valid := true } }
    let k := 1
    ⟨c, k, by decide +zetaReduce⟩),
   (let c : Cps := { (base0.cps : Cps) with slot1 := { valid := true }, slot0 := {} }
    let k := 0
    ⟨c, k, by decide +zetaReduce⟩),
   (let m : BusMaster := .cpB
    let s : State := (base0.modRst fun r => { r with phase := .nganas, marchOk := true, scanDirty := false }).modGlb fun g =>
      { g with ppsCtrl := 0x00000400#32 }
    ⟨s, m, by decide +zetaReduce⟩),
   (let s : State := (base0.modRst fun r => { r with phase := .releaseWait }).modPwr fun p => { p with gateOn := false }
    ⟨s, by decide +zetaReduce⟩),
   (let s : State := base0.modRst fun r => { r with phase := .ppsWait }
    ⟨s, by decide +zetaReduce⟩)⟩

theorem witness_StartFailures :
    (∃ (s : State) (k : _), s.starting = true ∧ k < 44 ∧ s.rst.count < 2) ∧
    (∃ (s : State), s.starting = true ∧ s.rst.count < 2) ∧
    (∃ (s : State), s.starting = true ∧ s.rst.count = 2) :=
  ⟨(let k := 43
    let s : State := base0.modRst fun r => { r with phase := .nganas, count := 1 }
    ⟨s, k, by decide +zetaReduce⟩),
   (let s : State := base0.modRst fun r => { r with phase := .romBoot, count := 0 }
    ⟨s, by decide +zetaReduce⟩),
   (let s : State := base0.modRst fun r => { r with phase := .romBoot, count := 2 }
    ⟨s, by decide +zetaReduce⟩)⟩

theorem witness_FunctionResets :
    (∃ (s : State) (v : W32), v.getLsbD 31 = true ∧ s.rst.phase = .started ∧ fld v.toNat 0 6 < 44 ∧
     s.funcRefused (fld v.toNat 0 6) = false ∧ s.inReset (fld v.toNat 0 6) = false ∧ s.clockRuns (fld v.toNat 0 6) = true) ∧
    (∃ (s : State) (v : W32), v.getLsbD 31 = true ∧ s.rst.phase = .started ∧ fld v.toNat 0 6 < 44 ∧
     s.funcRefused (fld v.toNat 0 6) = false ∧ s.inReset (fld v.toNat 0 6) = false ∧ s.clockRuns (fld v.toNat 0 6) = false) ∧
    (∃ (s : State) (v : W32), v.getLsbD 31 = true ∧ s.rst.phase = .started ∧ fld v.toNat 0 6 < 44 ∧ s.funcRefused (fld v.toNat 0 6) = true) ∧
    (∃ (s : State) (f : _), f < 44 ∧ s.rst.pend.getLsbD f = true ∧ s.clockRuns f = true) ∧
    (∃ (s : State) (f : _), f < 44 ∧ s.rst.inReset.getLsbD f = true ∧ s.rst.phase = .started ∧ s.clockRuns f = true ∧
     (f = 17 → s.key.busy = none)) ∧
    (∃ (s : State), s.rst.phase = .started ∧ s.rst.inReset = 0 ∧ s.rst.pend = 0 ∧ s.rst.scanDirty = false) ∧
    (∃ (s : State), s.rst.phase = .started ∧ s.rst.inReset = 0 ∧ s.rst.pend = 0 ∧ s.rst.scanDirty = false) ∧
    (∃ (s : State) (n : _), n < 8 ∧ s.rst.phase = .started ∧ (s.box n).state = .closed ∧ s.cpServes = true ∧ s.rst.bootOkSeen = true ∧
     s.inReset (7 + n) = false) ∧
    (∃ (s : State), s.key.busy.isSome = true) ∧
    (∃ (s : State) (f : _) (a : _), f < 44 ∧ f ≠ 3 ∧ a < 2 ^ 28 ∧ s.rst.pend.getLsbD f = true ∧ s.clockRuns f = true ∧
     s.glb.intSticky.getLsbD 27 = false) :=
  ⟨(let v : W32 := (0x80000018#32)
    let s : State := base0.up.modPwr fun p => { p with gated := 0 }
    ⟨s, v, by decide +zetaReduce⟩),
   (let v : W32 := (0x80000018#32)
    let s : State := base0.up.modPwr fun p => { p with gated := 0xFFFFFFFF }
    ⟨s, v, by decide +zetaReduce⟩),
   (let v : W32 := (0x80000000#32)
    let s : State := base0.up.modCps fun c => { c with active := false }
    ⟨s, v, by decide +zetaReduce⟩),
   (let f := 43
    let s : State := (base0.up.modPwr fun p => { p with gated := 0 }).modRst fun r => { r with pend := BitVec.ofNat 64 (2 ^ 43) }
    ⟨s, f, by decide +zetaReduce⟩),
   (let f := 43
    let s : State := (base0.up.modPwr fun p => { p with gated := 0 }).modRst fun r => { r with inReset := BitVec.ofNat 64 (2 ^ 43) }
    ⟨s, f, by decide +zetaReduce⟩),
   (let s : State := base0.up
    ⟨s, by decide +zetaReduce⟩),
   (let s : State := base0.up
    ⟨s, by decide +zetaReduce⟩),
   (let n := 6
    let s : State := (base0.open 6).modBox 6 (fun b => { b with state := .closed }) |>.modRst fun r => { r with bootOkSeen := true }
    ⟨s, n, by decide +zetaReduce⟩),
   (let s : State := base0.up.modKey fun k => { k with busy := some (1, 0) }
    ⟨s, by decide +zetaReduce⟩),
   (let f := 43
    let a := 2 ^ 28 - 1
    let s : State := ((base0.up.modPwr fun p => { p with gated := 0 }).modRst fun r => { r with pend := BitVec.ofNat 64 (2 ^ 43) }).modGlb
      fun g => { g with intSticky := 0 }
    ⟨s, f, a, by decide +zetaReduce⟩)⟩

theorem witness_RegisterWrites :
    (∃ (s : State), s.rst.phase ≠ .inReset) ∧
    (∃ (s : State), s.rst.phase ≠ .inReset) ∧
    (∃ (s : State), s.rst.phase ≠ .inReset) ∧
    (∃ (s : State), s.rst.phase ≠ .inReset) ∧
    (∃ (s : State) (a : _) (be : BitVec 4), s.rst.phase ≠ .inReset ∧ a < 0x10000000 ∧ be ≠ 0xF) ∧
    (∃ (s : State), s.rst.phase = .started ∧ s.inReset 24 = true ∧ s.glb.intSticky.getLsbD 27 = false) ∧
    (∃ (m : BusMaster), ((m = .cpA ∨ m = .cpB))) ∧
    (∃ (s : State), s.bus.errInfo.getLsbD 31 = false) ∧
    (∃ (s : State) (m : BusMaster), m ≠ .cpA ∧ m ≠ .cpB ∧ s.bus.errInfo.getLsbD 31 = false) ∧
    (∃ (s : State) (n : _), n < 16 ∧ s.bus.errInfo.getLsbD 31 = false) ∧
    (∃ (s : State) (a : _), s.rst.phase ≠ .inReset ∧ 0xC0000 ≤ a ∧ a < 0x100000) ∧
    (∃ (s : State), s.bus.errInfo.getLsbD 31 = true) ∧
    (∃ (s : State) (a : _), 0x2000000 ≤ a ∧ a < 0x2800018 ∧ a % 4 = 0 ∧ s.rst.phase = .started) ∧
    (∃ (s : State) (m : BusMaster) (ep : _) (i : _), ((m = .cpA ∨ m = .cpB)) ∧ ep < 262144 ∧ i < 8 ∧ s.rst.phase = .started ∧
     s.unreachable (0x2000000 + 32 * ep + 4 * i) = none ∧ s.mem.marches = []) :=
  ⟨(let s : State := base0.up
    ⟨s, by decide +zetaReduce⟩),
   (let s : State := base0.up
    ⟨s, by decide +zetaReduce⟩),
   (let s : State := base0.up
    ⟨s, by decide +zetaReduce⟩),
   (let s : State := base0.up
    ⟨s, by decide +zetaReduce⟩),
   (let a := 0x20
    let be : BitVec 4 := (7#4)
    let s : State := base0.up
    ⟨s, a, be, by decide +zetaReduce⟩),
   (let s : State := ((base0.up.modRst fun r => { r with inReset := BitVec.ofNat 64 (2 ^ 24) }).modGlb fun g => { g with intSticky := 0 })
    ⟨s, by decide +zetaReduce⟩),
   (let m : BusMaster := .cpB
    ⟨m, by decide +zetaReduce⟩),
   (let s : State := base0.modBus fun b => { b with errInfo := 0 }
    ⟨s, by decide +zetaReduce⟩),
   (let m : BusMaster := BusMaster.eg3
    let s : State := base0.modBus fun b => { b with errInfo := 0 }
    ⟨s, m, by decide +zetaReduce⟩),
   (let n := 15
    let s : State := base0.modBus fun b => { b with errInfo := 0 }
    ⟨s, n, by decide +zetaReduce⟩),
   (let a := 0xFFFFC
    let s : State := base0.up
    ⟨s, a, by decide +zetaReduce⟩),
   (let s : State := base0.modBus fun b => { b with errInfo := 0x80000000#32 }
    ⟨s, by decide +zetaReduce⟩),
   (let a := 0x2800014
    let s : State := base0.up
    ⟨s, a, by decide +zetaReduce⟩),
   (let m : BusMaster := .cpB
    let ep := 262143
    let i := 7
    let s : State := (base0.up.modPwr fun p => { p with gated := 0 }).modMem fun m => { m with marches := [] }
    ⟨s, m, ep, i, by decide +zetaReduce⟩)⟩

theorem witness_RwpReject :
    (∃ (s : State) (m : BusMaster) (a : _), ((m = .pcie ∧ a = 0x80010) ∨ ((m = .cpA ∨ m = .cpB) ∧ a = 0x20080010)) ∧
     s.rst.phase = .started ∧ (s.rst.lc = .operational ∨ s.rst.lc = .decommissioned)) ∧
    (∃ (s : State) (m : BusMaster) (a : _), ((m = .pcie ∧ a = 0x80010) ∨ ((m = .cpA ∨ m = .cpB) ∧ a = 0x20080010)) ∧
     s.rst.phase = .started ∧ (s.rst.lc = .blank ∨ s.rst.lc = .provisioned ∨ s.rst.lc = .fieldReturn)) :=
  ⟨(let m : BusMaster := BusMaster.cpA
    let a := 0x20080010
    let s : State := base0.up.modRst fun r => { r with lc := .operational }
    ⟨s, m, a, by decide +zetaReduce⟩),
   (let m : BusMaster := BusMaster.pcie
    let a := 0x80010
    let s : State := base0.up.modRst fun r => { r with lc := .fieldReturn }
    ⟨s, m, a, by decide +zetaReduce⟩)⟩

theorem witness_RegisterReads :
    (∃ (s : State), s.rst.phase ≠ .inReset ∧ s.latched .pcie 0x08 = none) ∧
    (∃ (s : State) (v : _), s.rst.phase ≠ .inReset ∧ s.latched .pcie 0x0C = some v) ∧
    (∃ (s : State), s.rst.phase ≠ .inReset ∧ s.latched .pcie 0x138 = none) ∧
    (∃ (s : State) (p : _), p < 132 ∧ s.rst.phase = .started ∧ s.latched .pcie (0x400020 + 0x1000 * p) = none) :=
  ⟨(let s : State := (base0.up.modBus fun b => { b with latch := [] })
    ⟨s, by decide +zetaReduce⟩),
   (let v := 7#32
    let s : State := (base0.up.modBus fun b => { b with latch := [] }).setLatch .pcie 0x0C v
    ⟨s, v, by decide +zetaReduce⟩),
   (let s : State := (base0.up.modBus fun b => { b with latch := [] })
    ⟨s, by decide +zetaReduce⟩),
   (let p := 131
    let s : State := (base0.up.modBus fun b => { b with latch := [] })
    ⟨s, p, by decide +zetaReduce⟩)⟩

theorem witness_AliasWrite :
    (∃ (o : _), o < 0x2000) ∧
    (∃ (j : _) (o : _), j < 16 ∧ o < 0x2000) ∧
    (∃ (q : _) (o : _), q < 4 ∧ o < 0x2000) ∧
    (∃ (s : State) (a : _) (l : _) (o : _), a < 0x10000000 ∧ a % 4 = 0 ∧ aliasOf a = some (l, o) ∧ s.rst.phase ≠ .inReset ∧
     (∃ n ∈ l, s.laneCause n = none)) ∧
    (∃ (s : State) (a : _) (l : _) (o : _), a < 0x10000000 ∧ a % 4 = 0 ∧ aliasOf a = some (l, o) ∧ s.rst.phase ≠ .inReset ∧
     (∀ n ∈ l, s.laneCause n ≠ none)) :=
  ⟨(let o := 0x1FFF
    ⟨o, by decide +zetaReduce⟩),
   (let j := 15
    let o := 0x1FFF
    ⟨j, o, by decide +zetaReduce⟩),
   (let q := 3
    let o := 0x1FFF
    ⟨q, o, by decide +zetaReduce⟩),
   (let a := 0x220000 + 0x1C
    let l := (List.range 8).map (8 * 15 + ·)
    let o := 0x1C
    let s : State := base0.up.modPwr fun p => { p with gated := 0 }
    ⟨s, a, l, o, by decide +zetaReduce⟩),
   (let a := 0x220000
    let l := (List.range 8).map (8 * 15 + ·)
    let o := 0
    let s : State := (base0.up.modRst fun r => { r with inReset := BitVec.ofNat 64 (2 ^ 39) }).modPwr fun p => { p with gated := 0 }
    ⟨s, a, l, o, by decide +zetaReduce⟩)⟩

theorem witness_AliasRead :
    (∃ (s : State) (a : _) (l : _) (o : _) (n : _) (r : _), aliasOf a = some (l, o) ∧ a % 4 = 0 ∧ s.rst.phase ≠ .inReset ∧
     (l.filter fun n => (s.laneCause n).isNone) = n :: r ∧ s.latched .pcie a = none ∧
     (∀ k ∈ r, (s.lane k).read o = (s.lane n).read o)) ∧
    (∃ (s : State) (a : _) (l : _) (o : _) (n : _) (r : _), aliasOf a = some (l, o) ∧ a % 4 = 0 ∧ s.rst.phase ≠ .inReset ∧
     (l.filter fun n => (s.laneCause n).isNone) = n :: r ∧ s.latched .pcie a = none ∧
     (∃ k ∈ r, (s.lane k).read o ≠ (s.lane n).read o)) :=
  ⟨(let a := 0x202000 + 0x1C
    let l := (List.range 8).map (8 * 0 + ·)
    let o := 0x1C
    let n := 0
    let r := [1,2,3,4,5,6,7]
    let s : State := ((base0.up.modBus fun b => { b with latch := [] }).modPwr fun p => { p with gated := 0 }).putLanes []
    ⟨s, a, l, o, n, r, by decide +zetaReduce⟩),
   (let a := 0x202000 + 0x300
    let l := (List.range 8).map (8 * 0 + ·)
    let o := 0x300
    let n := 0
    let r := [1,2,3,4,5,6,7]
    let s : State := (((base0.up.modBus fun b => { b with latch := [] }).modPwr fun p => { p with gated := 0 }).putLanes []).modLane 7 fun l
      => { l with phyCfg := 0 }
    ⟨s, a, l, o, n, r, by decide +zetaReduce⟩)⟩

theorem witness_FutureWindow :
    (∃ (s : State) (k : _), k < 2097152 ∧ s.rst.phase = .started ∧ s.windowOpen = true) ∧
    (∃ (s : State) (k : _) (lo : W32), k < 2097152 ∧ s.rst.phase = .started ∧ s.windowOpen = true ∧ s.sch.future < 3 ∧
     tfind s.sch.held 4 = some (k, lo)) ∧
    (∃ (s : State) (k : _), k < 2097152 ∧ s.rst.phase = .started ∧ (s.windowOpen = false ∨ (tfind s.sch.held 4).map Prod.fst ≠ some k)) ∧
    (∃ (s : State) (k : _), k < 2097152 ∧ s.rst.phase = .started ∧ s.windowOpen = false) :=
  ⟨(let k := 2097151
    let s : State := base0.up.modSch fun c => { c with futState := .opened }
    ⟨s, k, by decide +zetaReduce⟩),
   (let lo : W32 := 7#32
    let k := 2097151
    let s : State := base0.up.modSch fun c => { c with futState := .opened, held := [(4, (k, lo))], future := 2 }
    ⟨s, k, lo, by decide +zetaReduce⟩),
   (let k := 0
    let s : State := base0.up.modSch fun c => { c with futState := .opened, held := [] }
    ⟨s, k, by decide +zetaReduce⟩),
   (let k := 0
    let s : State := base0.up.modSch fun c => { c with futState := .valid }
    ⟨s, k, by decide +zetaReduce⟩)⟩

theorem witness_EventRing :
    (∃ (r : EvRec), r.body.length ≤ 48) ∧
    (∃ (m : Mbx), (m.prod - m.cons).toNat ≠ 64) ∧
    (∃ (m : Mbx), (m.prod - m.cons).toNat = 64) ∧
    (∃ (s : State), s.mbx.prod ≠ s.mbx.cons ∧ (s.box 7).intEn = true) ∧
    (∃ (s : State) (v : W32), s.rst.phase = .started ∧ s.inReset 14 = false ∧
     (v.setWidth 16 - s.mbx.cons).toNat ≤ (s.mbx.prod - s.mbx.cons).toNat) ∧
    (∃ (s : State) (v : W32), s.rst.phase = .started ∧ s.inReset 14 = false ∧
     (s.mbx.prod - s.mbx.cons).toNat < (v.setWidth 16 - s.mbx.cons).toNat) :=
  ⟨(let r : EvRec := ({ command := 0x4B02, seq := 0, flags := 0, status := 0, body := [1] } : EvRec)
    ⟨r, by decide +zetaReduce⟩),
   (let m : Mbx := { (base0.mbx : Mbx) with prod := 65535, cons := 0 }
    ⟨m, by decide +zetaReduce⟩),
   (let m : Mbx := { (base0.mbx : Mbx) with prod := 63, cons := 65535 }
    ⟨m, by decide +zetaReduce⟩),
   (let s : State := (base0.modMbx fun m => { m with prod := 1, cons := 0 }).modBox 7 fun b => { b with intEn := true }
    ⟨s, by decide +zetaReduce⟩),
   (let v : W32 := (3#32)
    let s : State := base0.up.modMbx fun m => { m with prod := 3, cons := 1 }
    ⟨s, v, by decide +zetaReduce⟩),
   (let v : W32 := (4#32)
    let s : State := base0.up.modMbx fun m => { m with prod := 3, cons := 1 }
    ⟨s, v, by decide +zetaReduce⟩)⟩

theorem witness_MailboxDoorbell :
    (∃ (s : State) (n : _) (o : _), n < 7 ∧ o < 0x1000 ∧ o % 4 = 0 ∧ s.rst.phase = .started ∧ s.inReset (7 + n) = false ∧
     (s.box n).state ≠ .busy) ∧
    (∃ (s : State) (n : _) (o : _), n < 7 ∧ o < 0x1000 ∧ o % 4 = 0 ∧ s.rst.phase = .started ∧ s.inReset (7 + n) = false ∧
     (s.box n).state = .busy) ∧
    (∃ (s : State) (o : _), o < 0x1000 ∧ o % 4 = 0 ∧ s.rst.phase = .started ∧ s.inReset 14 = false) ∧
    (∃ (r : MbReq) (s : State), r.mb < 8 ∧ s.rst.phase = .started ∧ s.inReset (7 + r.mb) = false ∧
     (r.mb = 7 ∨ (s.box r.mb).state = .busy ∨ (s.box r.mb).state = .closed)) ∧
    (∃ (r : MbReq) (s : State), r.mb < 7 ∧ s.rst.phase = .started ∧ s.inReset (7 + r.mb) = false ∧
     ((s.box r.mb).state = .idle ∨ (s.box r.mb).state = .done) ∧ s.pert.bellDelay r.mb = 0 ∧
     (s.cpServes = false ∨ s.mbx.waiting.any (Waiting.ripe s.tick) = true)) ∧
    (∃ (r : MbReq) (s : State), r.mb < 8 ∧ s.rst.phase = .started ∧ s.inReset (7 + r.mb) = true ∧ s.glb.intSticky.getLsbD 27 = false) :=
  ⟨(let n := 6
    let o := 0xFFC
    let s : State := base0.open 6
    ⟨s, n, o, by decide +zetaReduce⟩),
   (let n := 6
    let o := 0xFFC
    let s : State := (base0.open 6).modBox 6 fun b => { b with state := .busy }
    ⟨s, n, o, by decide +zetaReduce⟩),
   (let o := 0xFFC
    let s : State := base0.open 7
    ⟨s, o, by decide +zetaReduce⟩),
   (let r : MbReq := rq 6 [5]
    let s : State := (base0.open 6).modBox 6 fun b => { b with state := .closed }
    ⟨r, s, by decide +zetaReduce⟩),
   (let r : MbReq := rq 6 []
    let s : State := (base0.open 6).modMbx fun m => { m with serving := false }
    ⟨r, s, by decide +zetaReduce⟩),
   (let r : MbReq := rq 7 []
    let s : State := ((base0.open 6).modRst fun r => { r with inReset := BitVec.ofNat 64 (2 ^ 14) }).modGlb fun g =>
      { g with intSticky := 0 }
    ⟨r, s, by decide +zetaReduce⟩)⟩

theorem witness_InterruptOutputs :
    (∃ (s : State) (v : W32), s.rst.phase ≠ .inReset ∧ v.getLsbD 0 = true ∧ s.intA = true ∧ s.glb.aPrev = true ∧ s.glb.msixMask = false) ∧
    (∃ (s : State), s.rst.phase ≠ .inReset ∧ s.intA = false) ∧
    (∃ (s : State), s.intA = true ∧ s.glb.aPrev = true ∧ s.glb.msixHeld = true ∧ s.glb.msixMask = true) ∧
    (∃ (s : State), s.intA = true ∧ s.glb.aPrev = false ∧ s.glb.msixMask = false) ∧
    (∃ (s : State), s.intA = s.glb.aPrev) :=
  ⟨(let v : W32 := (1#32)
    let s : State := ((base0.up.modMbx fun m => { m with prod := 1, cons := 0 }).modBox 7 fun b => { b with intEn := true }).modGlb fun g =>
      { g with intEnable := 0xFFFFFFFF, aPrev := true, msixMask := false }
    ⟨s, v, by decide +zetaReduce⟩),
   (let s : State := base0.up.modGlb fun g => { g with intEnable := 0 }
    ⟨s, by decide +zetaReduce⟩),
   (let s : State := ((base0.up.modMbx fun m => { m with prod := 1, cons := 0 }).modBox 7 fun b => { b with intEn := true }).modGlb fun g =>
      { g with intEnable := 0xFFFFFFFF, aPrev := true, msixMask := true, msixHeld := true }
    ⟨s, by decide +zetaReduce⟩),
   (let s : State := ((base0.up.modMbx fun m => { m with prod := 1, cons := 0 }).modBox 7 fun b => { b with intEn := true }).modGlb fun g =>
      { g with intEnable := 0xFFFFFFFF, aPrev := false, msixMask := false }
    ⟨s, by decide +zetaReduce⟩),
   (let s : State := base0.modGlb fun g => { g with intEnable := 0, aPrev := false }
    ⟨s, by decide +zetaReduce⟩)⟩

theorem witness_TransmitTaps :
    ∃ (s : State) (n : _), n < 128 ∧ s.rst.phase = .started ∧ s.laneCause n = none :=
    let n := 127
    let s : State := base0.up.modPwr fun p => { p with gated := 0 }
    ⟨s, n, by decide +zetaReduce⟩

theorem witness_KeyDesk :
    (∃ (s : State), s.rst.variant ≠ 2 ∧ s.key.owner = 0) ∧
    (∃ (s : State), s.rst.variant ≠ 2 ∧ s.key.owner ≠ 0) ∧
    (∃ (s : State), s.key.owner = 1) ∧
    (∃ (s : State) (k : _), k < 16384 ∧ s.rst.variant ≠ 2 ∧ s.key.busy = none ∧ s.key.owner = 1 ∧ s.key.blocked = true) ∧
    (∃ (s : State) (k : _) (i : _), k < 16384 ∧ s.rst.variant ≠ 2 ∧ s.key.busy = none ∧ s.key.owner = 1 ∧ s.key.blocked = false ∧
     s.loadsClosed = false ∧ (s.key.slot k).loadHalf = some i) ∧
    (∃ (s : State) (k : _), k < 16384 ∧ s.rst.variant ≠ 2 ∧ s.key.busy = none ∧ s.key.owner = 1 ∧ s.activateBad k = false) ∧
    (∃ (s : State) (k : _), k < 16384 ∧ s.rst.variant ≠ 2 ∧ s.key.busy = none ∧ s.key.owner = 1) ∧
    (∃ (s : State) (k : _), k < 16384 ∧ s.rst.variant ≠ 2 ∧ s.key.busy = none ∧ s.key.owner = 1) ∧
    (∃ (s : State) (k : _), k < 16384 ∧ s.rst.variant ≠ 2 ∧ s.key.busy = none ∧ s.key.owner ≠ 1) ∧
    (∃ (s : State) (op : _) (r : _), s.key.busy = some (op, r)) :=
  ⟨(let s : State := (base0.modRst fun r => { r with variant := 1 }).modKey fun k => { k with owner := 0 }
    ⟨s, by decide +zetaReduce⟩),
   (let s : State := (base0.modRst fun r => { r with variant := 1 }).modKey fun k => { k with owner := 2 }
    ⟨s, by decide +zetaReduce⟩),
   (let s : State := base0.modKey fun k => { k with owner := 1 }
    ⟨s, by decide +zetaReduce⟩),
   (let k := 16383
    let s : State := (base0.modRst fun r => { r with variant := 1 }).modKey fun k => { k with owner := 1, busy := none, tamperSet := [11] }
    ⟨s, k, by decide +zetaReduce⟩),
   (let k := 16383
    let i := false
    let s : State := (base0.modRst fun r => { r with variant := 1, lc := .operational }).modKey fun k =>
      { k with owner := 1, busy := none, tamperSet := [], wipeBad := false, slots := [] }
    ⟨s, k, i, by decide +zetaReduce⟩),
   (let k := 16383
    let s : State := ((base0.modRst fun r => { r with variant := 1 }).modSch fun c =>
      { c with bank0 := {}, bank1 := {}, bank2 := {} }).modKey fun q =>
      { q with owner := 1, busy := none, slots := tins q.slots k { h0 := { state := .next } } }
    ⟨s, k, by decide +zetaReduce⟩),
   (let k := 16383
    let s : State := (base0.modRst fun r => { r with variant := 1 }).modKey fun k => { k with owner := 1, busy := none }
    ⟨s, k, by decide +zetaReduce⟩),
   (let k := 16383
    let s : State := (base0.modRst fun r => { r with variant := 1 }).modKey fun k => { k with owner := 1, busy := none }
    ⟨s, k, by decide +zetaReduce⟩),
   (let k := 16383
    let s : State := (base0.modRst fun r => { r with variant := 1 }).modKey fun k => { k with owner := 3, busy := none }
    ⟨s, k, by decide +zetaReduce⟩),
   (let op := 2
    let r := 4
    let s : State := base0.modKey fun k => { k with busy := some (op, r) }
    ⟨s, op, r, by decide +zetaReduce⟩)⟩

theorem witness_CounterControls :
    (∃ (s : State), s.perfMay .pcie 2 = true) ∧
    (∃ (s : State), s.perfMay .pcie 2 = true) ∧
    (∃ (s : State), s.perfMay .pcie 2 = true) ∧
    (∃ (s : State), s.perfMay .pcie 3 = true) ∧
    (∃ (s : State), s.perfMay .pcie 2 = false) ∧
    (∃ (s : State) (c : _), s.perf.copying = some c) ∧
    (∃ (s : State) (e : TagEvent), e.src < 6 ∧ s.perf.tagCtrl.getLsbD 31 = true ∧ s.perf.tagCtrl.getLsbD (24 + e.src) = true ∧
     s.perf.tags.length < 256 ∧ s.perf.tagOpen e = true) ∧
    (∃ (s : State), fld s.pert.hb.toNat 0 16 = 0) ∧
    (∃ (c : _), c < 16) ∧
    (∃ (s : State), s.perfMay .pcie 2 = false) ∧
    (∃ (s : State), s.perfMay .pcie 2 = false) ∧
    (∃ (s : State), s.perfMay .pcie 3 = false) :=
  ⟨(let s : State := (base0.modRst fun r => { r with dbgLevel := 1 }).modPerf fun p => { p with access := 2 }
    ⟨s, by decide +zetaReduce⟩),
   (let s : State := (base0.modRst fun r => { r with dbgLevel := 1 }).modPerf fun p => { p with access := 2 }
    ⟨s, by decide +zetaReduce⟩),
   (let s : State := (base0.modRst fun r => { r with dbgLevel := 1 }).modPerf fun p => { p with access := 2 }
    ⟨s, by decide +zetaReduce⟩),
   (let s : State := (base0.modRst fun r => { r with dbgLevel := 1 }).modPerf fun p => { p with access := 3 }
    ⟨s, by decide +zetaReduce⟩),
   (let s : State := (base0.modRst fun r => { r with dbgLevel := 1 }).modPerf fun p => { p with access := 1 }
    ⟨s, by decide +zetaReduce⟩),
   (let c := [(3, 7)]
    let s : State := base0.modPerf fun p => { p with copying := some c }
    ⟨s, c, by decide +zetaReduce⟩),
   (let e : TagEvent :=
      { ({ src := 0, engine := 0, pc := 0, latency := 70000, item := 5, flags := 3, opclass := 2 } : TagEvent) with src := 5 }
    let s : State := base0.modPerf fun p => { p with tagCtrl := 0xBF000000#32, tags := [], tagWin := [] }
    ⟨s, e, by decide +zetaReduce⟩),
   (let s : State := base0.modPert fun p => { p with hb := 0x80000000#32 }
    ⟨s, by decide +zetaReduce⟩),
   (let c := 15
    ⟨c, by decide +zetaReduce⟩),
   (let s : State := (base0.modRst fun r => { r with dbgLevel := 1 }).modPerf fun p => { p with access := 1 }
    ⟨s, by decide +zetaReduce⟩),
   (let s : State := (base0.modRst fun r => { r with dbgLevel := 1 }).modPerf fun p => { p with access := 1 }
    ⟨s, by decide +zetaReduce⟩),
   (let s : State := (base0.modRst fun r => { r with dbgLevel := 1 }).modPerf fun p => { p with access := 2 }
    ⟨s, by decide +zetaReduce⟩)⟩

theorem witness_FrameAdvancesCfn :
    (∃ (s : State), s.coreRuns = true) ∧
    (∃ (s : State), s.coreRuns = false) :=
  ⟨(let s : State := (base0.modGlb fun g => { g with released := true }).modRst fun r => { r with scanDirty := false }
    ⟨s, by decide +zetaReduce⟩),
   (let s : State := base0.modGlb fun g => { g with released := false }
    ⟨s, by decide +zetaReduce⟩)⟩

theorem witness_SecondsAndPps :
    (∃ (s : State), s.coreRuns = true ∧ s.glb.secDue = true) ∧
    (∃ (s : State), s.glb.secDue = false) ∧
    (∃ (s : State) (e : Int), s.coreRuns = true ∧ s.glb.track = true ∧ 0 ≤ e ∧ e ≤ 16384) ∧
    (∃ (s : State) (e : Int), s.coreRuns = true ∧ s.glb.track = true ∧ -16384 ≤ e ∧ e < 0) ∧
    (∃ (s : State) (e : Int), s.coreRuns = true ∧ s.glb.track = true ∧ s.glb.ppsWasAligned = true ∧ s.glb.ppsAny = false ∧ 16384 < e ∧
     e < 800000000) ∧
    (∃ (s : State), s.coreRuns = true ∧ s.glb.track = true ∧ s.glb.ppsAny = false ∧ s.glb.losCount ≤ s.glb.ppsBad) :=
  ⟨(let s : State := (base0.modGlb fun g => { g with released := true, secDue := true }).modRst fun r => { r with scanDirty := false }
    ⟨s, by decide +zetaReduce⟩),
   (let s : State := base0.modGlb fun g => { g with secDue := false }
    ⟨s, by decide +zetaReduce⟩),
   (let e : Int := (16384 : Int)
    let s : State := base0.up.modGlb fun g => { g with ppsCtrl := 1 }
    ⟨s, e, by decide +zetaReduce⟩),
   (let e : Int := (-16384 : Int)
    let s : State := base0.up.modGlb fun g => { g with ppsCtrl := 1 }
    ⟨s, e, by decide +zetaReduce⟩),
   (let e : Int := (16385 : Int)
    let s : State := base0.up.modGlb fun g => { g with ppsCtrl := 1, ppsWasAligned := true, ppsAny := false }
    ⟨s, e, by decide +zetaReduce⟩),
   (let s : State := base0.up.modGlb fun g => { g with ppsCtrl := 1, ppsAny := false, ppsBad := 300 }
    ⟨s, by decide +zetaReduce⟩)⟩

theorem witness_LaneAlignment :
    (∃ (s : State) (n : _), s.rst.scanDirty = false ∧ (s.lane n).role ≠ .off ∧ s.glb.mode ≠ .hold ∧ (s.lane n).state = .waitSignal ∧
     (s.lane n).pend = none ∧ 100 ≤ since s.tick (s.lane n).since + 1) ∧
    (∃ (s : State) (n : _), s.rst.scanDirty = false ∧ (s.lane n).state = .adapt ∧ (s.lane n).pend = none ∧
     since s.tick (s.lane n).since < 20000) ∧
    (∃ (s : State) (n : _), s.rst.scanDirty = false ∧ (s.lane n).state = .adapt ∧ (s.lane n).pend = none ∧ (s.lane n).everLocked = false ∧
     20000 ≤ since s.tick (s.lane n).since) ∧
    (∃ (s : State) (n : _), s.rst.scanDirty = false ∧ (s.lane n).state = .adapt ∧ (s.lane n).pend = none ∧ (s.lane n).everLocked = true ∧
     20000 ≤ since s.tick (s.lane n).since) ∧
    (∃ (s : State) (n : _) (f : LineFrame), s.rst.scanDirty = false ∧ (s.lane n).role = .line ∧ s.glb.mode ≠ .hold ∧
     (s.lane n).state = .hunt ∧ f.logical < (s.lane n).width) ∧
    (∃ (s : State) (n : _) (f : LineFrame), s.rst.scanDirty = false ∧ (s.lane n).role = .line ∧ s.glb.mode ≠ .hold ∧
     (s.lane n).state = .locked ∧ f.logical < (s.lane n).width ∧
     (f.sightings.find? (·.1 = ((s.lane n).align f.logical).offset)) = none) ∧
    (∃ (s : State) (n : _) (f : LineFrame) (x : _), s.rst.scanDirty = false ∧ (s.lane n).role = .line ∧ s.glb.mode ≠ .hold ∧
     (s.lane n).state = .locked ∧ f.logical < (s.lane n).width ∧ s.laneGroup n = none ∧
     (f.sightings.find? (·.1 = ((s.lane n).align f.logical).offset)) = some x) ∧
    (∃ (s : State) (n : _) (x : Nat → Tracker), s.rst.scanDirty = false ∧ (s.lane n).state = .hunt ∧ (s.lane n).pend = none ∧
     (∀ k, k < (s.lane n).width → ((s.lane n).align k).trackers = [x k] ∧ 3 ≤ (x k).run)) ∧
    (∃ (s : State) (n : _), s.rst.scanDirty = false ∧ (s.lane n).state = .hunt ∧ (s.lane n).everLocked = true ∧ (s.lane n).pend = none ∧
     1000 ≤ since s.tick (s.lane n).since ∧ (s.lane n).tries < 3) :=
  ⟨(let n := 127
    let s : State := base0.up.modLane n fun l => { l with role := .line, state := .waitSignal, pend := none, since := base0.up.ago 99 }
    ⟨s, n, by decide +zetaReduce⟩),
   (let n := 127
    let s : State := base0.up.modLane n fun l => { l with role := .line, state := .adapt, pend := none, since := base0.up.ago 19999 }
    ⟨s, n, by decide +zetaReduce⟩),
   (let n := 127
    let s : State := base0.up.modLane n fun l =>
      { l with role := .line, state := .adapt, pend := none, everLocked := false, since := base0.up.ago 20000 }
    ⟨s, n, by decide +zetaReduce⟩),
   (let n := 127
    let s : State := base0.up.modLane n fun l =>
      { l with role := .line, state := .adapt, pend := none, everLocked := true, since := base0.up.ago 20000 }
    ⟨s, n, by decide +zetaReduce⟩),
   (let n := 1
    let f : LineFrame := { aLine with sightings := [(3, 5)], logical := 4 }
    let s : State := base0.up.modLane n fun l => { l with role := .line, state := .hunt, rate := 0 }
    ⟨s, n, f, by decide +zetaReduce⟩),
   (let n := 1
    let f : LineFrame := { aLine with sightings := [], logical := 4 }
    let s : State := base0.up.modLane n fun l => { l with role := .line, state := .locked, rate := 0 }
    ⟨s, n, f, by decide +zetaReduce⟩),
   (let n := 1
    let f : LineFrame := { aLine with sightings := [(0, 1)], logical := 4 }
    let x := (0, 1)
    let s : State := (base0.up.putGrps []).modLane n fun l => { l with role := .line, state := .locked, rate := 0, aligns := [] }
    ⟨s, n, f, x, by decide +zetaReduce⟩),
   (let n := 1
    let x : Nat → Tracker := (fun _ => ⟨4, 5, 3⟩ : Nat → Tracker)
    let s : State := base0.up.modLane n fun l =>
      { l with role := .line, rate := 1, state := .hunt, pend := none, aligns := [(0, { trackers := [⟨4, 5, 3⟩] })] }
    ⟨s, n, x, by decide +zetaReduce⟩),
   (let n := 1
    let s : State := base0.up.modLane n fun l =>
      { l with role := .line, state := .hunt, pend := none, everLocked := true, since := base0.up.ago 1000, tries := 2 }
    ⟨s, n, by decide +zetaReduce⟩)⟩

theorem witness_LaneFailures :
    (∃ (s : State) (n : _), s.rst.scanDirty = false ∧ (s.lane n).role ≠ .off ∧ (s.lane n).retired = false ∧ (s.lane n).retiring = false) ∧
    (∃ (s : State) (n : _), s.rst.scanDirty = false ∧ (s.lane n).state = .locked ∧ (s.lane n).pend = none ∧ (s.lane n).tries < 3 ∧
     (∃ k, k < (s.lane n).width ∧ 5 ≤ ((s.lane n).align k).mismatch)) ∧
    (∃ (s : State) (n : _), s.rst.scanDirty = false ∧ (s.lane n).state = .locked ∧ (s.lane n).pend = none ∧ (s.lane n).tries < 3 ∧
     (∃ k, k < (s.lane n).width ∧ 5 ≤ ((s.lane n).align k).outOfSeq)) ∧
    (∃ (s : State) (n : _), s.rst.scanDirty = false ∧ (s.lane n).state = .locked ∧ (s.lane n).pend = none ∧ (s.lane n).tries < 3) ∧
    (∃ (s : State) (n : _), s.rst.scanDirty = false ∧ (s.lane n).state = .locked ∧ (s.lane n).pend = none ∧ 3 ≤ (s.lane n).tries) ∧
    (∃ (s : State) (n : _) (u : _) (w : _), s.rst.scanDirty = false ∧ (s.lane n).state = .locked ∧ (s.lane n).pend = none ∧
     (s.lane n).tries < 3 ∧ (s.burst n).1 ≤ u ∧ w ≤ (s.burst n).2) ∧
    (∃ (s : State) (n : _) (w : _), s.rst.scanDirty = false ∧ (s.lane n).window = some w ∧ 5859375 ≤ since s.tick w ∧
     (s.lane n).retiring = false ∧ (s.lane n).pend ≠ some .toAdaptHeld) :=
  ⟨(let n := 1
    let s : State := base0.up.modLane n fun l => { l with role := .line, retired := false, pend := none }
    ⟨s, n, by decide +zetaReduce⟩),
   (let n := 1
    let s : State := base0.up.modLane n fun l =>
      { l with role := .line, rate := 0, state := .locked, pend := none, tries := 2, aligns := [(4, { mismatch := 5 })] }
    ⟨s, n, by decide +zetaReduce⟩),
   (let n := 1
    let s : State := base0.up.modLane n fun l =>
      { l with role := .line, rate := 0, state := .locked, pend := none, tries := 2, aligns := [(4, { outOfSeq := 5 })] }
    ⟨s, n, by decide +zetaReduce⟩),
   (let n := 1
    let s : State := base0.up.modLane n fun l => { l with role := .line, state := .locked, pend := none, tries := 2 }
    ⟨s, n, by decide +zetaReduce⟩),
   (let n := 1
    let s : State := base0.up.modLane n fun l => { l with role := .line, state := .locked, pend := none, tries := 3 }
    ⟨s, n, by decide +zetaReduce⟩),
   (let n := 1
    let u := 64
    let w := 128
    let s : State := (base0.up.putGrps []).modLane n fun l => { l with role := .line, state := .locked, pend := none, tries := 2 }
    ⟨s, n, u, w, by decide +zetaReduce⟩),
   (let n := 1
    let w := base0.up.ago 5859375
    let s : State := base0.up.modLane n fun l =>
      { l with role := .line, state := .locked, retired := false, pend := none, window := some w }
    ⟨s, n, w, by decide +zetaReduce⟩)⟩

theorem witness_GroupEvents :
    (∃ (s : State) (g : _) (r : _) (l : List Nat), s.rst.scanDirty = false ∧ s.grp g = some r ∧ r.state = .deskew ∧
     (∀ x ∈ l, ∀ y ∈ l, x ≤ y + 4000)) ∧
    (∃ (s : State) (g : _) (r : _) (x : _) (y : _), s.rst.scanDirty = false ∧ s.grp g = some r ∧ r.state = .deskew ∧ r.lanes = 2 ∧
     r.otl = false ∧ y + 4000 < x ∧ (∀ m ∈ s.members g r, r.expects (s.members g r) m = true ∧ r.memberLocked m = true)) ∧
    (∃ (s : State) (g : _) (r : _) (b : _) (p : _) (q : _), s.rst.scanDirty = false ∧ s.grp g = some r ∧ r.osmcUp = true ∧
     esmcLevel s.tim.qlOpt (b :: p) = some q) ∧
    (∃ (s : State) (g : _) (r : _) (b : _) (p : _), s.rst.scanDirty = false ∧ s.grp g = some r ∧
     (esmcLevel s.tim.qlOpt (b :: p) = none ∨ r.osmcUp = false)) ∧
    (∃ (s : State) (g : _) (r : _), s.rst.scanDirty = false ∧ s.grp g = some r ∧ 488282 ≤ since s.tick r.qlAt) ∧
    (∃ (s : State) (g : _) (r : _), s.grp g = some r ∧ r.otl = false ∧ s.traffic = true ∧
     r.osmcAt.all (fun a => decide (97656 ≤ since s.tick a)) = true) ∧
    (∃ (s : State) (g : _) (r : _) (a : _), s.rst.scanDirty = false ∧ s.grp g = some r ∧ r.osmcAt = some a ∧ since s.tick a < 97656) :=
  ⟨(let g := 0
    let r := { aGrp with state := .deskew }
    let l : List Nat := [4000, 0, 17]
    let s : State := base0.putGrp g r
    ⟨s, g, r, l, by decide +zetaReduce⟩),
   (let g := 0
    let r := { aGrp with state := .deskew }
    let x := 4001
    let y := 0
    let s : State := ((base0.putGrp g r).modLane 0 fun l =>
      { l with state := .locked, retired := false, rejoin := false, pidLost := false, rxPid := none }).modLane 1 fun l =>
      { l with state := .locked, retired := false, rejoin := false, pidLost := false, rxPid := none }
    ⟨s, g, r, x, y, by decide +zetaReduce⟩),
   (let g := 127
    let b := (0x0A#8)
    let p := anEsmc.drop 1
    let q := (4#4)
    let r := { aGrp with state := .aligned }
    let s : State := (base0.putGrp g r).modTim fun t => { t with selCtrl := 0 }
    ⟨s, g, r, b, p, q, by decide +zetaReduce⟩),
   (let g := 127
    let b := (3#8)
    let p := []
    let r := aGrp
    let s : State := base0.putGrp g r
    ⟨s, g, r, b, p, by decide +zetaReduce⟩),
   (let g := 127
    let r := { aGrp with qlAt := base0.ago 488282 }
    let s : State := base0.putGrp g r
    ⟨s, g, r, by decide +zetaReduce⟩),
   (let g := 127
    let r := { aGrp with osmcAt := some (base0.ago 97656) }
    let s : State := base0.up.putGrp g r
    ⟨s, g, r, by decide +zetaReduce⟩),
   (let g := 127
    let r := { aGrp with osmcAt := some (base0.ago 97655) }
    let a := base0.ago 97655
    let s : State := base0.up.putGrp g r
    ⟨s, g, r, a, by decide +zetaReduce⟩)⟩

theorem witness_TributaryEvents :
    (∃ (s : State) (n : _), 8 ≤ (tget ({} : EgRun) s.dp.eg n).bad ∧ (tget ({} : EgRun) s.dp.eg n).openNow = false) ∧
    (∃ (s : State) (n : _), (tget ({} : IngRun) s.dp.ing n).discard = true) ∧
    (∃ (s : State) (n : _), 8 ≤ (tget ({} : IngRun) s.dp.ing n).clean) ∧
    (∃ (s : State) (i : _) (e : _) (c : _) (z : _), s.dp.running i e = some z ∧ c ≤ 2) :=
  ⟨(let n := 16383
    let s : State := base0.modDp fun d => { d with eg := tins d.eg n { bad := 8 } }
    ⟨s, n, by decide +zetaReduce⟩),
   (let n := 16383
    let s : State := base0.modDp fun d => { d with ing := tins d.ing n { discard := true } }
    ⟨s, n, by decide +zetaReduce⟩),
   (let n := 16383
    let s : State := base0.modDp fun d => { d with ing := tins d.ing n { clean := 8 } }
    ⟨s, n, by decide +zetaReduce⟩),
   (let i := 5
    let e := 6
    let c := 2
    let z := (⟨5, 6, 1, 3, 7⟩ : Resize)
    let s : State := base0.modDp fun d => { d with resizes := ⟨5, 6, 1, 3, 7⟩ :: d.resizes }
    ⟨s, i, e, c, z, by decide +zetaReduce⟩)⟩

theorem witness_StitchFrames :
    (∃ (s : State) (n : _) (f : _), s.lockedStitch n = true ∧ s.glb.mode ≠ .hold ∧ markerAt f (s.lane n) = true ∧
     (s.lane n).stCfn = some (s.glb.cfn - 1) ∧ f.cfn = s.glb.cfn ∧ f.delayNs ≤ 9500 ∧ f.invalid = [] ∧ s.twin.aligning = false) ∧
    (∃ (s : State) (n : _) (f : _), s.lockedStitch n = true ∧ s.glb.mode ≠ .hold ∧ markerAt f (s.lane n) = true ∧
     (s.lane n).stCfn = some (f.cfn - 1) ∧ 9500 < f.delayNs) ∧
    (∃ (s : State) (n : _) (f : _), s.lockedStitch n = true ∧ s.glb.mode ≠ .hold ∧ markerAt f (s.lane n) = true ∧
     (s.lane n).stCfn = some (f.cfn - 1) ∧ f.cfn ≠ s.glb.cfn ∧ s.twin.aligning = false) ∧
    (∃ (s : State) (n : _) (k : BitVec 168), s.lockedStitch n = true ∧ s.glb.mode ≠ .hold ∧ Token.crcOk k = false) ∧
    (∃ (s : State) (n : _) (k : BitVec 168), s.lockedStitch n = true ∧ s.glb.mode ≠ .hold ∧ Token.crcOk k = true ∧ Token.kind k = 1 ∧
     s.twin.twinLanes.getLsbD n = true) ∧
    (∃ (s : State) (w : W64), s.twin.role = .follower ∧ fld w.toNat 60 4 = 2) ∧
    (∃ (s : State), s.twin.role ≠ .follower) :=
  ⟨(let n := 127
    let f := { aFrame with cfn := base0.glb.cfn }
    let s : State := (base0.up.modLane n fun l =>
      { l with role := .stitch, state := .locked, aligns := [(0, { offset := 9 })], stCfn := some (base0.glb.cfn - 1) }).modTwin fun t
      => { t with role := .solo, domAlign := false, joined := true }
    ⟨s, n, f, by decide +zetaReduce⟩),
   (let n := 127
    let f := { aFrame with cfn := base0.glb.cfn, delayNs := 9501 }
    let s : State := (base0.up.modLane n fun l =>
      { l with role := .stitch, state := .locked, aligns := [(0, { offset := 9 })], stCfn := some (base0.glb.cfn - 1) })
    ⟨s, n, f, by decide +zetaReduce⟩),
   (let n := 127
    let f := { aFrame with cfn := base0.glb.cfn + 1 }
    let s : State := (base0.up.modLane n fun l =>
      { l with role := .stitch, state := .locked, aligns := [(0, { offset := 9 })], stCfn := some (base0.glb.cfn) }).modTwin fun t =>
      { t with role := .solo, domAlign := false, joined := true }
    ⟨s, n, f, by decide +zetaReduce⟩),
   (let n := 127
    let k : BitVec 168 := (1#168)
    let s : State := base0.up.modLane n fun l => { l with role := .stitch, state := .locked }
    ⟨s, n, k, by decide +kernel +zetaReduce⟩),
   (let n := 127
    let k : BitVec 168 := mkToken 1 0 0 0 0
    let s : State := (base0.up.modLane n fun l => { l with role := .stitch, state := .locked }).modTwin fun t =>
      { t with twinLanes := BitVec.ofNat 128 (2 ^ 127) }
    ⟨s, n, k, by decide +kernel +zetaReduce⟩),
   (let w : W64 := BitVec.ofNat 64 (2 * 2 ^ 60 + 16383 * 2 ^ 46)
    let s : State := base0.modTwin fun t => { t with role := .follower }
    ⟨s, w, by decide +zetaReduce⟩),
   (let s : State := base0.modTwin fun t => { t with role := .leader }
    ⟨s, by decide +zetaReduce⟩)⟩

theorem witness_CommitDecisions :
    (∃ (s : State) (a : _), s.sch.armed = some a ∧ a.target - s.glb.cfn = 5 ∧ s.glb.released = true) ∧
    (∃ (s : State) (a : _), s.sch.armed = some a ∧ a.domain = true ∧ s.undecided = true ∧ cfnAdd s.glb.cfn 4 = a.target ∧ a.ready = none ∧
     s.glb.released = true) ∧
    (∃ (s : State) (a : _), s.sch.armed = some a ∧ a.domain = true ∧ s.undecided = true ∧ cfnAdd s.glb.cfn 3 = a.target ∧
     a.ready.isSome = true ∧ s.glb.released = true) ∧
    (∃ (s : State) (a : _), s.sch.armed = some a ∧ s.undecided = true ∧ cfnAdd s.glb.cfn 2 = a.target ∧ s.glb.released = true ∧
     s.decisionCause a = 0 ∧ s.pert.skewFrames = 0) ∧
    (∃ (s : State) (a : _), s.sch.armed = some a ∧ s.undecided = true ∧ cfnAdd s.glb.cfn 2 = a.target ∧ s.glb.released = true ∧
     s.decisionCause a ≠ 0) ∧
    (∃ (s : State) (f : _) (x : _), s.twin.domCommit = some f ∧ s.glb.cfn = cfnAdd f 1 ∧ s.twin.idSeen = [x] ∧ x ≠ s.presentBank.id) :=
  ⟨(let a := anArmed (base0.glb.cfn + 5)
    let s : State := base0.up.modSch fun c => { c with armed := some (anArmed (base0.glb.cfn + 5)) }
    ⟨s, a, by decide +zetaReduce⟩),
   (let a := { anArmed (base0.glb.cfn + 4) with domain := true }
    let s : State := base0.up.modSch fun c =>
      { c with armState := .commitArmed, armed := some { anArmed (base0.glb.cfn + 4) with domain := true } }
    ⟨s, a, by decide +zetaReduce⟩),
   (let a := { anArmed (base0.glb.cfn + 3) with domain := true, ready := some 0 }
    let s : State := base0.up.modSch fun c =>
      { c with armState := .commitArmed, armed := some { anArmed (base0.glb.cfn + 3) with domain := true, ready := some 0 } }
    ⟨s, a, by decide +zetaReduce⟩),
   (let a := { anArmed (base0.glb.cfn + 2) with domain := true, ready := some 0 }
    let s : State := ((base0.up.modSch fun c =>
      { c with armState := .commitArmed, armed := some { anArmed (base0.glb.cfn + 2) with domain := true, ready := some 0 } }).modGlb
      fun g => { g with triggers := [] }).modPert fun p => { p with skew := 0 }
    ⟨s, a, by decide +zetaReduce⟩),
   (let a := { anArmed (base0.glb.cfn + 2) with domain := true }
    let s : State := base0.up.modSch fun c =>
      { c with armState := .rollbackArmed, armed := some { anArmed (base0.glb.cfn + 2) with domain := true } }
    ⟨s, a, by decide +zetaReduce⟩),
   (let f := base0.glb.cfn - 1
    let x := base0.presentBank.id + 1
    let s : State := base0.modTwin fun t => { t with domCommit := some (base0.glb.cfn - 1), idSeen := [base0.presentBank.id + 1] }
    ⟨s, f, x, by decide +zetaReduce⟩)⟩

theorem witness_TakingEffect :
    (∃ (s : State) (a : _), s.sch.armed = some a ∧ s.sch.armState = .commitGo ∧ s.glb.cfn = a.effect ∧ s.traffic = true ∧ a.resume = false) ∧
    (∃ (s : State) (a : _), s.sch.armed = some a ∧ s.sch.armState = .commitGo ∧ s.glb.cfn = a.effect ∧ s.traffic = true ∧ a.resume = true) ∧
    (∃ (s : State) (a : _), s.sch.armed = some a ∧ s.sch.armState = .rollbackGo ∧ s.glb.cfn = a.effect ∧ s.traffic = true) :=
  ⟨(let a := anArmed base0.glb.cfn
    let s : State := base0.up.modSch fun c => { c with armState := .commitGo, armed := some (anArmed base0.glb.cfn) }
    ⟨s, a, by decide +zetaReduce⟩),
   (let a := { anArmed base0.glb.cfn with resume := true }
    let s : State := base0.up.modSch fun c => { c with armState := .commitGo, armed := some { anArmed base0.glb.cfn with resume := true } }
    ⟨s, a, by decide +zetaReduce⟩),
   (let a := { anArmed base0.glb.cfn with rollback := true }
    let s : State := base0.up.modSch fun c =>
      { c with armState := .rollbackGo, armed := some { anArmed base0.glb.cfn with rollback := true } }
    ⟨s, a, by decide +zetaReduce⟩)⟩

theorem witness_FutureBankEnds :
    (∃ (s : State) (l : _), s.sch.load = some l ∧ l.undef = false ∧ l.readErr = false ∧ l.again = false ∧ BankRoles s) ∧
    (∃ (s : State) (l : _), s.sch.load = some l ∧ l.undef = false ∧ l.again = true ∧
     (deliver s.sch.descs l.host l.first l.count).fail = false ∧ BankRoles s) ∧
    (∃ (s : State) (l : _), s.sch.load = some l ∧ (l.undef = true ∨ (l.again = false ∧ l.readErr = true)) ∧ BankRoles s) ∧
    (∃ (s : State) (l : _), s.sch.load = some l ∧ s.sch.future < 3) ∧
    (∃ (s : State) (b : _), s.sch.futState = .copying ∧ s.sch.copySnap = some b ∧ 8 ≤ since s.tick s.sch.passStart ∧ s.sch.future < 3) ∧
    (∃ (s : State), s.sch.futState = .checking ∧ 8 ≤ since s.tick s.sch.passStart ∧
     (runChecker s s.futureBank.corrected s.checkBypass).count = 0 ∧ s.futureBank.tblBad = [] ∧
     validations s s.futureBank.corrected = []) ∧
    (∃ (s : State), s.sch.futState = .checking ∧ 8 ≤ since s.tick s.sch.passStart ∧
     0 < (runChecker s s.futureBank.corrected s.checkBypass).count) :=
  ⟨(let l := ({ mb := 0, seq := 5, image := [], short := true, readErr := false } : Load)
    let s : State := base0.modSch fun c => { c with present := 2, past := 0, future := 1, load := some l }
    ⟨s, l, by unfold BankRoles; decide +zetaReduce⟩),
   (let l := ({ mb := 0, seq := 5, image := [], short := true, readErr := false, again := true } : Load)
    let s : State := base0.modSch fun c => { c with present := 2, past := 0, future := 1, load := some l }
    ⟨s, l, by unfold BankRoles; decide +zetaReduce⟩),
   (let l := ({ mb := 0, seq := 5, image := [], short := true, readErr := false, undef := true } : Load)
    let s : State := base0.modSch fun c => { c with present := 2, past := 0, future := 1, load := some l }
    ⟨s, l, by unfold BankRoles; decide +zetaReduce⟩),
   (let l := ({ mb := 0, seq := 5, image := [], short := true, readErr := true } : Load)
    let s : State := base0.modSch fun c => { c with future := 1, load := some l }
    ⟨s, l, by decide +kernel +zetaReduce⟩),
   (let b := ({ id := 7, dead := [4] } : Bank)
    let s : State := base0.modSch fun c =>
      { c with future := 1, futState := .copying, passStart := base0.ago 8, copySnap := some { id := 7, dead := [4] } }
    ⟨s, b, by decide +zetaReduce⟩),
   (let s : State := (base0.pv {}).modSch fun c => { c with futState := .checking, passStart := base0.ago 8 }
    ⟨s, by decide +kernel +zetaReduce⟩),
   (let s : State := ((base0.pv { cmap := [(16384 * 3, 0x800000000000#48)] }).putGrps []).modSch fun c =>
      { c with futState := .checking, passStart := base0.ago 8 }
    ⟨s, by decide +zetaReduce⟩)⟩

theorem witness_MemoryTests :
    (∃ (s : State) (m : _) (w : _), m < 0x12 ∧ w < scrubWords m ∧ s.glb.mode ≠ .hold ∧ s.rst.phase = .started ∧ s.rst.scanDirty = false) ∧
    (∃ (s : State) (m : _) (w : _) (b : _), m < 0x12 ∧ b < 72 ∧ w < scrubWords m ∧ s.glb.mode ≠ .hold ∧ s.rst.phase = .started ∧
     s.rst.scanDirty = false ∧ (s.memRun m).ces = []) ∧
    (∃ (s : State) (w : _), w < 2097152 ∧ s.sch.present < 3 ∧ s.glb.mode ≠ .hold ∧ s.rst.phase = .started ∧ s.rst.scanDirty = false ∧
     tget 0 s.presentBank.mapBad w = 0) ∧
    (∃ (s : State) (row : _) (half : _), s.coreRuns = true ∧ s.glb.mode ≠ .hold ∧ marchRow s.glb.cfn = some (row, half)) ∧
    (∃ (s : State) (r : _) (l : _), s.mem.marches = r :: l ∧ r.destr = false) ∧
    (∃ (s : State) (r : _) (l : _) (n : _), s.mem.marches = r :: l ∧ r.destr = true ∧ r.memory = 0x40 + n) :=
  ⟨(let m := 0x11
    let w := 32767
    let s : State := base0.up
    ⟨s, m, w, by decide +zetaReduce⟩),
   (let m := 0x11
    let w := 32767
    let b := 71
    let s : State := base0.up.modMem fun x => { x with mems := [] }
    ⟨s, m, w, b, by decide +zetaReduce⟩),
   (let w := 2097151
    let s : State := base0.up.pv {}
    ⟨s, w, by decide +zetaReduce⟩),
   (let row := 2047
    let half := 0
    let s : State := base0.up.modGlb fun g => { g with cfn := BitVec.ofNat 48 (2047 * 16 + 1) }
    ⟨s, row, half, by decide +zetaReduce⟩),
   (let r := (⟨0x12, false, 0, 5⟩ : MarchRun)
    let l := base0.mem.marches
    let s : State := base0.modMem fun x => { x with marches := ⟨0x12, false, 0, 5⟩ :: x.marches }
    ⟨s, r, l, by decide +zetaReduce⟩),
   (let r := (⟨0x40 + 131, true, 0, 5⟩ : MarchRun)
    let n := 131
    let l := base0.mem.marches
    let s : State := base0.modMem fun x => { x with marches := ⟨0x40 + 131, true, 0, 5⟩ :: x.marches }
    ⟨s, r, l, n, by decide +zetaReduce⟩)⟩

theorem witness_PondEvents :
    (∃ (s : State) (p : _) (n : _) (sp : _), (s.pond p).fault = true ∧ s.pnd.logicalOf p = some n ∧ s.idleSpare = some sp ∧
     s.pnd.moves.find? (·.dst = p) = none ∧ s.pnd.moves.any (·.src = p) = false) ∧
    (∃ (s : State) (p : _) (a : _), p < 128 ∧ (s.pond p).marchAt = some a ∧ (s.pond p).role = 1 ∧ (s.pond p).forced = false ∧
     (s.pond p).retired = false ∧ (s.pond p).repair = [] ∧ s.pnd.moves.find? (fun m => m.logical = p && !m.abandon) = none ∧
     cfnGe s.tick a = true ∧ 39 ≤ since s.tick a) ∧
    (∃ (s : State) (p : _) (a : _), 128 ≤ p ∧ p < 132 ∧ (s.pond p).marchAt = some a ∧ (s.pond p).role = 1 ∧ (s.pond p).forced = false ∧
     (s.pond p).retired = false ∧ (s.pond p).repair = [] ∧ cfnGe s.tick a = true ∧ 39 ≤ since s.tick a) ∧
    (∃ (s : State) (p : _) (a : _) (x : Mismatch), p < 132 ∧ (s.pond p).marchAt = some a ∧ (s.pond p).role = 1 ∧
     (s.pond p).forced = false ∧ (s.pond p).retired = false ∧ (s.pond p).repair = [] ∧ cfnGe s.tick a = true ∧ 39 ≤ since s.tick a ∧
     x.memory = 0x40 + p ∧ (s.pond p).again = false) ∧
    (∃ (s : State) (p : _) (a : _) (x : Mismatch), p < 132 ∧ (s.pond p).marchAt = some a ∧ (s.pond p).role = 1 ∧
     (s.pond p).forced = false ∧ (s.pond p).retired = false ∧ (s.pond p).repair = [] ∧ cfnGe s.tick a = true ∧ 39 ≤ since s.tick a ∧
     x.memory = 0x40 + p ∧ (s.pond p).again = true) ∧
    (∃ (s : State), s.pert.pond.getLsbD 31 = true ∧ s.pert.pond.getLsbD 30 = false ∧ s.glb.released = true ∧ s.glb.cfn = s.pert.pondCfn ∧
     fld s.pert.pond.toNat 21 8 < 132 ∧ fld s.pert.pond.toNat 0 7 < 72) :=
  ⟨(let p := 127
    let n := 127
    let sp := 128
    let s : State := ((base0.modPnd fun x => { x with ponds := [], map := [], moves := [] }).modPond 127 fun x =>
      { x with fault := true }).modMem fun m => { m with marches := [] }
    ⟨s, p, n, sp, by decide +zetaReduce⟩),
   (let p := 127
    let a := base0.ago 39
    let s : State := (base0.modPnd fun x => { x with moves := [] }).modPond 127 fun x =>
      { x with marchAt := some (base0.ago 39), role := 1, forced := false, retired := false, repair := [] }
    ⟨s, p, a, by decide +zetaReduce⟩),
   (let p := 131
    let a := base0.ago 39
    let s : State := base0.modPond 131 fun x =>
      { x with marchAt := some (base0.ago 39), role := 1, forced := false, retired := false, repair := [] }
    ⟨s, p, a, by decide +zetaReduce⟩),
   (let p := 131
    let a := base0.ago 39
    let x : Mismatch := ⟨0xC3, 1, 2047, 71⟩
    let s : State := base0.modPond 131 fun x =>
      { x with marchAt := some (base0.ago 39), role := 1, forced := false, retired := false, repair := [], again := false }
    ⟨s, p, a, x, by decide +zetaReduce⟩),
   (let p := 131
    let a := base0.ago 39
    let x : Mismatch := ⟨0xC3, 1, 2047, 71⟩
    let s : State := base0.modPond 131 fun x =>
      { x with marchAt := some (base0.ago 39), role := 1, forced := false, retired := false, repair := [], again := true }
    ⟨s, p, a, x, by decide +zetaReduce⟩),
   (let s : State := base0.up.modPert fun p =>
      { p with pondCfn := base0.glb.cfn, pond := BitVec.ofNat 32 (2 ^ 31 + 131 * 2 ^ 21 + 16383 * 128 + 71) }
    ⟨s, by decide +zetaReduce⟩)⟩

theorem witness_MaintenancePort :
    (∃ (s : State) (p : _) (v : W32), p < 132 ∧ v.getLsbD 28 = true ∧ fld v.toNat 29 2 = 1 ∧ s.rst.dbgLevel.toNat < 2) ∧
    (∃ (s : State) (p : _) (v : W32), p < 132 ∧ v.getLsbD 28 = true ∧ fld v.toNat 29 2 = 1 ∧ 2 ≤ s.rst.dbgLevel.toNat ∧
     s.portWrites p = false ∧ (s.pond p).err (b2n (v.getLsbD 14)) (fld v.toNat 0 14) = 0 ∧
     (fld v.toNat 0 14 < 16256 ∨ 16320 ≤ fld v.toNat 0 14)) ∧
    (∃ (s : State) (p : _) (v : W32), p < 132 ∧ v.getLsbD 28 = true ∧ fld v.toNat 29 2 = 1 ∧ 2 ≤ s.rst.dbgLevel.toNat ∧
     s.portWrites p = false ∧ (s.pond p).err (b2n (v.getLsbD 14)) (fld v.toNat 0 14) = 0 ∧ 16256 ≤ fld v.toNat 0 14 ∧
     fld v.toNat 0 14 < 16320) ∧
    (∃ (s : State) (p : _) (v : W32), p < 132 ∧ v.getLsbD 28 = true ∧ fld v.toNat 29 2 = 2 ∧ 2 ≤ s.rst.dbgLevel.toNat ∧
     s.portWrites p = false) ∧
    (∃ (s : State) (p : _) (v : W32), p < 132 ∧ v.getLsbD 28 = true ∧ fld v.toNat 29 2 = 2 ∧ 2 ≤ s.rst.dbgLevel.toNat ∧
     s.portWrites p = true ∧ b2n (v.getLsbD 14) = s.fillHalf) :=
  ⟨(let p := 131
    let v : W32 := BitVec.ofNat 32 (2 ^ 28 + 2 ^ 29 + 16383)
    let s : State := base0.modRst fun r => { r with dbgLevel := 1 }
    ⟨s, p, v, by decide +zetaReduce⟩),
   (let p := 131
    let v : W32 := BitVec.ofNat 32 (2 ^ 28 + 2 ^ 29 + 2 ^ 14 + 16383)
    let s : State := ((base0.modRst fun r => { r with dbgLevel := 2 }).modGlb fun g => { g with released := false }).modPond 131 fun x =>
      { x with bad := [] }
    ⟨s, p, v, by decide +zetaReduce⟩),
   (let p := 131
    let v : W32 := BitVec.ofNat 32 (2 ^ 28 + 2 ^ 29 + 2 ^ 14 + 16319)
    let s : State := ((base0.modRst fun r => { r with dbgLevel := 2 }).modGlb fun g => { g with released := false }).modPond 131 fun x =>
      { x with bad := [] }
    ⟨s, p, v, by decide +zetaReduce⟩),
   (let p := 131
    let v : W32 := BitVec.ofNat 32 (2 ^ 28 + 2 ^ 30 + 16383)
    let s : State := ((base0.modRst fun r => { r with dbgLevel := 2 }).modGlb fun g => { g with released := false })
    ⟨s, p, v, by decide +zetaReduce⟩),
   (let p := 127
    let v : W32 := BitVec.ofNat 32 (2 ^ 28 + 2 ^ 30 + 2 ^ 14 + 16383)
    let s : State := ((base0.up.modRst fun r => { r with dbgLevel := 3 }).modGlb fun g => { g with cfn := 1 }).modPnd fun x =>
      { x with map := [] }
    ⟨s, p, v, by decide +zetaReduce⟩)⟩

theorem witness_EnginesAndHarvest :
    (∃ (s : State) (e : _) (c : _), e < 1024 ∧ 1 ≤ c ∧ c ≤ 5 ∧ s.glb.released = true ∧ (s.eng.run e).state = .inService ∧
     (s.eng.run e).faulted = false) ∧
    (∃ (s : State) (e : _), ((s.eng.run e).state = .covered ∨ (s.eng.run e).state = .uncovered) ∧ 1 ≤ since s.tick (s.eng.run e).since) ∧
    (∃ (s : State) (e : _), (s.eng.run e).state = .selfTest ∧ 64 ≤ since s.tick (s.eng.run e).since ∧ (s.eng.run e).testBad = false) ∧
    (∃ (s : State) (e : _) (p : _), (s.eng.run e).state = .selfTest ∧ 64 ≤ since s.tick (s.eng.run e).since ∧
     (p = false ∨ (s.eng.run e).testBad = true)) ∧
    (∃ (s : State) (e : _) (w : _), (s.eng.run e).window = some w ∧ 5859375 ≤ since s.tick w ∧ (s.eng.run e).events < 3) ∧
    (∃ (s : State), s.eng.harvest.enable = true ∧ s.eng.harvest.running = false ∧ s.glb.bme = true ∧ s.eng.harvest.startAt = some s.tick) ∧
    (∃ (s : State) (r : _), s.eng.harvest.running = true ∧ s.eng.records.getLast? = some r) ∧
    (∃ (s : State) (r : _), s.eng.harvest.running = true ∧ s.eng.records.getLast? = some r ∧ s.glb.secDue = true) :=
  ⟨(let e := 1023
    let c := 4
    let s : State := base0.up.modEng fun x => { x with engs := tins x.engs 1023 { events := 1 } }
    ⟨s, e, c, by decide +zetaReduce⟩),
   (let e := 1023
    let s : State := base0.up.modEng fun x =>
      { x with engs := tins x.engs 1023 { state := .uncovered, since := base0.ago 1, testBad := true } }
    ⟨s, e, by decide +zetaReduce⟩),
   (let e := 1023
    let s : State := base0.up.modEng fun x =>
      { x with engs := tins (tins x.engs 2 { covering := some 1023 }) 1023 { state := .selfTest, since := base0.ago 64 } }
    ⟨s, e, by decide +zetaReduce⟩),
   (let e := 1023
    let p := false
    let s : State := base0.up.modEng fun x => { x with engs := tins x.engs 1023 { state := .selfTest, since := base0.ago 64 } }
    ⟨s, e, p, by decide +zetaReduce⟩),
   (let e := 1023
    let w := base0.ago 5859375
    let s : State := base0.up.modEng fun x => { x with engs := tins x.engs 1023 { events := 2, window := some (base0.ago 5859375) } }
    ⟨s, e, w, by decide +zetaReduce⟩),
   (let s : State := (base0.up.modEng fun x =>
      { x with harvest := { x.harvest with enable := true, running := false, startAt := some base0.tick } }).modGlb fun g =>
      { g with bme := true }
    ⟨s, by decide +zetaReduce⟩),
   (let r := (⟨4096, [1], [], none⟩ : HarvestRec)
    let s : State := base0.modEng fun x =>
      { x with harvest := { x.harvest with running := true }, records := x.records ++ [⟨4096, [1], [], none⟩] }
    ⟨s, r, by decide +zetaReduce⟩),
   (let r := (⟨4096, [1], [], none⟩ : HarvestRec)
    let s : State := (base0.modEng fun x =>
      { x with harvest := { x.harvest with running := true }, records := x.records ++ [⟨4096, [1], [], none⟩] }).modGlb fun g =>
      { g with secDue := true }
    ⟨s, r, by decide +zetaReduce⟩)⟩

theorem witness_ProtectionEvents :
    (∃ (s : State) (n : _) (p : _) (r : _) (d : _), s.pg n = some p ∧ tfind s.prot n = some r ∧ r.tWSf = some d ∧ p.hold ≤ since s.tick d) ∧
    (∃ (s : State) (n : _) (p : _) (r : _) (d : _), s.pg n = some p ∧ tfind s.prot n = some r ∧ r.tPSd = some d ∧ p.hold ≤ since s.tick d) ∧
    (∃ (s : State) (n : _) (p : _) (r : _) (d : _), s.pg n = some p ∧ tfind s.prot n = some r ∧ r.wtr = some d ∧
     secFrames p.wtr ≤ since s.tick d) ∧
    (∃ (s : State) (n : _) (p : _) (r : _), s.pg n = some p ∧ p.aps = true ∧ tfind s.prot n = some r) ∧
    (∃ (r : PgRun) (v : _), r.rxNext = some v) ∧
    (∃ (s : State) (n : _) (p : _) (r : _) (d : _), s.pg n = some p ∧ p.aps = true ∧ tfind s.prot n = some r ∧ r.apsSince = some d ∧
     4883 ≤ since s.tick d) ∧
    (∃ (r : PgRun) (d : _), r.nrDue = true ∧ r.apsSince = some d) :=
  ⟨(let n := 8191
    let p := aPg
    let d := base0.ago 10000
    let r := { ({} : PgRun) with tWSf := some (base0.ago 10000) }
    let s : State := (base0.pv { pgs := [(8191, aPg)] }).putProt 8191 { tWSf := some (base0.ago 10000) }
    ⟨s, n, p, r, d, by decide +zetaReduce⟩),
   (let n := 8191
    let p := aPg
    let d := base0.ago 10000
    let r := { ({} : PgRun) with tPSd := some (base0.ago 10000) }
    let s : State := (base0.pv { pgs := [(8191, aPg)] }).putProt 8191 { tPSd := some (base0.ago 10000) }
    ⟨s, n, p, r, d, by decide +zetaReduce⟩),
   (let n := 8191
    let p := aPg
    let d := base0.ago 29296875
    let r := { ({} : PgRun) with wtr := some (base0.ago 29296875) }
    let s : State := (base0.pv { pgs := [(8191, aPg)] }).putProt 8191 { wtr := some (base0.ago 29296875) }
    ⟨s, n, p, r, d, by decide +zetaReduce⟩),
   (let n := 8191
    let p := aPg
    let r := { ({} : PgRun) with top := 3 }
    let s : State := (base0.pv { pgs := [(8191, aPg)] }).putProt 8191 { top := 3 }
    ⟨s, n, p, r, by decide +zetaReduce⟩),
   (let r : PgRun := { ({} : PgRun) with rxNext := some 7, apsSince := some 3 }
    let v := (7#32)
    ⟨r, v, by decide +zetaReduce⟩),
   (let n := 8191
    let p := aPg
    let d := base0.ago 4883
    let r := { ({} : PgRun) with apsSince := some (base0.ago 4883) }
    let s : State := (base0.pv { pgs := [(8191, aPg)] }).putProt 8191 { apsSince := some (base0.ago 4883) }
    ⟨s, n, p, r, d, by decide +zetaReduce⟩),
   (let r : PgRun := { ({} : PgRun) with nrDue := true, apsSince := some 3 }
    let d := (3#48)
    ⟨r, d, by decide +zetaReduce⟩)⟩

theorem witness_CipherBlocks :
    (∃ (s : State) (n : _) (b : _) (r : _) (i : _), s.bank2.bindOf 1 n = some b ∧ s.traffic = true ∧ (s.encCtx n).active = true ∧
     tfind s.key.binds (16384 + n) = some r ∧ s.bank2.encPartner n b.slot = none ∧ r.leadIn = false ∧ r.failed = 0 ∧ r.switch = 0 ∧
     (s.key.slot b.slot).actReady = false ∧ (s.key.slot b.slot).find .current = some i ∧ ((s.key.slot b.slot).half i).room = true) ∧
    (∃ (s : State) (n : _) (b : _) (r : _) (i : _), s.bank2.bindOf 1 n = some b ∧ s.traffic = true ∧ (s.encCtx n).active = true ∧
     tfind s.key.binds (16384 + n) = some r ∧ s.bank2.encPartner n b.slot = none ∧ r.leadIn = true ∧ r.failed ≠ 3 ∧ r.switch = 0 ∧
     (s.key.slot b.slot).find .current = some i ∧ (s.key.slot b.slot).actReady = false) ∧
    (∃ (s : State) (n : _) (b : _) (r : _) (h : CipherHeader), s.presentBank.bindOf 0 n = some b ∧ s.traffic = true ∧
     tfind s.key.binds n = some r ∧ s.ingFail n = false ∧ r.state = .acquire ∧
     crc8 (beBytes 6 h.inv.toNat ++ [h.ctl]) = h.hcrc.toNat ∧ ((s.key.slot b.slot).half (h.ctl.getLsbD 7)).state = .current ∧
     ((s.key.slot b.slot).half (h.ctl.getLsbD 7)).room = true) ∧
    (∃ (s : State) (n : _) (b : _) (r : _) (h : CipherHeader), s.presentBank.bindOf 0 n = some b ∧ s.traffic = true ∧
     tfind s.key.binds n = some r ∧ s.ingFail n = false ∧ r.state = .run ∧ crc8 (beBytes 6 h.inv.toNat ++ [h.ctl]) = h.hcrc.toNat ∧
     h.ctl.getLsbD 7 = r.ki ∧ ((s.key.slot b.slot).half r.ki).state = .current ∧ ((s.key.slot b.slot).half r.ki).room = true ∧
     h.inv.toNat ≤ r.inv.toNat) ∧
    (∃ (s : State) (n : _) (b : _) (r : _) (d : _) (l : _), s.presentBank.bindOf 0 n = some b ∧ s.traffic = true ∧
     tfind s.key.binds n = some r ∧ r.pipe.due = d :: l ∧ s.ingFail n = false) ∧
    (∃ (s : State) (n : _) (b : _) (r : _) (d : _) (l : _) (tag : _) (miss : _), s.presentBank.bindOf 0 n = some b ∧ s.traffic = true ∧
     tfind s.key.binds n = some r ∧ r.pipe.due = d :: l ∧ s.ingFail n = false ∧ (miss = true ∨ tag ≠ d.2)) ∧
    (∃ (s : State) (n : _) (b : _) (r : _) (d : _) (l : _), s.presentBank.bindOf 0 n = some b ∧ s.traffic = true ∧
     tfind s.key.binds n = some r ∧ r.pipe.due = d :: l ∧ s.ingFail n = true) ∧
    (∃ (s : State) (n : _), (tget ({} : IngRun) s.dp.ing n).untrust = some 0) ∧
    (∃ (p : CStream), p.n + 1 = payloadBytes) :=
  ⟨(let n := 5
    let b := (⟨9, true, 1⟩ : Bind)
    let i := true
    let r := { ({} : BindRun) with slot := 9, state := .encrypt, ki := true, inv := 41, leadIn := false }
    let s : State := base0.bound.putBind (16384 + 5) { slot := 9, state := .encrypt, ki := true, inv := 41, leadIn := false } curSlot
    ⟨s, n, b, r, i, by decide +zetaReduce⟩),
   (let n := 5
    let b := (⟨9, true, 1⟩ : Bind)
    let i := true
    let r := { ({} : BindRun) with state := .encrypt }
    let s : State := base0.bound.putBind (16384 + 5) { state := .encrypt } curSlot
    ⟨s, n, b, r, i, by decide +zetaReduce⟩),
   (let n := 5
    let b := (⟨9, true, 1⟩ : Bind)
    let h : CipherHeader := goodHeader 77 true
    let r := ({} : BindRun)
    let s : State := base0.bound.putBind 5 {} curSlot
    ⟨s, n, b, r, h, by decide +kernel +zetaReduce⟩),
   (let n := 5
    let b := (⟨9, true, 1⟩ : Bind)
    let h : CipherHeader := goodHeader 41 true
    let r := { ({} : BindRun) with state := .run, ki := true, inv := 41 }
    let s : State := base0.bound.putBind 5 { state := .run, ki := true, inv := 41 } curSlot
    ⟨s, n, b, r, h, by decide +kernel +zetaReduce⟩),
   (let n := 5
    let b := (⟨9, true, 1⟩ : Bind)
    let d := (true, 7#128)
    let l := ([] : List (Bool × BitVec 128))
    let r := { ({} : BindRun) with state := .run, pipe := { due := [(true, 7#128)] } }
    let s : State := base0.bound.putBind 5 { state := .run, pipe := { due := [(true, 7#128)] } } curSlot
    ⟨s, n, b, r, d, l, by decide +zetaReduce⟩),
   (let n := 5
    let b := (⟨9, true, 1⟩ : Bind)
    let d := (true, 7#128)
    let l := ([] : List (Bool × BitVec 128))
    let tag := 0#128
    let miss := true
    let r := { ({} : BindRun) with state := .run, pipe := { due := [(true, 7#128)] } }
    let s : State := base0.bound.putBind 5 { state := .run, pipe := { due := [(true, 7#128)] } } curSlot
    ⟨s, n, b, r, d, l, tag, miss, by decide +zetaReduce⟩),
   (let n := 5
    let b := (⟨9, true, 1⟩ : Bind)
    let d := (true, 7#128)
    let l := ([] : List (Bool × BitVec 128))
    let r := { ({} : BindRun) with state := .run, pipe := { due := [(true, 7#128)] } }
    let s : State := (base0.bound.putGrps []).putBind 5 { state := .run, pipe := { due := [(true, 7#128)] } } curSlot
    ⟨s, n, b, r, d, l, by decide +zetaReduce⟩),
   (let n := 16383
    let s : State := base0.modDp fun d => { d with ing := tins d.ing 16383 { untrust := some 0 } }
    ⟨s, n, by decide +zetaReduce⟩),
   (let p : CStream := { ({} : CStream) with n := 121855 }
    ⟨p, by decide +zetaReduce⟩)⟩

theorem witness_CipherPipes :
    (∃ (s : State) (c : _) (d : _) (p : _) (n : _), c < 16 ∧ d < 2 ∧ p < 8 ∧ n < 16 ∧ s.rst.variant ≠ 2 ∧ s.traffic = true ∧
     (s.key.pipe (pipeKey c d p)).state = 0 ∧ (s.key.pipe (pipeKey c d p)).window = none) ∧
    (∃ (s : State) (c : _) (d : _) (p : _) (n : _), c < 16 ∧ d < 2 ∧ p < 8 ∧ 16 ≤ n ∧ s.rst.variant ≠ 2 ∧ s.traffic = true ∧
     (s.key.pipe (pipeKey c d p)).state = 0) ∧
    (∃ (s : State) (n : _), (s.ingCtx n).active = true ∧ (s.presentBank.bindOf 0 n).isSome = true ∧ s.traffic = true ∧
     (s.key.pipe (pipeKey ((s.ingCtx n).stream.toNat / 8) 0 ((s.ingCtx n).stream.toNat % 8))).state = 1 ∧
     (s.key.pipe (pipeKey ((s.ingCtx n).stream.toNat / 8) 0 8)).state = 0 ∧ s.key.spare = []) ∧
    (∃ (s : State) (c : _) (d : _) (p : _), (s.key.pipe (pipeKey c d p)).state = 2 ∧ 64 ≤ since s.tick (s.key.pipe (pipeKey c d p)).since) ∧
    (∃ (s : State) (c : _) (d : _) (p : _), (s.key.pipe (pipeKey c d p)).state = 2 ∧ 64 ≤ since s.tick (s.key.pipe (pipeKey c d p)).since) ∧
    (∃ (s : State) (c : _) (d : _), c < 16 ∧ d < 2 ∧ s.rst.variant ≠ 2 ∧ s.glb.released = true ∧ s.key.votes c d = true ∧
     97657 ≤ since s.tick (s.key.pipe (pipeKey c d 8)).since) :=
  ⟨(let c := 15
    let d := 1
    let p := 7
    let n := 15
    let s : State := (base0.up.modRst fun r => { r with variant := 1 }).modKey fun k => { k with pipes := [] }
    ⟨s, c, d, p, n, by decide +zetaReduce⟩),
   (let c := 15
    let d := 1
    let p := 7
    let n := 16
    let s : State := (base0.up.modRst fun r => { r with variant := 1 }).modKey fun k => { k with pipes := [] }
    ⟨s, c, d, p, n, by decide +zetaReduce⟩),
   (let n := 5
    let s : State := base0.bound.modKey fun k => { k with pipes := [(487, { state := 1 })], spare := [] }
    ⟨s, n, by decide +zetaReduce⟩),
   (let c := 15
    let d := 1
    let p := 8
    let s : State := base0.modKey fun k => { k with pipes := tins k.pipes (15 * 32 + 16 + 8) { state := 2, since := base0.ago 64 } }
    ⟨s, c, d, p, by decide +zetaReduce⟩),
   (let c := 15
    let d := 1
    let p := 8
    let s : State := base0.modKey fun k => { k with pipes := tins k.pipes (15 * 32 + 16 + 8) { state := 2, since := base0.ago 64 } }
    ⟨s, c, d, p, by decide +zetaReduce⟩),
   (let c := 15
    let d := 1
    let s : State := (base0.up.modRst fun r => { r with variant := 1 }).modKey fun k =>
      { k with spare := [], pipes := [(15 * 32 + 16 + 8, { since := base0.ago 97657 })] }
    ⟨s, c, d, by decide +zetaReduce⟩)⟩

theorem witness_TimingCandidates :
    (∃ (s : State) (i : _), (s.tim.cand i).enabled = true) ∧
    (∃ (s : State) (i : _), (s.tim.cand i).state = .wtr ∧ secFrames s.tim.wtr ≤ since s.tick (s.tim.cand i).since) ∧
    (∃ (s : State) (i : _), (s.tim.cand i).enabled = true ∧ s.hostSourced i (s.tim.cand i) = true ∧ (s.tim.cand i).timeout ≠ 0 ∧
     secFrames (s.tim.cand i).timeout.toNat ≤ since s.tick ((s.tim.cand i).qlAt.getD 0)) ∧
    (∃ (s : State) (i : _) (j : _) (x : Int) (y : Int), i < j ∧ s.tim.equalRank i j = true ∧ s.pairDue i j = true ∧
     s.tim.dispPpb * 1000 < (x - y).natAbs ∧ s.tim.hoReady = false) ∧
    (∃ (s : State) (i : _) (a : _), (s.tim.cand i).state = .disputed ∧ (s.tim.cand i).agree = some a ∧ 5859375 ≤ since s.tick a) :=
  ⟨(let i := 39
    let s : State := base0.modTim fun t => { t with cands := tins t.cands 39 { enabled := true } }
    ⟨s, i, by decide +zetaReduce⟩),
   (let i := 39
    let s : State := base0.modTim fun t => { t with wtr := 300, cands := tins t.cands 39 { state := .wtr, since := base0.ago 29296875 } }
    ⟨s, i, by decide +zetaReduce⟩),
   (let i := 7
    let s : State := base0.modTim fun t =>
      { t with cands := tins t.cands 7 { enabled := true, ql := 4, timeout := 60, qlAt := some (base0.ago 5859375) } }
    ⟨s, i, by decide +zetaReduce⟩),
   (let i := 0
    let j := 7
    let x : Int := (50001 : Int)
    let y : Int := (0 : Int)
    let s : State := base0.modTim fun t =>
      { t with selCtrl := 0x69400000#32, hoReady := false, dispPpb := 50, cmpAt := none, pairs := [(7, base0.ago 976563)], cands := [(0, { state := .qualified, ql := 2, prio := 1, freq := 3 }), (7, { state := .qualified, ql := 2, prio := 1, freq := 3 })] }
    ⟨s, i, j, x, y, by decide +zetaReduce⟩),
   (let i := 7
    let a := base0.ago 5859375
    let s : State := base0.modTim fun t =>
      { t with cands := tins t.cands 7 { state := .disputed, agree := some (base0.ago 5859375), against := some 1 } }
    ⟨s, i, a, by decide +zetaReduce⟩)⟩

theorem witness_TimingStates :
    (∃ (s : State) (c : _), s.tim.state = .transition ∧ s.tim.sel = some c ∧ s.tim.selectable s.tim.fallback c = true ∧ s.tim.force = 0 ∧
     s.timInForce.choose = some (c, s.tim.fallback) ∧ s.timInForce.selectable s.tim.auto c = true ∧ s.glb.secDue = false) ∧
    (∃ (s : State), s.tim.state = .acquiring ∧ s.tim.lockFrames ≤ since s.tick s.tim.since) ∧
    (∃ (s : State) (p : Int), s.tim.state = .locked ∧ 1000 < p.natAbs) ∧
    (∃ (p : Int), p.natAbs ≤ 1000) ∧
    (∃ (s : State), s.tim.state = .locked ∧ secFrames 62 ≤ since s.tick s.tim.lockedAt) ∧
    (∃ (s : State), s.tim.state = .holdover ∧ s.glb.secDue = false ∧ secFrames s.tim.hoLimit ≤ since s.tick s.tim.since) ∧
    (∃ (s : State), s.tim.swapH ≠ 0 ∧ hourFrames s.tim.swapH ≤ since s.tick s.tim.lastSwap ∧ s.swapReady = true) ∧
    (∃ (s : State), s.rst.phase = .started ∧ s.rst.scanDirty = false ∧ s.tim.localOsc = false ∧ s.coverReady 0 = false) ∧
    (∃ (s : State), s.rst.phase = .started ∧ s.rst.scanDirty = false ∧ s.tim.localOsc = false ∧ s.coverReady 0 = true) :=
  ⟨(let c := 0
    let s : State := (base0.modTim fun t =>
      { t with selCtrl := 0x69400000#32, state := .transition, sel := some 0, fallback := false, cands := [(0, { enabled := true, state := .qualified, ql := 2, prio := 1, freq := 3 })] }).modGlb
      fun g => { g with secDue := false }
    ⟨s, c, by decide +zetaReduce⟩),
   (let s : State := base0.modTim fun t => { t with state := .acquiring, selCtrl := 0, since := base0.ago 976562500 }
    ⟨s, by decide +zetaReduce⟩),
   (let p : Int := (-1001 : Int)
    let s : State := base0.modTim fun t => { t with state := .locked }
    ⟨s, p, by decide +zetaReduce⟩),
   (let p : Int := (-1000 : Int)
    ⟨p, by decide +zetaReduce⟩),
   (let s : State := base0.modTim fun t => { t with state := .locked, lockedAt := base0.ago 6054688 }
    ⟨s, by decide +zetaReduce⟩),
   (let s : State := (base0.modTim fun t => { t with state := .holdover, hoLimit := 1, since := base0.ago 97657 }).modGlb fun g =>
      { g with secDue := false }
    ⟨s, by decide +zetaReduce⟩),
   (let s : State := ((base0.modTim fun t =>
      { t with state := .locked, swapH := 1, lastSwap := base0.ago 351562500, activeTu := false, aligned := true }).unit' 0 0 (fun u =>
      { u with state := .active })).unit' 0 1 fun u => { u with state := .ready }
    ⟨s, by decide +zetaReduce⟩),
   (let s : State := ((base0.up.modTim fun t => { t with localOsc := false, activeTu := false }).unit' 0 0 (fun u =>
      { u with state := .active })).unit' 0 1 fun u => { u with state := .resync }
    ⟨s, by decide +zetaReduce⟩),
   (let s : State := ((base0.up.modTim fun t => { t with localOsc := false, activeTu := false }).unit' 0 0 (fun u =>
      { u with state := .active })).unit' 0 1 fun u => { u with state := .ready }
    ⟨s, by decide +zetaReduce⟩)⟩

theorem witness_RedundantUnits :
    (∃ (s : State), s.voted 1 (s.activeOf 1) = true ∧ s.coverReady 1 = true) ∧
    (∃ (s : State), s.voted 1 (s.standbyOf 1) = true ∧ s.cps.update = none) ∧
    (∃ (s : State) (p : _) (u : _), s.voted p u = true ∧ s.pert.hbMutes = false) ∧
    (∃ (s : State) (u : _), u < 2 ∧ (s.cps.unit 0 u).state = .resync ∧ s.tim.localOsc = false) ∧
    (∃ (s : State) (u : _), u < 2 ∧ (s.cps.unit 1 u).state = .resync ∧ s.cps.update = none) ∧
    (∃ (s : State) (u : _), u < 2 ∧ (s.cps.unit 0 u).state = .resync ∧ 11718750 ≤ since s.tick (s.cps.unit 0 u).since) ∧
    (∃ (s : State) (u : _), u < 2 ∧ (s.cps.unit 1 u).state = .resync ∧ 2929688 ≤ since s.tick (s.cps.unit 1 u).since) ∧
    (∃ (s : State) (p : _) (u : _) (w : _), p < 2 ∧ u < 2 ∧ (s.cps.unit p u).window = some w ∧ 8437500000 ≤ since s.tick w ∧
     (s.cps.unit p u).state ≠ .retired) ∧
    (∃ (s : State), s.cps.swapH ≠ 0 ∧ hourFrames s.cps.swapH ≤ since s.tick s.cps.lastSwap ∧ s.coverReady 1 = true ∧ s.cps.update = none ∧
     s.rst.cpHalted = 0 ∧ s.rst.phase = .started) ∧
    (∃ (s : State) (x : _) (l : _), (s.cps.unit 1 (s.standbyOf 1)).state ≠ .retired ∧ s.mbx.journal = x :: l) ∧
    (∃ (s : State), s.rst.bootOkSeen = true ∧ s.rst.scanDirty = false ∧ s.rst.cpHalted = 0 ∧ s.coverReady 1 = true) ∧
    (∃ (s : State), s.rst.bootOkSeen = true ∧ s.rst.scanDirty = false ∧ s.rst.cpHalted = 0 ∧
     (s.cps.unit 1 (s.standbyOf 1)).state ≠ .retired ∧ s.cps.update = none) ∧
    (∃ (s : State) (u : _), u < 2 ∧ s.voted 1 u = true ∧ s.pert.hbMutes = false ∧ (s.cps.unit 1 (1 - u)).unseen = false) ∧
    (∃ (s : State) (u : _), u < 2 ∧ s.voted 1 0 = true ∧ s.voted 1 1 = true ∧ s.pert.hbMutes = false ∧
     (s.cps.unit 1 (1 - u)).unseen = true ∧ s.rst.phase = .started) ∧
    (∃ (s : State), s.voted 1 (s.activeOf 1) = true ∧ s.pert.hbMutes = false ∧ (s.cps.unit 1 (s.standbyOf 1)).state = .ready) ∧
    (∃ (s : State), s.cps.swapH ≠ 0 ∧ hourFrames s.cps.swapH ≤ since s.tick s.cps.lastSwap ∧ s.coverReady 1 = false) :=
  ⟨(let s : State := ((base0.up.modCps fun t => { t with active := true }).unit' 1 1 (fun u => { u with state := .active })).unit' 1 0 fun u
      => { u with state := .ready }
    ⟨s, by decide +zetaReduce⟩),
   (let s : State := (((base0.up.modCps fun t => { t with active := true, update := none }).unit' 1 1 (fun u =>
      { u with state := .active })).unit' 1 0 fun u => { u with state := .ready })
    ⟨s, by decide +zetaReduce⟩),
   (let p := 0
    let u := 1
    let s : State := (base0.up.unit' 0 1 (fun u => { u with state := .active })).modPert fun p => { p with hb := 0 }
    ⟨s, p, u, by decide +zetaReduce⟩),
   (let u := 1
    let s : State := (base0.modTim fun t => { t with localOsc := false }).unit' 0 1 (fun u => { u with state := .resync })
    ⟨s, u, by decide +zetaReduce⟩),
   (let u := 1
    let s : State := (base0.modCps fun t => { t with update := none }).unit' 1 1 (fun u => { u with state := .resync })
    ⟨s, u, by decide +zetaReduce⟩),
   (let u := 1
    let s : State := base0.unit' 0 1 (fun u => { u with state := .resync, since := base0.ago 11718750 })
    ⟨s, u, by decide +zetaReduce⟩),
   (let u := 1
    let s : State := base0.unit' 1 1 (fun u => { u with state := .resync, since := base0.ago 2929688 })
    ⟨s, u, by decide +zetaReduce⟩),
   (let p := 1
    let u := 1
    let w := base0.ago 8437500000
    let s : State := base0.unit' 1 1 (fun u => { u with state := .ready, window := some (base0.ago 8437500000), events := 2 })
    ⟨s, p, u, w, by decide +zetaReduce⟩),
   (let s : State := ((base0.up.modCps fun t =>
      { t with active := false, update := none, swapH := 1, lastSwap := base0.ago 351562500 }).unit' 1 0 (fun u =>
      { u with state := .active })).unit' 1 1 fun u => { u with state := .ready }
    ⟨s, by decide +zetaReduce⟩),
   (let x := JRec.step 0x0101 (0, 5) 1
    let l := base0.mbx.journal
    let s : State := ((base0.modCps fun t => { t with active := false }).modMbx fun m => { m with journal := x :: base0.mbx.journal }).unit'
      1 1 fun u => { u with state := .ready }
    ⟨s, x, l, by decide +zetaReduce⟩),
   (let s : State := ((base0.up.modCps fun t => { t with active := false }).unit' 1 0 (fun u => { u with state := .active })).unit' 1 1 fun
      u => { u with state := .ready }
    ⟨s, by decide +zetaReduce⟩),
   (let s : State := ((base0.up.modCps fun t => { t with active := false, update := none }).unit' 1 0 (fun u =>
      { u with state := .active })).unit' 1 1 fun u => { u with state := .resync }
    ⟨s, by decide +zetaReduce⟩),
   (let u := 0
    let s : State := ((base0.up.modPert fun p => { p with hb := 0 }).unit' 1 0 (fun u =>
      { u with state := .active, unseen := false })).unit' 1 1 fun u => { u with state := .ready, unseen := false }
    ⟨s, u, by decide +zetaReduce⟩),
   (let u := 0
    let s : State := ((base0.up.modPert fun p => { p with hb := 0 }).unit' 1 0 (fun u =>
      { u with state := .active, unseen := false })).unit' 1 1 fun u => { u with state := .ready, unseen := true }
    ⟨s, u, by decide +zetaReduce⟩),
   (let s : State := (((base0.up.modPert fun p => { p with hb := 0 }).modCps fun c => { c with active := false }).unit' 1 0 (fun u =>
      { u with state := .active })).unit' 1 1 fun u => { u with state := .ready }
    ⟨s, by decide +zetaReduce⟩),
   (let s : State := ((base0.modCps fun t => { t with active := false, swapH := 1, lastSwap := base0.ago 351562500 }).unit' 1 0 (fun u =>
      { u with state := .active })).unit' 1 1 fun u => { u with state := .resync }
    ⟨s, by decide +zetaReduce⟩)⟩

theorem witness_TwinRoles :
    (∃ (s : State), s.twin.role = .leader ∧ s.twin.lossDue = true ∧ s.glb.released = true) ∧
    (∃ (s : State) (d : _), s.twin.role = .follower ∧ s.twin.senior = true ∧ s.twin.lossAt = some d ∧ s.twin.hbLoss + 2 ≤ since s.tick d) ∧
    (∃ (s : State) (d : _), s.twin.role = .standbyAlone ∧ s.twin.actLow = true ∧ s.twin.lossAt = some d ∧
     2 * s.twin.hbLoss + 8 ≤ since s.tick d) ∧
    (∃ (s : State) (c : Cfn) (n : _), s.twin.joinAs ≠ 0 ∧ s.twin.joined = false ∧ s.twin.domAlign = false ∧ s.sch.dataEnable = false ∧
     s.glb.released = true ∧ n ∈ s.twinLanes ∧ s.lockedStitch n = true ∧ 3 ≤ (s.lane n).stRun ∧ (s.lane n).stCfn = some (c - 1)) ∧
    (∃ (s : State), s.twin.joined = true ∧ 100 ≤ s.twin.hbRun ∧ s.twin.joinAs = 2) ∧
    (∃ (s : State), s.twin.joined = true ∧ 100 ≤ s.twin.hbRun ∧ s.twin.joinAs = 3 ∧ s.mateFollowWaits = false) ∧
    (∃ (s : State), s.twin.role = .leader ∧ s.twin.yielding = none ∧ s.glb.released = true) ∧
    (∃ (s : State) (y : _), s.twin.role = .leader ∧ s.twin.yielding = some y ∧ cfnGe s.tick (cfnAdd y 1) = true) ∧
    (∃ (s : State) (y : _), s.twin.role = .follower ∧ s.twin.peerYield = some y ∧ cfnGe s.tick (cfnAdd y 2) = true) ∧
    (∃ (s : State), s.twin.joined = true ∧ 100 ≤ s.twin.hbRun ∧ s.twin.joinAs = 3 ∧ s.mateFollowWaits = true) :=
  ⟨(let s : State := base0.up.modTwin fun t => { t with role := .leader, lossAt := none, hbLoss := 4, hbMiss := 4, joinAs := 0 }
    ⟨s, by decide +zetaReduce⟩),
   (let d := base0.ago 6
    let s : State := base0.up.modTwin fun t => { t with role := .follower, seniorCfg := 1, lossAt := some (base0.ago 6), hbLoss := 4 }
    ⟨s, d, by decide +zetaReduce⟩),
   (let d := base0.ago 16
    let s : State := base0.up.modTwin fun t => { t with role := .standbyAlone, actLow := true, lossAt := some (base0.ago 16), hbLoss := 4 }
    ⟨s, d, by decide +zetaReduce⟩),
   (let c : Cfn := (77#48)
    let n := 127
    let s : State := ((base0.up.modTwin fun t =>
      { t with role := .activeAlone, joinAs := 2, joined := false, domAlign := false, twinLanes := BitVec.ofNat 128 (2 ^ 127) }).modSch
      fun c => { c with dataEnable := false }).modLane 127 fun l =>
      { l with role := .stitch, state := .locked, stRun := 3, stCfn := some 76 }
    ⟨s, c, n, by decide +zetaReduce⟩),
   (let s : State := base0.up.modTwin fun t => { t with role := .joining, joined := true, hbRun := 100, joinAs := 2 }
    ⟨s, by decide +zetaReduce⟩),
   (let s : State := (base0.up.modTwin fun t => { t with role := .joining, joined := true, hbRun := 100, joinAs := 3 }).modGlb fun g =>
      { g with triggers := [], mode := .degraded, modeAt := none }
    ⟨s, by decide +zetaReduce⟩),
   (let s : State := base0.up.modTwin fun t => { t with role := .leader, yielding := none }
    ⟨s, by decide +zetaReduce⟩),
   (let y := base0.ago 1
    let s : State := base0.up.modTwin fun t => { t with role := .leader, yielding := some (base0.ago 1) }
    ⟨s, y, by decide +zetaReduce⟩),
   (let y := base0.ago 2
    let s : State := base0.up.modTwin fun t => { t with role := .follower, peerYield := some (base0.ago 2) }
    ⟨s, y, by decide +zetaReduce⟩),
   (let s : State := (base0.up.modTwin fun t => { t with role := .joining, joined := true, hbRun := 100, joinAs := 3 }).modGlb fun g =>
      { g with triggers := [.hold], mode := .degraded, modeAt := none }
    ⟨s, by decide +zetaReduce⟩)⟩

theorem witness_PowerManager :
    (∃ (s : State), s.rst.powered = true ∧ s.rst.phase ≠ .inReset) ∧
    (∃ (s : State), s.pwr.avsOn = true ∧ s.pwr.retries = 0 ∧ s.pwr.highRun < 99 ∧ 645 ≤ s.pwr.cmdMv.toNat ∧ s.pwr.cmdMv.toNat ≤ 795) ∧
    (∃ (s : State), s.pwr.avsOn = true ∧ s.pwr.retries = 0 ∧ s.pwr.highRun < 99 ∧ s.pwr.cmdMv.toNat = 800) ∧
    (∃ (s : State) (w : _), s.pwr.avsOn = true ∧ w &&& Config.pmbusFaults = 0) ∧
    (∃ (s : State), s.pwr.stepDue = none) ∧
    (∃ (s : State), s.pwr.avsHeld = false ∧ s.pwr.retries < 2) ∧
    (∃ (s : State), s.pwr.avsHeld = false ∧ s.pwr.retries = 2) ∧
    (∃ (s : State) (b : _), 20 ≤ b ∧ b < 22 ∧ s.glb.released = true ∧ s.glb.power = 1 ∧ s.pwr.gated.getLsbD b = false ∧
     s.islandUsed b = false ∧ 97657 ≤ since s.tick (tget 0 s.pwr.usedAt b)) :=
  ⟨(let s : State := base0.up
    ⟨s, by decide +zetaReduce⟩),
   (let s : State := base0.modPwr fun p => { p with avsOn := true, retries := 0, highRun := 98, cmdMv := 795 }
    ⟨s, by decide +zetaReduce⟩),
   (let s : State := base0.modPwr fun p => { p with avsOn := true, retries := 0, highRun := 98, cmdMv := 800 }
    ⟨s, by decide +zetaReduce⟩),
   (⟨base0.modPwr fun p => { p with avsOn := true }, 0, rfl, by simp⟩),
   (let s : State := base0.modPwr fun p => { p with stepDue := none }
    ⟨s, by decide +zetaReduce⟩),
   (let s : State := base0.modPwr fun p => { p with avsHeld := false, retries := 1 }
    ⟨s, by decide +zetaReduce⟩),
   (let s : State := base0.modPwr fun p => { p with avsHeld := false, retries := 2 }
    ⟨s, by decide +zetaReduce⟩),
   (let b := 21
    let s : State := (((base0.up.pv {}).modGlb fun g => { g with power := 1 }).modPwr fun p =>
      { p with gated := 0, usedAt := tins p.usedAt 21 (base0.ago 97657) })
    ⟨s, b, by decide +zetaReduce⟩)⟩

theorem witness_JtagAndQuadrants :
    (∃ (s : State), s.rst.dbgLevel = 3) ∧
    (∃ (s : State), s.rst.dbgLevel ≠ 3) ∧
    (∃ (s : State) (l : _), l < 3 ∧ s.rst.phase = .started ∧ (s.rst.lc = .blank ∨ s.rst.lc = .fieldReturn)) ∧
    (∃ (s : State), s.rst.lc ≠ .blank ∧ s.rst.lc ≠ .fieldReturn) ∧
    (∃ (s : State), s.rst.fuse0.blank = true ∧ s.rst.fuse1.blank = true) ∧
    (∃ (s : State) (u : _), u < 2 ∧ 2 ≤ s.rst.dbgLevel.toNat ∧ s.rst.lc ≠ .operational ∧ s.cps.update = none) ∧
    (∃ (s : State), s.rst.dbgLevel.toNat < 2) ∧
    (∃ (s : State) (q : _), q < 4 ∧ s.rst.phase = .started ∧ s.glb.quadFail.getLsbD q = false) :=
  ⟨(let s : State := base0.modRst fun r => { r with dbgLevel := 3 }
    ⟨s, by decide +zetaReduce⟩),
   (let s : State := base0.modRst fun r => { r with dbgLevel := 2 }
    ⟨s, by decide +zetaReduce⟩),
   (let l := 2
    let s : State := base0.up.modRst fun r => { r with lc := .fieldReturn }
    ⟨s, l, by decide +zetaReduce⟩),
   (let s : State := base0.modRst fun r => { r with lc := .operational }
    ⟨s, by decide +zetaReduce⟩),
   (let s : State := base0.modRst fun r =>
      { r with fuse0 := { bitP := 0, crc := 0, variant := 0 }, fuse1 := { bitP := 0, crc := 0, variant := 0 } }
    ⟨s, by decide +zetaReduce⟩),
   (let u := 1
    let s : State := (base0.modCps fun c => { c with update := none }).modRst fun r => { r with dbgLevel := 2, lc := .fieldReturn }
    ⟨s, u, by decide +zetaReduce⟩),
   (let s : State := base0.modRst fun r => { r with dbgLevel := 1 }
    ⟨s, by decide +zetaReduce⟩),
   (let q := 3
    let s : State := base0.up.modGlb fun g => { g with quadFail := 7 }
    ⟨s, q, by decide +zetaReduce⟩)⟩

theorem witness_DeviceCommands :
    (∃ (r : MbReq) (s : State), MbReady r s ∧ Admitted 0x0101 devInfoForm r s) ∧
    (∃ (r : MbReq) (s : State), MbReady r s ∧ Admitted 0x0102 devDecommissionForm r s ∧
     (s.rst.lc = .operational ∨ s.rst.lc = .fieldReturn) ∧ s.rst.lcPend = none) ∧
    (∃ (r : MbReq) (s : State), MbReady r s ∧ Admitted 0x0103 devCpSwapForm r s ∧ s.coverReady 1 = true) ∧
    (∃ (r : MbReq) (s : State), MbReady r s ∧ Admitted 0x0104 devResetForm r s ∧ r.u8 0 ≠ 1) ∧
    (∃ (r : MbReq) (s : State), MbReady r s ∧ Admitted 0x0104 devResetForm r s ∧ r.u8 0 = 1 ∧ s.rst.funcAnswer = [] ∧
     s.funcRefused (r.u8 1) = false ∧ s.inReset (r.u8 1) = false ∧ s.clockRuns (r.u8 1) = true) ∧
    (∃ (r : MbReq) (s : State), MbReady r s ∧ Admitted 0x0105 devLcChallengeForm r s) ∧
    (∃ (r : MbReq) (s : State), MbReady r s ∧ Admitted 0x0106 devLcAdvanceForm r s ∧ s.rst.lc = .provisioned ∧ r.u8 0 = 2 ∧
     s.rst.lcPend = none) ∧
    (∃ (r : MbReq) (s : State), MbReady r s ∧ Admitted 0x0107 devDebugSetForm r s ∧ r.u8 0 ≤ s.rst.lc.freeLevel ∧ r.u8 0 < 3) ∧
    (∃ (r : MbReq) (s : State), MbReady r s ∧ Admitted 0x0107 devDebugSetForm r s ∧ s.rst.dbgLevel.toNat < r.u8 0 ∧
     s.rst.lc.freeLevel < r.u8 0 ∧ s.rst.nonce = none) ∧
    (∃ (r : MbReq) (s : State), MbReady r s ∧ Admitted 0x0108 devRedCfgForm r s) ∧
    (∃ (r : MbReq) (s : State), MbReady r s ∧ Admitted 0x0109 devUnitStatusForm r s ∧ (∀ x ∈ s.cps.records, x.length = 16)) ∧
    (∃ (r : MbReq) (s : State), MbReady r s ∧ Admitted 0x010A devUnitReadmitForm r s ∧ (s.cps.unit (r.u8 0) (r.u8 1)).state = .retired ∧
     (s.cps.unit (r.u8 0) (r.u8 1)).fresh = false) ∧
    (∃ (r : MbReq) (s : State), MbReady r s ∧ Admitted 0x010B devGpioCfgForm r s ∧ tfind s.pwr.binds (r.u8 0) = none ∧
     (r.u8 0, true) ∉ s.pwr.pinsTaken) ∧
    (∃ (r : MbReq) (s : State), MbReady r s ∧ Admitted 0x010B devGpioCfgForm r s ∧ (r.u8 0, true) ∈ s.pwr.pinsTaken) ∧
    (∃ (r : MbReq) (s : State), MbReady r s ∧ Admitted 0x010A devUnitReadmitForm r s ∧ (s.cps.unit (r.u8 0) (r.u8 1)).fresh = true) :=
  ⟨(let r : MbReq := rq 6 []
    let s : State := base0.open 6
    ⟨r, s, by unfold Admitted MbReady; decide +zetaReduce⟩),
   (let r : MbReq := rq 0 (leBytes 4 0x44434F4D)
    let s : State := (base0.open 0).modRst fun r => { r with lc := .operational, lcPend := none }
    ⟨r, s, by unfold Admitted MbReady; decide +zetaReduce⟩),
   (let r : MbReq := rq 5 []
    let s : State := (((base0.open 5).modCps fun t => { t with active := false }).unit' 1 0 (fun u => { u with state := .active })).unit' 1
      1 fun u => { u with state := .ready }
    ⟨r, s, by unfold Admitted MbReady; decide +zetaReduce⟩),
   (let r : MbReq := rq 5 [3, 0, 0x6E, 0x6E]
    let s : State := base0.open 5
    ⟨r, s, by unfold Admitted MbReady; decide +zetaReduce⟩),
   (let r : MbReq := rq 5 [1, 24, 0x6E, 0x6E]
    let s : State := ((((base0.open 5).modGlb fun g => { g with mode := .service, stopped := [] }).modPwr fun p =>
      { p with gated := 0 }).modRst fun r => { r with funcAnswer := [] })
    ⟨r, s, by unfold Admitted MbReady; decide +zetaReduce⟩),
   (let r : MbReq := rq 5 []
    let s : State := base0.open 5
    ⟨r, s, by unfold Admitted MbReady; decide +zetaReduce⟩),
   (let r : MbReq := rq 5 ([2, 0, 0, 0] ++ leBytes 4 0x4C434144 ++ zs 96)
    let s : State := (base0.open 5).modRst fun r => { r with lc := .provisioned, lcPend := none }
    ⟨r, s, by unfold Admitted MbReady; decide +zetaReduce⟩),
   (let r : MbReq := rq 5 ([2] ++ zs 103)
    let s : State := (base0.open 5).modRst fun r => { r with lc := .fieldReturn }
    ⟨r, s, by unfold Admitted MbReady; decide +zetaReduce⟩),
   (let r : MbReq := rq 5 ([2] ++ zs 103)
    let s : State := (base0.open 5).modRst fun r => { r with lc := .operational, dbgLevel := 0, nonce := none }
    ⟨r, s, by unfold Admitted MbReady; decide +zetaReduce⟩),
   (let r : MbReq := rq 5 [0x70, 8]
    let s : State := base0.open 5
    ⟨r, s, by unfold Admitted MbReady; decide +zetaReduce⟩),
   (let r : MbReq := rq 5 [1]
    let s : State := (base0.open 5).modCps fun c => { c with records := [zs 16, zs 16] }
    ⟨r, s, by unfold Admitted MbReady; decide +zetaReduce⟩),
   (let r : MbReq := rq 5 [1, 1]
    let s : State := (base0.open 5).unit' 1 1 fun u => { u with state := .retired, fresh := false }
    ⟨r, s, by unfold Admitted MbReady; decide +zetaReduce⟩),
   (let r : MbReq := rq 5 [63, 2, 1, 2, 1]
    let s : State := (base0.open 5).modPwr fun p => { p with binds := [], pinsTaken := [] }
    ⟨r, s, by unfold Admitted MbReady; decide +zetaReduce⟩),
   (let r : MbReq := rq 5 [63, 2, 1, 2, 1]
    let s : State := (base0.open 5).modPwr fun p => { p with pinsTaken := [(63, true)] }
    ⟨r, s, by unfold Admitted MbReady; decide +zetaReduce⟩),
   (let r : MbReq := rq 5 [1, 1]
    let s : State := (base0.open 5).unit' 1 1 fun u => { u with state := .retired, fresh := true }
    ⟨r, s, by unfold Admitted MbReady; decide +zetaReduce⟩)⟩

theorem witness_GroupCommands :
    (∃ (r : MbReq) (s : State), MbReady r s ∧ Admitted 0x0201 grpCreateForm r s ∧ (∀ i, i < r.u8 1 → (s.lane (r.u8 0 + i)).role = .off) ∧
     s.pnd.unusable = []) ∧
    (∃ (r : MbReq) (s : State) (x : _), MbReady r s ∧ Admitted 0x0202 grpDeleteForm r s ∧ s.grp (r.u8 0) = some x ∧
     (∀ k ∈ groupStreams (r.u8 0) x, s.presentBank.names k = false ∧ s.futureBank.names k = false)) ∧
    (∃ (r : MbReq) (s : State) (x : _), MbReady r s ∧ Admitted 0x0203 grpStatusForm r s ∧ s.grp (r.u8 0) = some x ∧ x.lanes ≤ 16) ∧
    (∃ (r : MbReq) (s : State), MbReady r s ∧ Admitted 0x0204 laneRetireForm r s ∧ (s.lane (r.u8 0)).role = .line ∧
     (s.lane (r.u8 0)).retired = false ∧ (s.lane (r.u8 0)).retiring = false) ∧
    (∃ (r : MbReq) (s : State), MbReady r s ∧ Admitted 0x0205 laneReadmitForm r s ∧ (s.lane (r.u8 0)).retired = true) ∧
    (∃ (r : MbReq) (s : State) (x : _), MbReady r s ∧ Admitted 0x0206 grpSetOptionsForm r s ∧ s.grp (r.u8 0) = some x) :=
  ⟨(let r : MbReq := rq 5 ([126, 2, 2, 0] ++ leBytes 4 7 ++ leBytes 4 7 ++ [3, 0] ++ zs 6)
    let s : State := ((base0.open 5).putLanes []).modPnd fun p => { p with unusable := [] }
    ⟨r, s, by unfold Admitted MbReady; decide +zetaReduce⟩),
   (let r : MbReq := rq 5 [126]
    let x := aGrp
    let s : State := ((base0.open 5).putGrp 126 aGrp).pv {}
    ⟨r, s, x, by unfold Admitted MbReady; decide +zetaReduce⟩),
   (let r : MbReq := rq 5 [126]
    let x := aGrp
    let s : State := ((base0.open 5).putGrp 126 aGrp)
    ⟨r, s, x, by unfold Admitted MbReady; decide +zetaReduce⟩),
   (let r : MbReq := rq 5 [127]
    let s : State := (base0.open 5).modLane 127 fun l => { l with role := .line, retired := false, pend := none }
    ⟨r, s, by unfold Admitted MbReady; decide +zetaReduce⟩),
   (let r : MbReq := rq 5 [127]
    let s : State := (base0.open 5).modLane 127 fun l => { l with role := .line, retired := true, pend := none }
    ⟨r, s, by unfold Admitted MbReady; decide +zetaReduce⟩),
   (let r : MbReq := rq 5 [127, 3, 0, 0, 5, 0, 0, 0]
    let x := aGrp
    let s : State := ((base0.open 5).putGrp 127 aGrp)
    ⟨r, s, x, by unfold Admitted MbReady; decide +zetaReduce⟩)⟩

theorem witness_TributaryCommands :
    (∃ (r : MbReq) (s : State), MbReady r s ∧ Admitted 0x0301 trbStatusForm r s) ∧
    (∃ (r : MbReq) (s : State), MbReady r s ∧ Admitted 0x0302 trbResizeForm r s ∧
     (tget ({} : CtxCfg) s.presentBank.ing (r.u16 0)).type = 7 ∧ (tget ({} : CtxCfg) s.presentBank.eg (r.u16 2)).type = 7 ∧
     (tget ({} : CtxCfg) s.presentBank.ing (r.u16 0)).resize ≠ 0 ∧ (tget ({} : CtxCfg) s.presentBank.eg (r.u16 2)).resize ≠ 0 ∧
     s.dp.running (r.u16 0) (r.u16 2) = none) ∧
    (∃ (r : MbReq) (s : State) (z : _), MbReady r s ∧ Admitted 0x0303 trbResizeAbortForm r s ∧ s.dp.running (r.u16 0) (r.u16 2) = some z) :=
  ⟨(let r : MbReq := rq 5 [0, 0, 5, 0]
    let s : State := (base0.open 5).pv aBank
    ⟨r, s, by unfold Admitted MbReady; decide +zetaReduce⟩),
   (let r : MbReq := rq 5 [5, 0, 6, 0]
    let s : State := (((base0.open 5).pv
      { ing := [(5, { active := true, type := 7, resize := 1 })], eg := [(6, { active := true, type := 7, resize := 1 })] })).modDp fun
      d => { d with resizes := [] }
    ⟨r, s, by unfold Admitted MbReady; decide +zetaReduce⟩),
   (let r : MbReq := rq 5 [5, 0, 6, 0]
    let z := (⟨5, 6, 1, 3, 7⟩ : Resize)
    let s : State := (base0.open 5).modDp fun d => { d with resizes := ⟨5, 6, 1, 3, 7⟩ :: d.resizes }
    ⟨r, s, z, by unfold Admitted MbReady; decide +zetaReduce⟩)⟩

theorem witness_ScheduleCommands :
    (∃ (r : MbReq) (h : _) (s : State), MbReady r s ∧ Admitted 0x0401 schLoadForm r s ∧ s.glb.bme = true ∧ s.futureBusy = false ∧
     step1 s (deliver s.sch.descs h (r.u16 0) (r.u16 2)) = none) ∧
    (∃ (r : MbReq) (s : State), MbReady r s ∧ Admitted 0x0401 schLoadForm r s ∧ s.glb.bme = false) ∧
    (∃ (r : MbReq) (s : State), MbReady r s ∧ Admitted 0x0402 schCopyForm r s ∧ s.futureBusy = false ∧ s.sch.armState = .idle) ∧
    (∃ (r : MbReq) (s : State), MbReady r s ∧ Admitted 0x0403 schPrepareForm r s ∧ s.futureBusy = false ∧ s.futureBank.id ≠ 0 ∧
     r.u64 0 = 0 ∧ s.futureBank.id ≠ s.presentBank.id) ∧
    (∃ (r : MbReq) (s : State), MbReady r s ∧ Admitted 0x0404 schUnprepareForm r s ∧ s.sch.armState ≠ .commitArmed ∧
     s.sch.armState ≠ .commitGo ∧ s.sch.pendCopy = none ∧ s.sch.pendPrep = none ∧
     (s.sch.futState = .checking ∨ s.sch.futState = .valid)) ∧
    (∃ (r : MbReq) (s : State), MbReady r s ∧ Admitted 0x0405 schArmForm r s ∧ r.u8 8 < 2 ∧ s.sch.armState = .idle ∧
     (s.sch.futState = .checking ∨ s.sch.futState = .valid) ∧ s.leadOk (r.cfn 0) (decide (r.u8 8 = 1)) = true ∧
     s.glb.mode.arms = true ∧ s.domainMissing (decide (r.u8 8 = 1)) = false) ∧
    (∃ (r : MbReq) (s : State), MbReady r s ∧ Admitted 0x0405 schArmForm r s ∧ s.glb.mode = .mateFollow) ∧
    (∃ (r : MbReq) (s : State) (a : _), MbReady r s ∧ Admitted 0x0406 schDisarmForm r s ∧ s.sch.armed = some a ∧ s.undecided = true) ∧
    (∃ (r : MbReq) (s : State), MbReady r s ∧ Admitted 0x0407 schRollbackForm r s ∧ s.glb.mode ≠ .mateFollow ∧ s.sch.armState = .idle ∧
     s.sch.futState ≠ .copying ∧ s.sch.pastValid = true ∧ s.leadOk (r.cfn 0) (decide (r.u8 8 = 1)) = true ∧ s.glb.mode.arms = true ∧
     s.domainMissing (decide (r.u8 8 = 1)) = false) ∧
    (∃ (r : MbReq) (s : State), MbReady r s ∧ Admitted 0x0408 schStatusForm r s ∧ s.sch.digest.length ≤ 32 ∧ s.sch.outcomes.length ≤ 16) :=
  ⟨(let r : MbReq := rq 5 [0, 0, 1, 0]
    let s : State := (((base0.open 5).modGlb fun g => { g with bme := true }).modSch fun c =>
      { c with futState := .opened, pendCopy := none, pendPrep := none, descs := [(0, 4096), (2, 320), (3, 1)], bank0 := {}, bank1 := {},
               bank2 := {} }).modMem (fun m => { m with marches := [] }) |>.modTwin fun t => { t with index := 0 }
    ⟨r, [(4096, anImage)], s, by unfold MbReady; decide +zetaReduce, by unfold Admitted; decide +zetaReduce, rfl, rfl, by
      rw [show deliver s.sch.descs [(4096, anImage)] (r.u16 0) (r.u16 2) = aDelivery from rfl, aDelivery_eq]
      exact step1_anImage s rfl⟩),
   (let r : MbReq := rq 5 [255, 3, 1, 0]
    let s : State := (base0.open 5).modGlb fun g => { g with bme := false }
    ⟨r, s, by unfold Admitted MbReady; decide +zetaReduce⟩),
   (let r : MbReq := rq 5 []
    let s : State := ((base0.open 5).modSch fun c =>
      { c with futState := .opened, armState := .idle, pendCopy := none, pendPrep := none }).modMem fun m => { m with marches := [] }
    ⟨r, s, by unfold Admitted MbReady; decide +zetaReduce⟩),
   (let r : MbReq := rq 5 (zs 8)
    let s : State := ((base0.open 5).modSch fun c =>
      { c with futState := .opened, armState := .idle, pendCopy := none, pendPrep := none, present := 0, future := 2, bank0 := { c.bank0 with id := 8 }, bank2 := { c.bank2 with id := 9 } }).modMem
      fun m => { m with marches := [] }
    ⟨r, s, by unfold Admitted MbReady; decide +zetaReduce⟩),
   (let r : MbReq := rq 5 []
    let s : State := ((base0.open 5).modSch fun c => { c with futState := .valid, armState := .idle, pendCopy := none, pendPrep := none })
    ⟨r, s, by unfold Admitted MbReady; decide +zetaReduce⟩),
   (let r : MbReq := rq 5 (cfnBytes (base0.glb.cfn % 1000 + 8) ++ zs 16)
    let s : State := ((((base0.open 5).modSch fun c => { c with futState := .valid, armState := .idle })).modGlb fun g =>
      { g with cfn := base0.glb.cfn % 1000, released := true, mode := .degraded }).modTwin fun t => { t with role := .solo }
    ⟨r, s, by unfold Admitted MbReady; decide +zetaReduce⟩),
   (let r : MbReq := rq 5 (cfnBytes 8 ++ zs 16)
    let s : State := (base0.open 5).modGlb fun g => { g with mode := .mateFollow }
    ⟨r, s, by unfold Admitted MbReady; decide +zetaReduce⟩),
   (let r : MbReq := rq 5 []
    let a := anArmed 9
    let s : State := ((base0.open 5).modSch fun c => { c with armState := .rollbackArmed, armed := some (anArmed 9) })
    ⟨r, s, a, by unfold Admitted MbReady; decide +zetaReduce⟩),
   (let r : MbReq := rq 5 (cfnBytes (base0.glb.cfn % 1000 + 16) ++ [1])
    let s : State := ((((base0.open 5).modSch fun c => { c with futState := .valid, pastValid := true, armState := .idle })).modGlb fun g =>
      { g with cfn := base0.glb.cfn % 1000, released := true, mode := .degraded }).modTwin fun t => { t with role := .leader }
    ⟨r, s, by unfold Admitted MbReady; decide +zetaReduce⟩),
   (let r : MbReq := rq 5 []
    let s : State := (base0.open 5).modSch fun c => { c with digest := [], outcomes := [⟨5, 6, 1, 2⟩] }
    ⟨r, s, by unfold Admitted MbReady; decide +zetaReduce⟩)⟩

theorem witness_ConjugationCommands :
    (∃ (r : MbReq) (s : State) (x : _) (i : _), MbReady r s ∧ Admitted 0x0501 conjNoticeForm r s ∧ s.grp (r.u8 0) = some x ∧
     x.distributed = false ∧ x.notice = none ∧ s.noticeMode = true ∧ 2 ≤ (r.cfn 8 - s.glb.cfn).toNat ∧
     (r.cfn 8 - s.glb.cfn).toNat < 2 ^ 47 ∧ (s.para (r.u8 0)).bind (·.keyed (r.u16 2)) = some i) ∧
    (∃ (r : MbReq) (s : State) (x : _) (n : _), MbReady r s ∧ Admitted 0x0502 conjCancelForm r s ∧ s.grp (r.u8 0) = some x ∧
     x.distributed = false ∧ x.notice = some n ∧ s.glb.mode ≠ .mateFollow) ∧
    (∃ (r : MbReq) (s : State), MbReady r s ∧ Admitted 0x0503 conjPinCfgForm r s ∧ s.pwr.binds = [] ∧ tget 0 s.pwr.gpioFn (r.u8 0) = 0 ∧
     (r.u8 0, false) ∉ s.pwr.pinsTaken ∧ r.u8 2 ≠ 0) ∧
    (∃ (r : MbReq) (s : State), MbReady r s ∧ Admitted 0x0504 conjStatusForm r s) ∧
    (∃ (s : State) (p : _) (g : _) (i : _) (r : _) (q : _), tfind s.pwr.binds p = some (g, 1, i, false) ∧ s.glb.released = true ∧
     s.grp g = some r ∧ r.notice = none ∧ r.distributed = false ∧ s.para g = some q ∧ s.noticeMode = true ∧ i < q.conjs.length) ∧
    (∃ (s : State) (p : _) (g : _) (i : _) (r : _), tfind s.pwr.binds p = some (g, 1, i, false) ∧ s.glb.released = true ∧
     s.grp g = some r ∧ s.noticeMode = false) ∧
    (∃ (s : State) (p : _) (g : _) (m : _) (i : _) (r : _), tfind s.pwr.binds p = some (g, m, i, false) ∧ s.grp g = some r) :=
  ⟨(let i := 1
    let r : MbReq := rq 5 ([127, 0, 3, 0, 0, 0, 0, 0] ++ cfnBytes (base0.glb.cfn % 1000 + 2))
    let x := aGrp
    let s : State := ((((base0.open 5).pv { para := [(127, { conjs := [{ m := 1 }, { m := 3 }] })] }).putGrp 127 aGrp).modGlb fun g =>
      { g with mode := .service, cfn := base0.glb.cfn % 1000 })
    ⟨r, s, x, i, by unfold Admitted MbReady; decide +zetaReduce⟩),
   (let r : MbReq := rq 5 [127]
    let n := Notice.of 9 1 3 false 5 5
    let x := { aGrp with notice := some (Notice.of 9 1 3 false 5 5) }
    let s : State := ((base0.open 5).putGrp 127 { aGrp with notice := some (Notice.of 9 1 3 false 5 5) }).modGlb fun g =>
      { g with mode := .service }
    ⟨r, s, x, n, by unfold Admitted MbReady; decide +zetaReduce⟩),
   (let r : MbReq := rq 5 [63, 127, 1, 3, 1]
    let s : State := (((base0.open 5).pv { para := [(127, { conjs := [{ m := 1 }, { m := 3 }, { m := 3 }, { m := 3 }] })] }).putGrp 127
      aGrp).modPwr fun p => { p with binds := [], pinsTaken := [], gpioFn := [] }
    ⟨r, s, by unfold Admitted MbReady; decide +zetaReduce⟩),
   (let r : MbReq := rq 5 [127]
    let s : State := (base0.open 5).putGrp 127 aGrp
    ⟨r, s, by unfold Admitted MbReady; decide +zetaReduce⟩),
   (let p := 63
    let g := 127
    let i := 1
    let r := aGrp
    let q := { ({} : Para) with conjs := [{ m := 1 }, { m := 3 }] }
    let s : State := ((base0.up.pv { para := [(127, { conjs := [{ m := 1 }, { m := 3 }] })] }).putGrp 127 aGrp).modPwr fun p =>
      { p with binds := [(63, (127, 1, 1, false))] }
    ⟨s, p, g, i, r, q, by decide +zetaReduce⟩),
   (let p := 63
    let g := 127
    let i := 1
    let r := aGrp
    let s : State := ((base0.up.putGrp 127 aGrp).modPwr fun p => { p with binds := [(63, (127, 1, 1, false))] }).modGlb fun g =>
      { g with mode := .mateFollow }
    ⟨s, p, g, i, r, by decide +zetaReduce⟩),
   (let p := 63
    let g := 127
    let m := 2
    let i := 1
    let r := aGrp
    let s : State := ((base0.putGrp 127 aGrp).modPwr fun p => { p with binds := [(63, (127, 2, 1, false))] })
    ⟨s, p, g, m, i, r, by decide +zetaReduce⟩)⟩

theorem witness_EndpointCommands :
    (∃ (r : MbReq) (s : State) (x : _), MbReady r s ∧ Admitted 0x0601 epPlaceForm r s ∧
     s.placeAll (s.draw 32).1.toNat (placeRequests r) = some x) ∧
    (∃ (r : MbReq) (s : State), MbReady r s ∧ Admitted 0x0601 epPlaceForm r s ∧ s.placeAll (s.draw 32).1.toNat (placeRequests r) = none) ∧
    (∃ (r : MbReq) (s : State), MbReady r s ∧ Admitted 0x0601 epPlaceForm r s ∧ r.u16 0 = 1 ∧ s.presentBank.epwl = [] ∧ s.eng.engs = []) ∧
    (∃ (r : MbReq) (s : State), MbReady r s ∧ Admitted 0x0602 epConfigForm r s) ∧
    (∃ (r : MbReq) (s : State), MbReady r s ∧ Admitted 0x0603 epStatusForm r s) ∧
    (∃ (r : MbReq) (s : State), MbReady r s ∧ Admitted 0x0604 epHarvestCfgForm r s ∧ s.glb.bme = true) ∧
    (∃ (r : MbReq) (s : State), MbReady r s ∧ Admitted 0x0605 engStatusForm r s) ∧
    (∃ (r : MbReq) (s : State), MbReady r s ∧ Admitted 0x0606 engReadmitForm r s ∧ (s.eng.run (r.u16 0)).state = .retired ∧
     (s.eng.run (r.u16 0)).readmit = false) :=
  ⟨(let r : MbReq := rq 5 ([1, 0] ++ zs 6 ++ [1, 0, 3, 0] ++ [0, 5, 0] ++ zs 9)
    let s : State := ((base0.open 5).pv { epwl := [] }).modEng fun e => { e with engs := [] }
    have h : (s.placeAll (s.draw 32).1.toNat [r.bytes 8 16]).isSome = true := placeAll_isSome s _ _ rfl rfl (by decide +zetaReduce)
    ⟨r, s, _, by unfold MbReady; decide +zetaReduce, by unfold Admitted; decide +zetaReduce, by
      rw [show placeRequests r = [r.bytes 8 16] from rfl]; exact (Option.some_get h).symm⟩),
   (let r : MbReq := rq 5 ([1, 0] ++ zs 6 ++ [32, 0, 3, 0] ++ [2, 5, 0] ++ zs 9)
    let s : State := (base0.open 5).pv { ing := [(5, { n := 3900000 })] }
    ⟨r, s, by unfold MbReady; decide +zetaReduce, by unfold Admitted; decide +zetaReduce,
      by
      rw [show placeRequests r = [r.bytes 8 16] from rfl]; exact placeAll_none s _ _ (by decide +kernel +zetaReduce)⟩),
   (let r : MbReq := rq 5 ([1, 0] ++ zs 6 ++ [1, 0, 3, 0] ++ [0, 5, 0] ++ zs 9)
    let s : State := ((base0.open 5).pv {}).modEng fun e => { e with engs := [] }
    ⟨r, s, by unfold Admitted MbReady; decide +zetaReduce⟩),
   (let r : MbReq := rq 5 (leBytes 4 262143 ++ leBytes 4 4 ++ zs 96 ++ [3] ++ zs 8)
    let s : State := base0.open 5
    ⟨r, s, by unfold Admitted MbReady; decide +zetaReduce⟩),
   (let r : MbReq := rq 5 (leBytes 4 262143)
    let s : State := base0.open 5
    ⟨r, s, by unfold Admitted MbReady; decide +zetaReduce⟩),
   (let r : MbReq := rq 5 (leBytes 8 4096 ++ [64, 15, 1])
    let s : State := (base0.open 5).modGlb fun g => { g with bme := true }
    ⟨r, s, by unfold Admitted MbReady; decide +zetaReduce⟩),
   (let r : MbReq := rq 5 (leBytes 2 770 ++ leBytes 2 254)
    let s : State := base0.open 5
    ⟨r, s, by unfold Admitted MbReady; decide +zetaReduce⟩),
   (let r : MbReq := rq 5 (leBytes 2 1023)
    let s : State := (base0.open 5).modEng fun x => { x with engs := tins x.engs 1023 { state := .retired } }
    ⟨r, s, by unfold Admitted MbReady; decide +zetaReduce⟩)⟩

theorem witness_ProtectionCommands :
    (∃ (r : MbReq) (s : State) (x : _), MbReady r s ∧ Admitted 0x0701 pgCommandForm r s ∧ s.glb.mode ≠ .mateFollow ∧
     tfind s.prot (r.u16 0) = some x ∧ (x.freeze = false ∨ r.u8 2 = 7) ∧ cmdPriority (r.u8 2) ≤ s.topNow (r.u16 0) ∧ r.u8 2 ≠ 5) ∧
    (∃ (r : MbReq) (s : State) (x : _), MbReady r s ∧ Admitted 0x0701 pgCommandForm r s ∧ s.glb.mode ≠ .mateFollow ∧
     tfind s.prot (r.u16 0) = some x ∧ s.topNow (r.u16 0) < cmdPriority (r.u8 2)) ∧
    (∃ (r : MbReq) (s : State), MbReady r s ∧ Admitted 0x0702 pgStatusForm r s) ∧
    (∃ (r : MbReq) (s : State), MbReady r s ∧ Admitted 0x0703 pgListForm r s ∧ s.prot = []) :=
  ⟨(let r : MbReq := rq 5 (leBytes 2 8191 ++ [1])
    let x := { ({} : PgRun) with top := 4 }
    let s : State := ((((base0.open 5).pv { pgs := [(8191, { aPg with aps := false })] }).putProt 8191 { top := 4 }).putGrps []).modGlb fun
      g => { g with mode := .service }
    ⟨r, s, x, by unfold Admitted MbReady; decide +zetaReduce⟩),
   (let r : MbReq := rq 5 (leBytes 2 8191 ++ [3])
    let x := { ({} : PgRun) with ops := 1 }
    let s : State := (((base0.open 5).pv { pgs := [(8191, { aPg with aps := false })] }).putProt 8191 { ops := 1 }).modGlb fun g =>
      { g with mode := .service }
    ⟨r, s, x, by unfold Admitted MbReady; decide +zetaReduce⟩),
   (let r : MbReq := rq 5 (leBytes 2 8191)
    let s : State := base0.open 5
    ⟨r, s, by unfold Admitted MbReady; decide +zetaReduce⟩),
   (let r : MbReq := rq 5 [0, 0, 2, 12, 1]
    let s : State := ({ base0 with prot := [] } : State).open 5
    ⟨r, s, by unfold Admitted MbReady; decide +zetaReduce⟩)⟩

theorem witness_KeyCommands :
    (∃ (r : MbReq) (s : State), MbReady r s ∧ Admitted 0x0801 keyLockForm r s ∧ r.u8 0 = 1 ∧ s.key.owner = 0) ∧
    (∃ (r : MbReq) (s : State), MbReady r s ∧ Admitted 0x0801 keyLockForm r s ∧ r.u8 0 = 2 ∧ s.key.owner = deskOwner r.mb) ∧
    (∃ (r : MbReq) (s : State) (i : _), MbReady r s ∧ Admitted 0x0802 keyLoadForm r s ∧ s.key.blocked = false ∧ s.loadsClosed = false ∧
     s.key.owner = deskOwner r.mb ∧ (s.key.slot (r.u16 0)).loadHalf = some i) ∧
    (∃ (r : MbReq) (s : State) (e : _) (i : _), MbReady r s ∧ Admitted 0x0802 keyLoadForm r s ∧ s.key.blocked = false ∧
     s.loadsClosed = false ∧ s.key.owner = deskOwner r.mb ∧ (s.key.slot (r.u16 0)).loadHalf = some i ∧
     s.rst.unwrap (r.bytes 8 48) e = none) ∧
    (∃ (r : MbReq) (s : State), MbReady r s ∧ Admitted 0x0802 keyLoadForm r s ∧ s.key.blocked = true) ∧
    (∃ (r : MbReq) (s : State), MbReady r s ∧ Admitted 0x0803 keyActivateForm r s ∧ s.key.owner = deskOwner r.mb ∧
     s.activateBad (r.u16 0) = false ∧ s.twin.role ≠ .leader) ∧
    (∃ (r : MbReq) (s : State), MbReady r s ∧ Admitted 0x0804 keyEraseForm r s ∧ s.key.owner = deskOwner r.mb) ∧
    (∃ (r : MbReq) (s : State), MbReady r s ∧ Admitted 0x0805 keyStatusForm r s ∧ s.key.binds = []) ∧
    (∃ (r : MbReq) (s : State), MbReady r s ∧ Admitted 0x0806 keyPipeStatusForm r s) ∧
    (∃ (r : MbReq) (s : State), MbReady r s ∧ Admitted 0x0807 keyPipeReadmitForm r s ∧
     (s.key.pipe (pipeKey (r.u8 0) (r.u8 1) (r.u8 2))).state = 1) :=
  ⟨(let r : MbReq := rq 6 [1]
    let s : State := (base0.open 6).modKey fun k => { k with owner := 0 }
    ⟨r, s, by unfold Admitted MbReady; decide +zetaReduce⟩),
   (let r : MbReq := rq 5 [2]
    let s : State := (base0.open 5).modKey fun k => { k with owner := 2 }
    ⟨r, s, by unfold Admitted MbReady; decide +zetaReduce⟩),
   (let r : MbReq := rq 6 (leBytes 2 16383 ++ zs 54)
    let i := false
    let s : State := ((base0.open 6).modKey fun k => { k with owner := 3, tamperSet := [], wipeBad := false, slots := [] }).modRst fun r =>
      { r with lc := .provisioned }
    ⟨r, s, i, by unfold Admitted MbReady; decide +zetaReduce⟩),
   (let r : MbReq := rq 6 (leBytes 2 16383 ++ zs 54)
    let i := false
    let e := ({ first := { data := 1 } } : FetchErrors)
    let s : State := ((base0.open 6).modKey fun k => { k with owner := 3, tamperSet := [], wipeBad := false, slots := [] }).modRst fun r =>
      { r with lc := .provisioned, kek := some 5 }
    ⟨r, s, e, i, by unfold Admitted MbReady; decide +kernel +zetaReduce⟩),
   (let r : MbReq := rq 6 (leBytes 2 16383 ++ zs 54)
    let s : State := (base0.open 6).modKey fun k => { k with wipeBad := true }
    ⟨r, s, by unfold Admitted MbReady; decide +zetaReduce⟩),
   (let r : MbReq := rq 6 (leBytes 2 16383)
    let s : State := (((base0.open 6).pv {}).modKey fun k =>
      { k with owner := 3, slots := tins k.slots 16383 { h0 := { state := .next } } }).modTwin fun t => { t with role := .solo }
    ⟨r, s, by unfold Admitted MbReady; decide +zetaReduce⟩),
   (let r : MbReq := rq 6 (leBytes 2 16383 ++ [2])
    let s : State := (base0.open 6).modKey fun k => { k with owner := 3 }
    ⟨r, s, by unfold Admitted MbReady; decide +zetaReduce⟩),
   (let r : MbReq := rq 6 (leBytes 2 16383 ++ [0, 0])
    let s : State := (base0.open 6).modKey fun k => { k with binds := [] }
    ⟨r, s, by unfold Admitted MbReady; decide +zetaReduce⟩),
   (let r : MbReq := rq 6 [15]
    let s : State := base0.open 6
    ⟨r, s, by unfold Admitted MbReady; decide +zetaReduce⟩),
   (let r : MbReq := rq 6 [15, 1, 8]
    let s : State := (base0.open 6).modKey fun k => { k with pipes := tins k.pipes (15 * 32 + 16 + 8) { state := 1 } }
    ⟨r, s, by unfold Admitted MbReady; decide +zetaReduce⟩)⟩

theorem witness_TimingCommands :
    (∃ (r : MbReq) (s : State), MbReady r s ∧ Admitted 0x0901 timCfgForm r s) ∧
    (∃ (r : MbReq) (s : State), MbReady r s ∧ Admitted 0x0902 timCandCfgForm r s ∧
     (r.u8 0 < 8 ∨ (s.lane ((r.u8 0 - 8) / 2 * 8 + r.u8 4)).role = .line)) ∧
    (∃ (r : MbReq) (s : State), MbReady r s ∧ Admitted 0x0903 timSetQlForm r s) ∧
    (∃ (r : MbReq) (s : State), MbReady r s ∧ Admitted 0x0904 timStatusForm r s) ∧
    (∃ (r : MbReq) (s : State), MbReady r s ∧ Admitted 0x0905 timHistoryForm r s ∧ s.tim.hist.length ≤ 32) ∧
    (∃ (r : MbReq) (s : State), MbReady r s ∧ Admitted 0x0906 timSwapForm r s ∧ s.swapReady = true) :=
  ⟨(let r : MbReq := rq 5 (leBytes 4 1 ++ leBytes 2 1000 ++ zs 16)
    let s : State := base0.open 5
    ⟨r, s, by unfold Admitted MbReady; decide +zetaReduce⟩),
   (let r : MbReq := rq 5 [7, 1, 15, 6, 7, 1, 60]
    let s : State := base0.open 5
    ⟨r, s, by unfold Admitted MbReady; decide +zetaReduce⟩),
   (let r : MbReq := rq 5 [39, 0xB]
    let s : State := (base0.open 5).modTim fun t => { t with selCtrl := 0, cands := tins t.cands 39 { hostQl := true } }
    ⟨r, s, by unfold Admitted MbReady; decide +zetaReduce⟩),
   (let r : MbReq := rq 5 []
    let s : State := base0.open 5
    ⟨r, s, by unfold Admitted MbReady; decide +zetaReduce⟩),
   (let r : MbReq := rq 5 []
    let s : State := (base0.open 5).modTim fun t => { t with hist := [⟨5, 1, 2, 3, 4⟩] }
    ⟨r, s, by unfold Admitted MbReady; decide +zetaReduce⟩),
   (let r : MbReq := rq 5 []
    let s : State := ((((base0.open 5).modTim fun t => { t with state := .holdover, activeTu := false, aligned := true }).unit' 0 1 fun u =>
      { u with state := .ready }))
    ⟨r, s, by unfold Admitted MbReady; decide +zetaReduce⟩)⟩

theorem witness_PowerAndDiagnosticCommands :
    (∃ (r : MbReq) (s : State), MbReady r s ∧ Admitted 0x0A01 pwrHoldForm r s ∧ s.glb.released = true ∧ s.glb.mode.running = true ∧
     s.glb.mode ≠ .hold) ∧
    (∃ (r : MbReq) (s : State), MbReady r s ∧ Admitted 0x0A02 pwrResumeForm r s ∧ s.glb.mode = .hold ∧ s.pwr.tmax < 1000) ∧
    (∃ (r : MbReq) (s : State), MbReady r s ∧ Admitted 0x0A02 pwrResumeForm r s ∧ s.glb.mode ≠ .hold) ∧
    (∃ (r : MbReq) (s : State), MbReady r s ∧ Admitted 0x0A03 pwrStatusForm r s) ∧
    (∃ (r : MbReq) (s : State), MbReady r s ∧ Admitted 0x0A04 pwrGateUnusedForm r s ∧ r.u8 0 = 1 ∧ s.glb.mode = .service) ∧
    (∃ (r : MbReq) (s : State), MbReady r s ∧ Admitted 0x0A04 pwrGateUnusedForm r s ∧ r.u8 0 = 0 ∧ s.glb.mode = .service) ∧
    (∃ (r : MbReq) (s : State), MbReady r s ∧ Admitted 0x0B01 diagMarchForm r s ∧ (s.mem.marches.any (·.memory = r.u8 0)) = false ∧
     r.u8 1 = 0) ∧
    (∃ (r : MbReq) (s : State), MbReady r s ∧ Admitted 0x0B02 diagLogForm r s ∧ s.rst.dbgLevel ≠ 0) ∧
    (∃ (r : MbReq) (s : State), MbReady r s ∧ Admitted 0x0B02 diagLogForm r s ∧ s.rst.dbgLevel = 0) ∧
    (∃ (r : MbReq) (s : State), MbReady r s ∧ Admitted 0x0B03 diagMemStatusForm r s) ∧
    (∃ (r : MbReq) (s : State) (sp : _), MbReady r s ∧ Admitted 0x0B20 diagPondSpareForm r s ∧ (s.pond (r.u8 0)).role ≠ 1 ∧
     s.pnd.moveOf (r.u8 0) = none ∧ s.idleSpare = some sp) ∧
    (∃ (r : MbReq) (s : State), MbReady r s ∧ Admitted 0x0B21 diagPondRestoreForm r s ∧ (s.pond (r.u8 0)).role = 1 ∧
     (s.pond (r.u8 0)).retired = false ∧ (s.pond (r.u8 0)).forced = true ∧ s.pnd.moveOf (r.u8 0) = none) ∧
    (∃ (r : MbReq) (s : State), MbReady r s ∧ Admitted 0x0B30 diagPerfAccessForm r s) :=
  ⟨(let r : MbReq := rq 5 []
    let s : State := (base0.open 5).modGlb fun g => { g with released := true, mode := .service }
    ⟨r, s, by unfold Admitted MbReady; decide +zetaReduce⟩),
   (let r : MbReq := rq 5 []
    let s : State := ((base0.open 5).modGlb fun g => { g with released := true, mode := .hold }).modPwr fun p =>
      { p with temps := (List.range 16).map fun i => (i, (true, (400 : Int))) }
    ⟨r, s, by unfold Admitted MbReady; decide +zetaReduce⟩),
   (let r : MbReq := rq 5 []
    let s : State := (base0.open 5).modGlb fun g => { g with mode := .degraded }
    ⟨r, s, by unfold Admitted MbReady; decide +zetaReduce⟩),
   (let r : MbReq := rq 5 []
    let s : State := base0.open 5
    ⟨r, s, by unfold Admitted MbReady; decide +zetaReduce⟩),
   (let r : MbReq := rq 5 [1]
    let s : State := (base0.open 5).modGlb fun g => { g with mode := .service }
    ⟨r, s, by unfold Admitted MbReady; decide +zetaReduce⟩),
   (let r : MbReq := rq 5 [0]
    let s : State := (base0.open 5).modGlb fun g => { g with mode := .service }
    ⟨r, s, by unfold Admitted MbReady; decide +zetaReduce⟩),
   (let r : MbReq := rq 5 [0x18, 0]
    let s : State := (base0.open 5).modMem fun m => { m with marches := [⟨3, true, 0, 5⟩] }
    ⟨r, s, by unfold Admitted MbReady; decide +zetaReduce⟩),
   (let r : MbReq := rq 5 (leBytes 4 7)
    let s : State := (base0.open 5).modRst fun r => { r with dbgLevel := 1 }
    ⟨r, s, by unfold Admitted MbReady; decide +zetaReduce⟩),
   (let r : MbReq := rq 5 (leBytes 4 7)
    let s : State := (base0.open 5).modRst fun r => { r with dbgLevel := 0 }
    ⟨r, s, by unfold Admitted MbReady; decide +zetaReduce⟩),
   (let r : MbReq := rq 5 [0xC3]
    let s : State := base0.open 5
    ⟨r, s, by unfold Admitted MbReady; decide +zetaReduce⟩),
   (let r : MbReq := rq 5 [127]
    let sp := 128
    let s : State := ((base0.open 5).modPnd fun p => { p with ponds := [], map := [], moves := [] }).modMem fun m =>
      { m with marches := [] }
    ⟨r, s, sp, by unfold Admitted MbReady; decide +zetaReduce⟩),
   (let r : MbReq := rq 5 [127]
    let s : State := ((base0.open 5).modPnd fun p => { p with moves := [] }).modPond 127 fun x =>
      { x with role := 1, retired := false, forced := true }
    ⟨r, s, by unfold Admitted MbReady; decide +zetaReduce⟩),
   (let r : MbReq := rq 5 [3]
    let s : State := base0.open 5
    ⟨r, s, by unfold Admitted MbReady; decide +zetaReduce⟩)⟩

theorem witness_FirmwareCommands :
    (∃ (r : MbReq) (s : State), MbReady r s ∧ Admitted 0x0C01 fwInfoForm r s) ∧
    (∃ (r : MbReq) (s : State), MbReady r s ∧ Admitted 0x0C02 fwWriteForm r s ∧ r.u8 0 = 0 ∧ r.u8 1 = 1 ∧ s.flashStuck = false) ∧
    (∃ (r : MbReq) (s : State), MbReady r s ∧ Admitted 0x0C03 fwSelectForm r s ∧ (s.cps.image (r.u8 0)).valid = true ∧ s.flashStuck = false) ∧
    (∃ (r : MbReq) (s : State), MbReady r s ∧ Admitted 0x0C03 fwSelectForm r s ∧ (s.cps.image (r.u8 0)).valid = false) ∧
    (∃ (r : MbReq) (s : State), MbReady r s ∧ Admitted 0x0C04 fwLiveUpdateForm r s ∧ s.cps.update = none ∧ s.coverReady 1 = true ∧
     (s.cps.image (r.u8 0)).valid = true ∧ (s.cps.image (r.u8 0)).ucodeId = s.eng.ucodeId ∧
     (s.cps.image (r.u8 0)).journal = s.cps.jVersion) ∧
    (∃ (r : MbReq) (s : State), r.mb = 0 ∧ s.rst.phase = .shallows ∧ s.glb.mode = .shallows ∧ s.inReset 7 = false ∧
     ((s.box 0).state = .idle ∨ (s.box 0).state = .done) ∧ s.cpServes = true ∧ s.pert.bellDelay 0 = 0 ∧
     s.mbx.waiting.any (Waiting.ripe s.tick) = false ∧ Admitted 0x0C05 fwRecoverStartForm r s) :=
  ⟨(let r : MbReq := rq 5 []
    let s : State := base0.open 5
    ⟨r, s, by unfold Admitted MbReady; decide +zetaReduce⟩),
   (let r : MbReq := rq 5 ([0, 1, 0, 0] ++ leBytes 4 8 ++ [7, 8, 9])
    let s : State := base0.open 5
    ⟨r, s, by unfold Admitted MbReady; decide +zetaReduce⟩),
   (let r : MbReq := rq 5 [1]
    let s : State := (base0.open 5).modCps fun c => { c with slot1 := { c.slot1 with valid := true } }
    ⟨r, s, by unfold Admitted MbReady; decide +zetaReduce⟩),
   (let r : MbReq := rq 5 [1]
    let s : State := (base0.open 5).modCps fun c => { c with slot1 := { c.slot1 with valid := false } }
    ⟨r, s, by unfold Admitted MbReady; decide +zetaReduce⟩),
   (let r : MbReq := rq 5 [1]
    let s : State := (((base0.open 5).modCps fun c =>
      { c with active := false, update := none, jVersion := 3, slot1 := { c.slot1 with valid := true, ucodeId := base0.eng.ucodeId, journal := 3 } }).unit'
      1 0 (fun u => { u with state := .active })).unit' 1 1 fun u => { u with state := .ready }
    ⟨r, s, by unfold Admitted MbReady; decide +zetaReduce⟩),
   (let r : MbReq := rq 0 [1]
    let s : State := ((base0.open 0).modRst fun r => { r with phase := .shallows }).modGlb fun g => { g with mode := .shallows }
    ⟨r, s, by unfold Admitted; decide +zetaReduce⟩)⟩

theorem witness_TwinCommands :
    (∃ (r : MbReq) (s : State) (n : _), MbReady r s ∧ Admitted 0x0D01 twinJoinForm r s ∧ s.twin.role = .solo ∧ s.twin.joinAs = 0 ∧
     s.changePending = false ∧ s.sch.dataEnable = false ∧ n ∈ s.twinLanes ∧ s.lockedStitch n = true) ∧
    (∃ (r : MbReq) (s : State), MbReady r s ∧ Admitted 0x0D02 twinLeaveForm r s ∧ s.twin.role ≠ .solo ∧ s.glb.mode ≠ .mateFollow) ∧
    (∃ (r : MbReq) (s : State), MbReady r s ∧ Admitted 0x0D03 twinStatusForm r s ∧ s.twin.hist.length ≤ 16) ∧
    (∃ (r : MbReq) (s : State), MbReady r s ∧ Admitted 0x0D04 twinCfgForm r s ∧ s.twin.role = .solo) ∧
    (∃ (r : MbReq) (s : State), MbReady r s ∧ Admitted 0x0D05 twinYieldForm r s ∧ s.twin.role = .leader ∧ s.twin.yielding = none) ∧
    (∃ (r : MbReq) (s : State), MbReady r s ∧ Admitted 0x0D10 domCfgForm r s ∧ s.sch.armState = .idle ∧ s.sch.dataEnable = false) ∧
    (∃ (r : MbReq) (s : State), MbReady r s ∧ Admitted 0x0D11 domStatusForm r s) ∧
    (∃ (r : MbReq) (s : State), MbReady r s ∧ Admitted 0x0D20 stcLaneSetForm r s ∧ (∀ n ∈ laneMask r, (s.lane n).role ≠ .line) ∧
     s.pnd.unusable = []) ∧
    (∃ (r : MbReq) (s : State), MbReady r s ∧ Admitted 0x0D21 stcLaneReleaseForm r s ∧ (∀ n ∈ laneMask r, s.stitch n = true ∧
     s.presentBank.names n = false ∧ s.futureBank.names n = false) ∧ s.sch.armed = none) :=
  ⟨(let r : MbReq := rq 5 [3]
    let n := 127
    let s : State := ((((base0.open 5).putGrps []).modTwin fun t =>
      { t with role := .solo, twinLanes := BitVec.ofNat 128 (2 ^ 127) }).modSch fun c =>
      { c with armState := .idle, dataEnable := false }).modLane 127 fun l => { l with role := .stitch, state := .locked }
    ⟨r, s, n, by unfold Admitted MbReady; decide +zetaReduce⟩),
   (let r : MbReq := rq 5 []
    let s : State := ((base0.open 5).modTwin fun t => { t with role := .leader }).modGlb fun g => { g with mode := .service }
    ⟨r, s, by unfold Admitted MbReady; decide +zetaReduce⟩),
   (let r : MbReq := rq 5 []
    let s : State := (base0.open 5).modTwin fun t => { t with hist := [] }
    ⟨r, s, by unfold Admitted MbReady; decide +zetaReduce⟩),
   (let r : MbReq := rq 5 (zs 16 ++ [2, 64, 1, 0] ++ leBytes 4 0xFFFFFFFF)
    let s : State := (base0.open 5).modTwin fun t => { t with role := .solo }
    ⟨r, s, by unfold Admitted MbReady; decide +zetaReduce⟩),
   (let r : MbReq := rq 5 []
    let s : State := (base0.open 5).modTwin fun t => { t with role := .leader, yielding := none }
    ⟨r, s, by unfold Admitted MbReady; decide +zetaReduce⟩),
   (let r : MbReq := rq 5 ([63] ++ zs 23)
    let s : State := (base0.open 5).modSch fun c => { c with armState := .idle, dataEnable := false }
    ⟨r, s, by unfold Admitted MbReady; decide +zetaReduce⟩),
   (let r : MbReq := rq 5 []
    let s : State := base0.open 5
    ⟨r, s, by unfold Admitted MbReady; decide +zetaReduce⟩),
   (let r : MbReq := rq 5 ([3] ++ zs 15)
    let s : State := (((base0.open 5).modPnd fun p => { p with unusable := [] }).modLane 0 fun l => { l with role := .off }).modLane 1 fun l
      => { l with role := .stitch }
    ⟨r, s, by unfold Admitted MbReady; decide +zetaReduce⟩),
   (let r : MbReq := rq 5 ([3] ++ zs 15)
    let s : State := ((((base0.open 5).pv {}).modLane 0 fun l => { l with role := .stitch }).modLane 1 fun l =>
      { l with role := .stitch }).modSch fun c => { c with armed := none }
    ⟨r, s, by unfold Admitted MbReady; decide +zetaReduce⟩)⟩
end Sys2Proof.Tests
end

section
/-!
PROOFS. A granted write of the register fabric (R351, R362, R369), and through it the RWP fields of `PWR.TAMPER_CFG` (R9, R425).
-/

namespace Sys2Proof.Machine

/-! ### Bits and interrupt outputs -/

theorem getLsbD_setBit_true_self {w : Nat} (v : BitVec w) {i : Nat} (hi : i < w) : (setBit v i true).getLsbD i = true := by
  have h : (BitVec.ofNat w (2 ^ i)).getLsbD i = true := by rw [BitVec.getLsbD_ofNat, Nat.testBit_two_pow_self, decide_eq_true hi]; rfl
  rw [setBit, if_pos rfl, BitVec.getLsbD_or, h, Bool.or_true]

@[simp] theorem State.settle_intSticky (s : State) : s.settle.glb.intSticky = s.glb.intSticky := by
  rw [State.settle_glb]

theorem State.raise_intSticky_self {b : Nat} (hb : b < 32) (s : State) : (s.raise b).glb.intSticky.getLsbD b = true :=
  getLsbD_setBit_true_self _ hb

/-! ### A write of the register fabric by a master that has a path to it -/

theorem held_of_started {s : State} (h : s.rst.phase = .started) : s.held = false := by
  simp [State.held, h]

/-- PCIe and both CPs may write the fabric in every state: no march and no gateway rule stops them (R362, R379). -/
theorem granted_fabric_write {m : BusMaster} (hm : m = .pcie ∨ m = .cpA ∨ m = .cpB) (b : Nat) (s : State) : s.granted m true (6, b) = true := by
  obtain rfl | rfl | rfl := hm <;> simp [State.granted, State.paths, State.gatewayMay, busIndex, State.targetMarched]

/-- A granted fabric write is the fabric's own answer and one grant of the master's path. -/
theorem exec_registerWrite_fabric {m : BusMaster} {a b : Nat} {s : State} (ha : a % 4 = 0) (hd : s.decode m a = (6, b))
    (hs : s.held = false) (hg : s.granted m true (6, b) = true) (be : BitVec 4) (v : W32) (h : HostMem) :
    exec (.registerWrite m a be v h) s = done ((s.fabricWrite m b be v h).count (560 + busIndex m) 1) := by
  have hx : exec (.registerWrite m a be v h) s = done (s.busWrite m a be v h) := rfl
  have ht : s.targetWrite m 6 b be v h = s.fabricWrite m b be v h := by simp [State.targetWrite]
  rw [hx, busWrite_aligned ha]
  obtain ⟨hh, -⟩ | ⟨-, hn, -⟩ | ⟨-, -, hw⟩ := writeOne_cases m a be v h s
  · simp [hs] at hh
  · simp [hd, hg] at hn
  · rw [hw, hd, ht]

/-- A full-word write below the tense window that no alias takes and no reset or gating hides writes its register (R5, R353, R356). -/
theorem fabricWrite_reachable {a : Nat} {s : State} (ha : a < 0x1000000) (hl : aliasOf a = none) (hr : s.unreachable a = none)
    (m : BusMaster) (v : W32) (h : HostMem) : s.fabricWrite m a 0xF v h = s.poke m a v h := by
  have hw : ¬ 0x2000000 ≤ a := by omega
  simp [State.fabricWrite, hl, hr, hw]

/-! ### `PWR.TAMPER_CFG` -/

/-- The addresses by which PCIe and the CPs name `PWR.TAMPER_CFG` (R363, R425, log entry 12). -/
def NamesTamperCfg (m : BusMaster) (a : Nat) : Prop := (m = .pcie ∧ a = 0x80010) ∨ ((m = .cpA ∨ m = .cpB) ∧ a = 0x20080010)

theorem NamesTamperCfg.master {m : BusMaster} {a : Nat} (h : NamesTamperCfg m a) : m = .pcie ∨ m = .cpA ∨ m = .cpB := by
  obtain ⟨hm, -⟩ | ⟨hm, -⟩ := h
  · exact .inl hm
  · exact .inr hm

theorem NamesTamperCfg.aligned {m : BusMaster} {a : Nat} (h : NamesTamperCfg m a) : a % 4 = 0 := by
  obtain ⟨-, rfl⟩ | ⟨-, rfl⟩ := h <;> rfl

theorem NamesTamperCfg.decode {m : BusMaster} {a : Nat} (h : NamesTamperCfg m a) (s : State) : s.decode m a = (6, 0x80010) := by
  obtain ⟨rfl, rfl⟩ | ⟨rfl | rfl, rfl⟩ := h <;> simp [State.decode, fabricTarget]

theorem unreachable_tamperCfg {s : State} (hs : s.rst.phase = .started) : s.unreachable 0x80010 = none := by
  simp [State.unreachable, hs]

theorem poke_tamperCfg (m : BusMaster) (v : W32) (h : HostMem) (s : State) : s.poke m 0x80010 v h = s.writeTamperCfg v := by
  simp [State.poke, State.pwrWrite]

/-- In a started device a write of `PWR.TAMPER_CFG` reaches the register in every life-cycle state; the state decides there. -/
theorem exec_registerWrite_tamperCfg {m : BusMaster} {a : Nat} {s : State} (h : NamesTamperCfg m a) (hs : s.rst.phase = .started) (v : W32) :
    exec (.registerWrite m a 0xF v []) s = done ((s.writeTamperCfg v).count (560 + busIndex m) 1) := by
  rw [exec_registerWrite_fabric h.aligned (h.decode s) (held_of_started hs) (granted_fabric_write h.master _ s),
    fabricWrite_reachable (by decide) (by decide) (unreachable_tamperCfg hs), poke_tamperCfg]

theorem writeTamperCfg_rejected {s : State} (h : s.rst.lc = .operational ∨ s.rst.lc = .decommissioned) (v : W32) :
    s.writeTamperCfg v = s.raise 25 := by
  obtain h | h := h <;> simp [State.writeTamperCfg, h]

theorem writeTamperCfg_writable {s : State} (h : s.rst.lc = .blank ∨ s.rst.lc = .provisioned ∨ s.rst.lc = .fieldReturn) (v : W32) :
    s.writeTamperCfg v = s.modKey fun k => { k with tamperCfg := v.setWidth 4 } := by
  obtain h | h | h := h <;> simp [State.writeTamperCfg, h]

/-- What a step that changes one part, counts an event and settles the outputs leaves unchanged. -/
theorem FrameBut.count_settle {p : Part} {s t : State} (h : FrameBut [p] s t) (i n : Nat) : FrameBut [p, .perf] s (t.count i n).settle :=
  ((h.mono (by simp)).trans ((frameBut_count i n t).mono (by simp))).then_settle

/-- Settles O14: the write reaches the register, which discards it and raises RWP_REJECT in the states its row does not name, and
takes it in those it names. -/
theorem rwpReject : Obligations.RwpReject := by
  unfold Obligations.RwpReject
  constructor
  · intro s m a v h hs hlc
    rw [exec_registerWrite_tamperCfg h hs, answers_done, writeTamperCfg_rejected hlc]
    refine ⟨by simp, ?_, (frameBut_raise 25 s).count_settle _ _⟩
    rw [State.settle_intSticky, State.count_glb]
    exact State.raise_intSticky_self (by decide) s
  · intro s m a v h hs hlc
    rw [exec_registerWrite_tamperCfg h hs, answers_done, writeTamperCfg_writable hlc]
    exact ⟨by simp, by simp, (frameBut_modKey _ s).count_settle _ _⟩

end Sys2Proof.Machine
end

section
/-!
PROOFS. The MB7 event ring: its records, its pointers, its bit of the interrupt summary and the host's `MB.EV_CONS` (R340, R343, R359).
-/

namespace Sys2Proof.Machine

/-! ### Records and slots -/

theorem padTo_length {n : Nat} {l : List Byte} (h : l.length ≤ n) : (padTo n l).length = n := by
  rw [padTo, List.length_append, List.length_replicate, Nat.add_sub_cancel' h]

/-- A record fills a slot of 64 bytes: its header of 16 and its body of 48 (R340, R342). -/
theorem EvRec.bytes_length {r : EvRec} (h : r.body.length ≤ 48) : r.bytes.length = 64 := by
  rw [EvRec.bytes, List.length_append, msgHeader_length, padTo_length h]

/-- A record as it stands in its slot: a completion (flag bit 31) keeps the sequence of its command, any other carries PROD (R340). -/
def EvRec.numbered (prod : W16) (r : EvRec) : EvRec := if r.flags.getLsbD 31 then r else { r with seq := prod }

theorem Mbx.put_of_full {m : Mbx} (h : (m.prod - m.cons).toNat = 64) (j : Bool) (r : EvRec) :
    m.put j r = { m with drop := satAdd m.drop 1 } := if_pos h

theorem Mbx.put_of_room {m : Mbx} (h : (m.prod - m.cons).toNat ≠ 64) (j : Bool) (r : EvRec) :
    m.put j r = { m with
      ring := tins m.ring (m.prod.toNat % 64) (r.numbered m.prod), prod := m.prod + 1
      journal := if j then m.journal ++ [.record (r.numbered m.prod)] else m.journal } := if_neg h

/-! ### The interrupt summary -/

theorem Mbx.interrupt_of_unread {m : Mbx} (h : m.prod ≠ m.cons) (hi : (m.box 7).intEn = true) : m.interrupt = true := by
  simp [Mbx.interrupt, h, hi]

/-- Bit 5 of a number whose other summands lie above it. -/
theorem testBit_five_b2n (k : Nat) (b : Bool) : (k * 64 + b2n b * 2 ^ 5).testBit 5 = b := by
  rw [Nat.testBit_eq_decide_div_mod_eq]
  cases b <;> simp [b2n] <;> omega

/-- `INT_SUMMARY.MBOX` is bit 5: the mailboxes' own interrupt (R359). -/
theorem State.intSummary_mbox (s : State) : s.intSummary.getLsbD 5 = (s.glb.intSticky.getLsbD 5 || s.mbx.interrupt) := by
  have hn : ∀ a b c d e f g : Nat, a * 2 ^ 12 + b * 2 ^ 11 + c * 2 ^ 10 + d * 2 ^ 9 + e * 2 ^ 8 + f * 2 ^ 7 + g * 2 ^ 6 =
      (a * 64 + b * 32 + c * 16 + d * 8 + e * 4 + f * 2 + g) * 64 := by omega
  rw [State.intSummary, BitVec.getLsbD_or, BitVec.getLsbD_or, BitVec.getLsbD_ofNat, hn, testBit_five_b2n]
  simp

/-! ### `MB.EV_CONS` -/

theorem Mbx.setCons_of_le {v : W32} {m : Mbx} (h : (v.setWidth 16 - m.cons).toNat ≤ (m.prod - m.cons).toNat) :
    m.setCons v = { m with cons := v.setWidth 16 } := if_pos h

theorem Mbx.setCons_of_passing {v : W32} {m : Mbx} (h : (m.prod - m.cons).toNat < (v.setWidth 16 - m.cons).toNat) :
    m.setCons v = m := if_neg (Nat.not_le.mpr h)

theorem unreachable_evCons {s : State} (hs : s.rst.phase = .started) (hr : s.inReset 14 = false) : s.unreachable 0x2E010 = none := by
  simp [State.unreachable, hs, hr]

theorem poke_evCons (m : BusMaster) (v : W32) (h : HostMem) (s : State) : s.poke m 0x2E010 v h = s.modMbx (Mbx.setCons v) := by
  simp [State.poke, State.mbWrite]

/-- In a started device whose MB7 is not in reset a write of `MB.EV_CONS` reaches the register. -/
theorem exec_mbEvConsWrite {s : State} (hs : s.rst.phase = .started) (hr : s.inReset 14 = false) (v : W32) :
    exec (.mbEvConsWrite 0xF v) s = done ((s.modMbx (Mbx.setCons v)).count (560 + busIndex .pcie) 1) := by
  have hx : exec (.mbEvConsWrite 0xF v) s = exec (.registerWrite .pcie 0x2E010 0xF v []) s := rfl
  have hd : s.decode .pcie 0x2E010 = (6, 0x2E010) := by simp [State.decode, fabricTarget]
  rw [hx, exec_registerWrite_fabric (by decide) hd (held_of_started hs) (granted_fabric_write (.inl rfl) _ s),
    fabricWrite_reachable (by decide) (by decide) (unreachable_evCons hs hr), poke_evCons]

/-- Settles O19: a record put into a ring with room goes to PROD's slot alone, one that finds it full is only counted, an unread one
is what bit 5 of the summary reports, and the write of CONS moves CONS or nothing. -/
theorem eventRing : Obligations.EventRing := by
  unfold Obligations.EventRing
  refine ⟨fun r => EvRec.bytes_length, ?room, fun m j r h => Mbx.put_of_full h j r, ?summary, ?taken, ?ignored⟩
  case room =>
    intro m j r h
    rw [Mbx.put_of_room h]
    exact ⟨rfl, rfl, rfl, tfind_tins_same _ _ _, fun i hi => tfind_tins_ne _ hi _⟩
  case summary =>
    intro s hu hi
    rw [State.intSummary_mbox, Mbx.interrupt_of_unread hu hi, Bool.or_true]
  case taken =>
    intro s v hs hr hv
    rw [exec_mbEvConsWrite hs hr, answers_done]
    exact ⟨Mbx.setCons_of_le hv, (frameBut_modMbx _ s).count_settle _ _⟩
  case ignored =>
    intro s v hs hr hv
    have hk : s.modMbx (Mbx.setCons v) = s := by rw [State.modMbx, Mbx.setCons_of_passing hv]
    rw [exec_mbEvConsWrite hs hr, answers_done, hk]
    exact (frameBut_count _ _ s).then_settle

end Sys2Proof.Machine
end

section
/-!
PROOFS. A host read through a broadcast alias: the fabric's answer, the comparison of the members and what the read leaves as it was
(R353, R354, R355).
-/

namespace Sys2Proof.Machine

/-! ### A read of the register fabric by PCIe -/

/-- No march and no gateway rule stops a read of the fabric by PCIe (R362, R379). -/
theorem granted_fabric_read (b : Nat) (s : State) : s.granted .pcie false (6, b) = true := by
  simp [State.granted, State.paths, State.gatewayMay, busIndex, State.targetMarched]

theorem held_of_not_inReset {s : State} (h : s.rst.phase ≠ .inReset) : s.held = false := by
  simp [State.held, h]

/-- A granted fabric read is the fabric's own answer, one grant of the path of PCIe, and the data where the host finds it. -/
theorem busRead_fabric {a b : Nat} {s : State} (ha : a % 4 = 0) (hd : s.decode .pcie a = (6, b)) (hs : s.held = false) :
    s.busRead .pcie a = ((s.fabricRead .pcie b).2.count (560 + busIndex .pcie) 1).readAnswer .pcie (s.fabricRead .pcie b).1 := by
  have ht : s.targetRead .pcie 6 b = s.fabricRead .pcie b := by simp [State.targetRead]
  obtain ⟨hh, -⟩ | ⟨-, hn, -⟩ | ⟨-, -, hr⟩ := readOne_cases .pcie a s
  · simp [hs] at hh
  · simp [hd, granted_fabric_read] at hn
  · rw [hd, ht] at hr
    rw [busRead_aligned ha (congrArg Prod.fst hr), hr]

/-! ### The alias windows -/

/-- The three alias windows lie side by side (R353). -/
theorem aliasOf_range {a o : Nat} {l : List Nat} (h : aliasOf a = some (l, o)) : 0x200000 ≤ a ∧ a < 0x22A000 := by
  simp only [aliasOf, Bool.and_eq_true, decide_eq_true_eq] at h
  split_ifs at h <;> omega

/-- For PCIe an alias is a place of the register fabric (R351). -/
theorem decode_alias {a : Nat} (h : 0x200000 ≤ a ∧ a < 0x22A000) (s : State) : s.decode .pcie a = (6, a) := by
  have h1 : ¬ 0x10000000 ≤ a := by omega
  have h2 : ¬ 0x11000000 ≤ a := by omega
  have h3 : ¬ 0x1000000 ≤ a := by omega
  have h4 : ¬ 0x2000000 ≤ a := by omega
  have h5 : ¬ a < 0xC0000 := by omega
  simp [State.decode, fabricTarget, h1, h2, h3, h4, h5]

/-- No alias is the lowest word of a wide value (R6), so a read of one latches nothing. -/
theorem wideLow_alias {a : Nat} (h : 0x200000 ≤ a ∧ a < 0x22A000) : wideLow a = false := by
  simp [wideLow]
  omega

/-- A word of an alias that no earlier read latched is read from the members (R6, R354). -/
theorem fabricRead_alias {a o : Nat} {l : List Nat} (h : aliasOf a = some (l, o)) {m : BusMaster} {s : State} (hl : s.latched m a = none) :
    s.fabricRead m a = s.readAlias a l o := by
  have hw := wideLow_alias (aliasOf_range h)
  simp [State.fabricRead, State.readWord, h, hl, hw]

theorem exec_aliasRead {a o : Nat} {l : List Nat} {s : State} (h : aliasOf a = some (l, o)) (ha : a % 4 = 0) (hs : s.rst.phase ≠ .inReset)
    (hl : s.latched .pcie a = none) :
    exec (.aliasRead a) s =
      done (((s.readAlias a l o).2.count (560 + busIndex .pcie) 1).readAnswer .pcie (s.readAlias a l o).1) := by
  have hx : exec (.aliasRead a) s = done (s.busRead .pcie a) := rfl
  rw [hx, busRead_fabric ha (decode_alias (aliasOf_range h) s) (held_of_not_inReset hs), fabricRead_alias h hl]

/-! ### The comparison of the members -/

/-- What a read whose members differ leaves: the alias offset in `GLB.BCAST_ADDR`, and BCAST_MIXED (R354). -/
def State.noteMixed (a : Nat) (s : State) : State := (s.modGlb fun g => { g with bcastAddr := BitVec.ofNat 24 a }).raise 26

theorem State.noteMixed_bcastAddr (a : Nat) (s : State) : (s.noteMixed a).glb.bcastAddr = BitVec.ofNat 24 a := rfl

theorem State.noteMixed_sticky (a : Nat) (s : State) : (s.noteMixed a).glb.intSticky.getLsbD 26 = true :=
  State.raise_intSticky_self (by decide) _

theorem frameBut_noteMixed (a : Nat) (s : State) : FrameBut [.glb] s (s.noteMixed a) :=
  (frameBut_modGlb _ s).trans (frameBut_raise 26 _)

section
variable {s : State} {a o n : Nat} {l r : List Nat} (hr : (l.filter fun k => (s.laneCause k).isNone) = n :: r)
include hr

/-- The lowest reachable member gives the value; the others decide only whether the difference is noted (R354, R355). -/
theorem readAlias_reachable : s.readAlias a l o =
    (BitVec.ofNat 32 ((s.lane n).read o), if r.all (fun k => (s.lane k).read o = (s.lane n).read o) then s else s.noteMixed a) := by
  simp [State.readAlias, hr, State.noteMixed, Function.comp_def]

theorem readAlias_alike (h : ∀ k ∈ r, (s.lane k).read o = (s.lane n).read o) :
    s.readAlias a l o = (BitVec.ofNat 32 ((s.lane n).read o), s) := by
  rw [readAlias_reachable hr, if_pos (by simpa using h)]

theorem readAlias_mixed (h : ∃ k ∈ r, (s.lane k).read o ≠ (s.lane n).read o) :
    s.readAlias a l o = (BitVec.ofNat 32 ((s.lane n).read o), s.noteMixed a) := by
  rw [readAlias_reachable hr, if_neg (by simpa using h)]

end

/-! ### The answered read -/

/-- The interrupt outputs follow a read without moving its data. -/
theorem settle_readAnswer_data (m : BusMaster) (v : W32) (s : State) :
    tget 0 (s.readAnswer m v).settle.bus.readData (busIndex m) = v := by
  rw [State.settle_bus, readAnswer_data]

@[simp] theorem State.settle_bcastAddr (s : State) : s.settle.glb.bcastAddr = s.glb.bcastAddr := by
  rw [State.settle_glb]

/-- Besides its own effect a read touches the data it brings and the grant it counts. -/
theorem FrameBut.count_readAnswer_settle {l : List Part} {s t : State} (h : FrameBut l s t) (m : BusMaster) (v : W32) (i n : Nat) :
    FrameBut (l ++ [.bus, .perf]) s ((t.count i n).readAnswer m v).settle := by
  have hc : FrameBut [.bus, .perf] t (t.count i n) := (frameBut_count i n t).mono (by simp)
  have ha : FrameBut [.bus, .perf] (t.count i n) ((t.count i n).readAnswer m v) := (frameBut_readAnswer m v _).mono (by simp)
  exact ((h.mono fun _ => List.mem_append_left _).trans ((hc.trans ha).mono fun _ => List.mem_append_right l)).then_settle

/-- Settles O17: the lowest reachable member gives the data, members that differ are noted in the global block alone, and no lane and
no RC field is touched. -/
theorem aliasRead : Obligations.AliasRead := by
  unfold Obligations.AliasRead
  constructor
  · intro s a l o n r hal ha hs hr hl hsame
    rw [exec_aliasRead hal ha hs hl, answers_done, readAlias_alike hr hsame]
    exact ⟨settle_readAnswer_data .pcie _ _, (FrameBut.refl [] s).count_readAnswer_settle _ _ _ _⟩
  · intro s a l o n r hal ha hs hr hl hdiff
    rw [exec_aliasRead hal ha hs hl, answers_done, readAlias_mixed hr hdiff]
    refine ⟨settle_readAnswer_data .pcie _ _, ?sticky, ?addr, (frameBut_noteMixed a s).count_readAnswer_settle _ _ _ _⟩
    case sticky =>
      rw [State.settle_intSticky]
      exact State.noteMixed_sticky a s
    case addr =>
      rw [State.settle_bcastAddr]
      exact State.noteMixed_bcastAddr a s

end Sys2Proof.Machine
end

section
/-!
PROOFS. What a function of the state leaves as it was. `State.rest l` is the state outside the parts `l`, with what the invariants speak of
kept of them too, and the count of core frames: a function that keeps it changes the parts `l` alone, and no role of a bank, mode or power state, no frame and no command of the
queue. Each function of the model has one lemma of this form.
-/

namespace Sys2Proof.Machine

/-- The state outside the parts `l`; of them only what the invariants speak of, and of the global block never the interrupt outputs, which
follow every change of a source (R360). -/
def State.rest (l : List Part) (s : State) : State where
  rst := if .rst ∈ l then {} else s.rst
  glb := if .glb ∈ l then { mode := s.glb.mode, power := s.glb.power, cfn := s.glb.cfn, tick := s.glb.tick } else { s.glb with aPrev := false, msixHeld := false, msixSent := 0 }
  lanes := if .lanes ∈ l then [] else s.lanes
  grps := if .grps ∈ l then [] else s.grps
  sch := if .sch ∈ l then { present := s.sch.present, past := s.sch.past, future := s.sch.future } else s.sch
  pnd := if .pnd ∈ l then {} else s.pnd
  dp := if .dp ∈ l then {} else s.dp
  eng := if .eng ∈ l then {} else s.eng
  prot := if .prot ∈ l then [] else s.prot
  key := if .key ∈ l then {} else s.key
  tim := if .tim ∈ l then {} else s.tim
  twin := if .twin ∈ l then {} else s.twin
  mbx := if .mbx ∈ l then {} else s.mbx
  cps := if .cps ∈ l then {} else s.cps
  bus := if .bus ∈ l then {} else s.bus
  mem := if .mem ∈ l then {} else s.mem
  pwr := if .pwr ∈ l then {} else s.pwr
  perf := if .perf ∈ l then {} else s.perf
  pert := if .pert ∈ l then {} else s.pert
  drawn := if .drawn ∈ l then 0 else s.drawn
  pending := s.pending

variable {l : List Part}

/-! ### What the invariants speak of -/

@[simp] theorem Glb.mode_ite (c : Prop) [Decidable c] (a b : Glb) : (if c then a else b).mode = if c then a.mode else b.mode :=
  apply_ite Glb.mode c a b
@[simp] theorem Glb.power_ite (c : Prop) [Decidable c] (a b : Glb) : (if c then a else b).power = if c then a.power else b.power :=
  apply_ite Glb.power c a b
@[simp] theorem Glb.cfn_ite (c : Prop) [Decidable c] (a b : Glb) : (if c then a else b).cfn = if c then a.cfn else b.cfn :=
  apply_ite Glb.cfn c a b
@[simp] theorem Glb.tick_ite (c : Prop) [Decidable c] (a b : Glb) : (if c then a else b).tick = if c then a.tick else b.tick :=
  apply_ite Glb.tick c a b
@[simp] theorem Sch.present_ite (c : Prop) [Decidable c] (a b : Sch) : (if c then a else b).present = if c then a.present else b.present :=
  apply_ite Sch.present c a b
@[simp] theorem Sch.past_ite (c : Prop) [Decidable c] (a b : Sch) : (if c then a else b).past = if c then a.past else b.past :=
  apply_ite Sch.past c a b
@[simp] theorem Sch.future_ite (c : Prop) [Decidable c] (a b : Sch) : (if c then a else b).future = if c then a.future else b.future :=
  apply_ite Sch.future c a b

/-! ### Branches and folds -/

@[simp] theorem State.rest_ite (c : Prop) [Decidable c] (s t : State) : (if c then s else t).rest l = if c then s.rest l else t.rest l :=
  apply_ite (State.rest l) c s t

@[simp] theorem State.rest_ite_snd {α : Type} (c : Prop) [Decidable c] (p q : α × State) :
    (if c then p else q).2.rest l = if c then p.2.rest l else q.2.rest l :=
  apply_ite (fun x : α × State => x.2.rest l) c p q

@[simp] theorem State.rest_foldl {α : Type} {f : State → α → State} (h : ∀ t a, (f t a).rest l = t.rest l) (xs : List α) (s : State) :
    (xs.foldl f s).rest l = s.rest l := by
  induction xs generalizing s with
  | nil => rfl
  | cons x xs ih => rw [List.foldl_cons, ih, h]

@[simp] theorem State.rest_foldl_fst {α β : Type} {f : State × β → α → State × β} (h : ∀ p a, (f p a).1.rest l = p.1.rest l) (xs : List α)
    (p : State × β) : (xs.foldl f p).1.rest l = p.1.rest l := by
  induction xs generalizing p with
  | nil => rfl
  | cons x xs ih => rw [List.foldl_cons, ih, h]

@[simp] theorem State.rest_foldl_snd {α β : Type} {f : β × State → α → β × State} (h : ∀ p a, (f p a).2.rest l = p.2.rest l) (xs : List α)
    (p : β × State) : (xs.foldl f p).2.rest l = p.2.rest l := by
  induction xs generalizing p with
  | nil => rfl
  | cons x xs ih => rw [List.foldl_cons, ih, h]

/-! ### The parts -/

@[simp] theorem State.rest_modRst (h : .rst ∈ l) (f : Rst → Rst) (s : State) : (s.modRst f).rest l = s.rest l := by
  simp only [State.rest, State.modRst, if_pos h]

@[simp] theorem State.rest_modGlb (h : .glb ∈ l) (f : Glb → Glb) (s : State) (hm : ∀ g, (f g).mode = g.mode)
    (hp : ∀ g, (f g).power = g.power) (hc : ∀ g, (f g).cfn = g.cfn) (ht : ∀ g, (f g).tick = g.tick) :
    (s.modGlb f).rest l = s.rest l := by
  simp only [State.rest, State.modGlb, if_pos h, hm, hp, hc, ht]

@[simp] theorem State.rest_lanes (h : .lanes ∈ l) (x : Tbl Lane) (s : State) : ({ s with lanes := x } : State).rest l = s.rest l := by
  simp only [State.rest, if_pos h]

@[simp] theorem State.rest_grps (h : .grps ∈ l) (x : Tbl Grp) (s : State) : ({ s with grps := x } : State).rest l = s.rest l := by
  simp only [State.rest, if_pos h]

@[simp] theorem State.rest_modSch (h : .sch ∈ l) (f : Sch → Sch) (s : State) (h1 : ∀ c, (f c).present = c.present)
    (h2 : ∀ c, (f c).past = c.past) (h3 : ∀ c, (f c).future = c.future) : (s.modSch f).rest l = s.rest l := by
  simp only [State.rest, State.modSch, if_pos h, h1, h2, h3]

@[simp] theorem State.rest_modPnd (h : .pnd ∈ l) (f : Pnd → Pnd) (s : State) : (s.modPnd f).rest l = s.rest l := by
  simp only [State.rest, State.modPnd, if_pos h]

@[simp] theorem State.rest_modDp (h : .dp ∈ l) (f : Dp → Dp) (s : State) : (s.modDp f).rest l = s.rest l := by
  simp only [State.rest, State.modDp, if_pos h]

@[simp] theorem State.rest_modEng (h : .eng ∈ l) (f : Eng → Eng) (s : State) : (s.modEng f).rest l = s.rest l := by
  simp only [State.rest, State.modEng, if_pos h]

@[simp] theorem State.rest_prot (h : .prot ∈ l) (x : Tbl PgRun) (s : State) : ({ s with prot := x } : State).rest l = s.rest l := by
  simp only [State.rest, if_pos h]

@[simp] theorem State.rest_modKey (h : .key ∈ l) (f : Key → Key) (s : State) : (s.modKey f).rest l = s.rest l := by
  simp only [State.rest, State.modKey, if_pos h]

@[simp] theorem State.rest_modTim (h : .tim ∈ l) (f : Tim → Tim) (s : State) : (s.modTim f).rest l = s.rest l := by
  simp only [State.rest, State.modTim, if_pos h]

@[simp] theorem State.rest_modTwin (h : .twin ∈ l) (f : Twin → Twin) (s : State) : (s.modTwin f).rest l = s.rest l := by
  simp only [State.rest, State.modTwin, if_pos h]

@[simp] theorem State.rest_modMbx (h : .mbx ∈ l) (f : Mbx → Mbx) (s : State) : (s.modMbx f).rest l = s.rest l := by
  simp only [State.rest, State.modMbx, if_pos h]

@[simp] theorem State.rest_modCps (h : .cps ∈ l) (f : Cps → Cps) (s : State) : (s.modCps f).rest l = s.rest l := by
  simp only [State.rest, State.modCps, if_pos h]

@[simp] theorem State.rest_modBus (h : .bus ∈ l) (f : Bus → Bus) (s : State) : (s.modBus f).rest l = s.rest l := by
  simp only [State.rest, State.modBus, if_pos h]

@[simp] theorem State.rest_modMem (h : .mem ∈ l) (f : Mem → Mem) (s : State) : (s.modMem f).rest l = s.rest l := by
  simp only [State.rest, State.modMem, if_pos h]

@[simp] theorem State.rest_modPwr (h : .pwr ∈ l) (f : Pwr → Pwr) (s : State) : (s.modPwr f).rest l = s.rest l := by
  simp only [State.rest, State.modPwr, if_pos h]

@[simp] theorem State.rest_modPerf (h : .perf ∈ l) (f : Perf → Perf) (s : State) : (s.modPerf f).rest l = s.rest l := by
  simp only [State.rest, State.modPerf, if_pos h]

@[simp] theorem State.rest_modPert (h : .pert ∈ l) (f : Pert → Pert) (s : State) : (s.modPert f).rest l = s.rest l := by
  simp only [State.rest, State.modPert, if_pos h]

@[simp] theorem State.rest_drawn (h : .drawn ∈ l) (x : Nat) (s : State) : ({ s with drawn := x } : State).rest l = s.rest l := by
  simp only [State.rest, if_pos h]

theorem State.rest_lanes_drawn (h : .lanes ∈ l) (h' : .drawn ∈ l) (x : Tbl Lane) (n : Nat) (s : State) :
    ({ s with lanes := x, drawn := n } : State).rest l = s.rest l := by
  simp only [State.rest, if_pos h, if_pos h']

theorem State.rest_lanes_grps (h : .lanes ∈ l) (h' : .grps ∈ l) (x : Tbl Lane) (y : Tbl Grp) (s : State) :
    ({ s with lanes := x, grps := y } : State).rest l = s.rest l := by
  simp only [State.rest, if_pos h, if_pos h']

/-- Settling moves the interrupt outputs alone. -/
@[simp] theorem State.rest_settle (s : State) : s.settle.rest l = s.rest l := by
  have h := s.settle_glb
  simp only [State.rest, State.settle_rst, State.settle_lanes, State.settle_grps, State.settle_sch, State.settle_pnd, State.settle_dp,
    State.settle_eng, State.settle_prot, State.settle_key, State.settle_tim, State.settle_twin, State.settle_mbx, State.settle_cps,
    State.settle_bus, State.settle_mem, State.settle_pwr, State.settle_perf, State.settle_pert, State.settle_drawn, State.settle_pending]
  rw [h]

theorem State.rest_prod_mk {α : Type} (a : α) (s : State) : ((a, s) : α × State).2.rest l = s.rest l := rfl

/-- All of the machine: every part but the queue. -/
def machine : List Part :=
  [.rst, .glb, .lanes, .grps, .sch, .pnd, .dp, .eng, .prot, .key, .tim, .twin, .mbx, .cps, .bus, .mem, .pwr, .perf, .pert, .drawn]

@[simp] theorem mem_machine {p : Part} : p ∈ machine ↔ p ≠ .pending := by cases p <;> decide

end Sys2Proof.Machine
end

section
/-!
PROOFS. Functions of the schedule and of the global block that leave the roles of the banks, the mode and the power state as they were.
-/

namespace Sys2Proof.Machine

@[simp] theorem Sch.modBank_present (b : Nat) (f : Bank → Bank) (c : Sch) : (c.modBank b f).present = c.present := by
  unfold Sch.modBank; repeat' split
  all_goals rfl
@[simp] theorem Sch.modBank_past (b : Nat) (f : Bank → Bank) (c : Sch) : (c.modBank b f).past = c.past := by
  unfold Sch.modBank; repeat' split
  all_goals rfl
@[simp] theorem Sch.modBank_future (b : Nat) (f : Bank → Bank) (c : Sch) : (c.modBank b f).future = c.future := by
  unfold Sch.modBank; repeat' split
  all_goals rfl
@[simp] theorem Glb.sendMsix_mode (g : Glb) : (g.sendMsix).mode = g.mode := by
  unfold Glb.sendMsix; repeat' split
  all_goals rfl
@[simp] theorem Glb.sendMsix_power (g : Glb) : (g.sendMsix).power = g.power := by
  unfold Glb.sendMsix; repeat' split
  all_goals rfl
@[simp] theorem Glb.sendMsix_tick (g : Glb) : (g.sendMsix).tick = g.tick := by
  unfold Glb.sendMsix; repeat' split
  all_goals rfl
@[simp] theorem Glb.sendMsix_cfn (g : Glb) : (g.sendMsix).cfn = g.cfn := by
  unfold Glb.sendMsix; repeat' split
  all_goals rfl
@[simp] theorem Glb.sendPf1_mode (g : Glb) : (g.sendPf1).mode = g.mode := by
  unfold Glb.sendPf1; repeat' split
  all_goals rfl
@[simp] theorem Glb.sendPf1_power (g : Glb) : (g.sendPf1).power = g.power := by
  unfold Glb.sendPf1; repeat' split
  all_goals rfl
@[simp] theorem Glb.sendPf1_tick (g : Glb) : (g.sendPf1).tick = g.tick := by
  unfold Glb.sendPf1; repeat' split
  all_goals rfl
@[simp] theorem Glb.sendPf1_cfn (g : Glb) : (g.sendPf1).cfn = g.cfn := by
  unfold Glb.sendPf1; repeat' split
  all_goals rfl
@[simp] theorem Sch.flag_present (b : Nat) (c : Sch) : (c.flag b).present = c.present := by
  unfold Sch.flag
  rfl
@[simp] theorem Sch.flag_past (b : Nat) (c : Sch) : (c.flag b).past = c.past := by
  unfold Sch.flag
  rfl
@[simp] theorem Sch.flag_future (b : Nat) (c : Sch) : (c.flag b).future = c.future := by
  unfold Sch.flag
  rfl
@[simp] theorem Sch.outcome_present (o : Outcome) (c : Sch) : (c.outcome o).present = c.present := by
  unfold Sch.outcome
  rfl
@[simp] theorem Sch.outcome_past (o : Outcome) (c : Sch) : (c.outcome o).past = c.past := by
  unfold Sch.outcome
  rfl
@[simp] theorem Sch.outcome_future (o : Outcome) (c : Sch) : (c.outcome o).future = c.future := by
  unfold Sch.outcome
  rfl
@[simp] theorem Sch.disarm_present (c : Sch) : (c.disarm).present = c.present := by
  unfold Sch.disarm
  rfl
@[simp] theorem Sch.disarm_past (c : Sch) : (c.disarm).past = c.past := by
  unfold Sch.disarm
  rfl
@[simp] theorem Sch.disarm_future (c : Sch) : (c.disarm).future = c.future := by
  unfold Sch.disarm
  rfl
@[simp] theorem Sch.streamsChanged_present (streams : List Nat) (c : Sch) : (c.streamsChanged streams).present = c.present := by
  unfold Sch.streamsChanged; repeat' split
  all_goals rfl
@[simp] theorem Sch.streamsChanged_past (streams : List Nat) (c : Sch) : (c.streamsChanged streams).past = c.past := by
  unfold Sch.streamsChanged; repeat' split
  all_goals rfl
@[simp] theorem Sch.streamsChanged_future (streams : List Nat) (c : Sch) : (c.streamsChanged streams).future = c.future := by
  unfold Sch.streamsChanged; repeat' split
  all_goals rfl
@[simp] theorem Sch.restartLoad_present (c : Sch) : (c.restartLoad).present = c.present := by
  unfold Sch.restartLoad
  rfl
@[simp] theorem Sch.restartLoad_past (c : Sch) : (c.restartLoad).past = c.past := by
  unfold Sch.restartLoad
  rfl
@[simp] theorem Sch.restartLoad_future (c : Sch) : (c.restartLoad).future = c.future := by
  unfold Sch.restartLoad
  rfl
@[simp] theorem Glb.judgePps_mode (g : Glb) : (g.judgePps).mode = g.mode := by
  unfold Glb.judgePps; repeat' split
  all_goals rfl
@[simp] theorem Glb.judgePps_power (g : Glb) : (g.judgePps).power = g.power := by
  unfold Glb.judgePps; repeat' split
  all_goals rfl
@[simp] theorem Glb.judgePps_tick (g : Glb) : (g.judgePps).tick = g.tick := by
  unfold Glb.judgePps; repeat' split
  all_goals rfl
@[simp] theorem Glb.judgePps_cfn (g : Glb) : (g.judgePps).cfn = g.cfn := by
  unfold Glb.judgePps; repeat' split
  all_goals rfl
@[simp] theorem Glb.advance_mode (stopped : List Nat) (g : Glb) : (g.advance stopped).mode = g.mode := by
  unfold Glb.advance
  rfl
@[simp] theorem Glb.advance_power (stopped : List Nat) (g : Glb) : (g.advance stopped).power = g.power := by
  unfold Glb.advance
  rfl
@[simp] theorem Sch.shift_present (c : Sch) : (c.shift).present = c.present := by
  unfold Sch.shift
  rfl
@[simp] theorem Sch.shift_past (c : Sch) : (c.shift).past = c.past := by
  unfold Sch.shift
  rfl
@[simp] theorem Sch.shift_future (c : Sch) : (c.shift).future = c.future := by
  unfold Sch.shift
  rfl
@[simp] theorem Glb.ppsAccept_mode (err : Int) (g : Glb) : (g.ppsAccept err).mode = g.mode := by
  unfold Glb.ppsAccept
  rfl
@[simp] theorem Glb.ppsAccept_power (err : Int) (g : Glb) : (g.ppsAccept err).power = g.power := by
  unfold Glb.ppsAccept
  rfl
@[simp] theorem Glb.ppsAccept_tick (err : Int) (g : Glb) : (g.ppsAccept err).tick = g.tick := by
  unfold Glb.ppsAccept
  rfl
@[simp] theorem Glb.ppsAccept_cfn (err : Int) (g : Glb) : (g.ppsAccept err).cfn = g.cfn := by
  unfold Glb.ppsAccept
  rfl
@[simp] theorem Glb.ppsOutlier_mode (g : Glb) : (g.ppsOutlier).mode = g.mode := by
  unfold Glb.ppsOutlier
  rfl
@[simp] theorem Glb.ppsOutlier_power (g : Glb) : (g.ppsOutlier).power = g.power := by
  unfold Glb.ppsOutlier
  rfl
@[simp] theorem Glb.ppsOutlier_tick (g : Glb) : (g.ppsOutlier).tick = g.tick := by
  unfold Glb.ppsOutlier
  rfl
@[simp] theorem Glb.ppsOutlier_cfn (g : Glb) : (g.ppsOutlier).cfn = g.cfn := by
  unfold Glb.ppsOutlier
  rfl
@[simp] theorem Sch.rejectWrite_present (c : Sch) : (c.rejectWrite).present = c.present := by
  unfold Sch.rejectWrite
  rfl
@[simp] theorem Sch.rejectWrite_past (c : Sch) : (c.rejectWrite).past = c.past := by
  unfold Sch.rejectWrite
  rfl
@[simp] theorem Sch.rejectWrite_future (c : Sch) : (c.rejectWrite).future = c.future := by
  unfold Sch.rejectWrite
  rfl
@[simp] theorem Glb.setPf1Mask_mode (mask : Bool) (g : Glb) : (g.setPf1Mask mask).mode = g.mode := by
  unfold Glb.setPf1Mask; repeat' split
  all_goals rfl
@[simp] theorem Glb.setPf1Mask_power (mask : Bool) (g : Glb) : (g.setPf1Mask mask).power = g.power := by
  unfold Glb.setPf1Mask; repeat' split
  all_goals rfl
@[simp] theorem Glb.setPf1Mask_tick (mask : Bool) (g : Glb) : (g.setPf1Mask mask).tick = g.tick := by
  unfold Glb.setPf1Mask; repeat' split
  all_goals rfl
@[simp] theorem Glb.setPf1Mask_cfn (mask : Bool) (g : Glb) : (g.setPf1Mask mask).cfn = g.cfn := by
  unfold Glb.setPf1Mask; repeat' split
  all_goals rfl
end Sys2Proof.Machine
end

section
/-!
PROOFS. What each function of the model changes: `State.rest` at the parts it writes, in the order of the model. A function that may write
more than eight parts has `machine` for them.
-/

namespace Sys2Proof.Machine
variable {ps : List Part}

/-! ### Ops -/

@[simp] theorem State.modLane_rest (hp : .lanes ∈ ps) (n : Nat) (f : Lane → Lane) (s : State) :
    (s.modLane n f).rest ps = s.rest ps := by
  simp [State.modLane, hp]

@[simp] theorem State.modGrp_rest (hp : .grps ∈ ps) (g : Nat) (f : Grp → Grp) (s : State) :
    (s.modGrp g f).rest ps = s.rest ps := by
  simp [State.modGrp, hp]

@[simp] theorem State.modPond_rest (hp : .pnd ∈ ps) (n : Nat) (f : Pond → Pond) (s : State) :
    (s.modPond n f).rest ps = s.rest ps := by
  simp [State.modPond, hp]

@[simp] theorem State.modBox_rest (hp : .mbx ∈ ps) (n : Nat) (f : Mb → Mb) (s : State) :
    (s.modBox n f).rest ps = s.rest ps := by
  simp [State.modBox, hp]

@[simp] theorem State.modMemRun_rest (hp : .mem ∈ ps) (m : Nat) (f : MemRun → MemRun) (s : State) :
    (s.modMemRun m f).rest ps = s.rest ps := by
  simp [State.modMemRun, hp]

@[simp] theorem State.draw_rest (hp : .drawn ∈ ps) (w : Nat) (s : State) :
    (s.draw w).2.rest ps = s.rest ps := by
  simp [State.draw, hp]

@[simp] theorem State.ifRuns_rest {f : State → State} (hf : ∀ s, (f s).rest ps = s.rest ps) (s : State) :
    (s.ifRuns f).rest ps = s.rest ps := by
  unfold State.ifRuns
  split
  · rfl
  · exact hf s

@[simp] theorem State.raise_rest (hp : .glb ∈ ps) (b : Nat) (s : State) :
    (s.raise b).rest ps = s.rest ps := by
  simp [State.raise, hp]

@[simp] theorem State.note_rest (hp : .mbx ∈ ps) (l : List JRec) (s : State) :
    (s.note l).rest ps = s.rest ps := by
  simp [State.note, hp]

@[simp] theorem State.post_rest (hp : .mbx ∈ ps) (r : EvRec) (s : State) :
    (s.post r).rest ps = s.rest ps := by
  simp [State.post, hp]

@[simp] theorem State.event_rest (hp : .mbx ∈ ps) (code b6 : Nat) (content : List Byte) (s : State) :
    (s.event code b6 content).rest ps = s.rest ps := by
  simp [State.event, hp]

@[simp] theorem State.completeAt_rest (hp : .mbx ∈ ps) (cfn : Cfn) (o : Nat × W16) (code status b6 : Nat) (content : List Byte) (s : State) :
    (s.completeAt cfn o code status b6 content).rest ps = s.rest ps := by
  simp [State.completeAt, hp]

@[simp] theorem State.complete_rest (hp : .mbx ∈ ps) (o : Nat × W16) (code status b6 : Nat) (content : List Byte) (s : State) :
    (s.complete o code status b6 content).rest ps = s.rest ps := by
  simp [State.complete, hp]

@[simp] theorem State.unitRecord_rest (hp : [.mbx, .cps] ⊆ ps) (cls kind unit cause events cover : Nat) (s : State) :
    (s.unitRecord cls kind unit cause events cover).rest ps = s.rest ps := by
  simp only [List.cons_subset, List.nil_subset, and_true] at hp
  simp [State.unitRecord, hp]

@[simp] theorem State.trigger_rest (hp : .glb ∈ ps) (t : ModeTrigger) (s : State) :
    (s.trigger t).rest ps = s.rest ps := by
  simp [State.trigger, hp]

@[simp] theorem State.lcAtReset_rest (hp : [.key, .mbx] ⊆ ps) (due : Bool) (old : LcState) (s : State) :
    (s.lcAtReset due old).rest ps = s.rest ps := by
  simp only [List.cons_subset, List.nil_subset, and_true] at hp
  unfold State.lcAtReset
  simp only [State.rest, hp, if_true]

/-! ### Flags -/

@[simp] theorem State.count_rest (hp : .perf ∈ ps) (i n : Nat) (s : State) :
    (s.count i n).rest ps = s.rest ps := by
  simp [State.count, hp]

@[simp] theorem State.rstSticky_rest (hp : .rst ∈ ps) (b : Nat) (s : State) :
    (s.rstSticky b).rest ps = s.rest ps := by
  simp [State.rstSticky, hp]

@[simp] theorem State.pondFlag_rest (hp : [.glb, .pnd] ⊆ ps) (n b : Nat) (s : State) :
    (s.pondFlag n b).rest ps = s.rest ps := by
  simp only [List.cons_subset, List.nil_subset, and_true] at hp
  simp [State.pondFlag, hp]

@[simp] theorem State.accErr_rest (hp : .glb ∈ ps) (addr : Nat) (write : Bool) (cause : Nat) (s : State) :
    (s.accErr addr write cause).rest ps = s.rest ps := by
  simp [State.accErr, hp]

@[simp] theorem State.decodeError_rest (hp : .bus ∈ ps) (m : BusMaster) (write : Bool) (target : Nat) (addr : W64) (s : State) :
    (s.decodeError m write target addr).rest ps = s.rest ps := by
  simp [State.decodeError, hp]

/-! ### Operands -/

@[simp] theorem State.answer_rest (hp : .mbx ∈ ps) (code : Nat) (r : MbReq) (a : Ans) (s : State) :
    (s.answer code r a).rest ps = s.rest ps := by
  simp [State.answer, hp]

@[simp] theorem State.rung_rest (hp : [.mbx, .perf] ⊆ ps) (code : Nat) (r : MbReq) (s : State) :
    (s.rung code r).rest ps = s.rest ps := by
  simp only [List.cons_subset, List.nil_subset, and_true] at hp
  simp [State.rung, hp]

/-! ### Start -/

@[simp] theorem State.bootOk_rest (hp : [.rst, .mbx] ⊆ ps) (m : BusMaster) (s : State) :
    (s.bootOk m).rest ps = s.rest ps := by
  simp only [List.cons_subset, List.nil_subset, and_true] at hp
  simp [State.bootOk, hp]

/-! ### Commit -/

@[simp] theorem State.deferArmed_rest (hp : [.sch, .twin, .mbx, .perf] ⊆ ps) (cause : Nat) (s : State) :
    (s.deferArmed cause).rest ps = s.rest ps := by
  simp only [List.cons_subset, List.nil_subset, and_true] at hp
  unfold State.deferArmed
  dsimp only
  repeat' split
  all_goals simp [hp]

@[simp] theorem schCopyBody_rest (hp : .sch ∈ ps) (r : MbReq) (s : State) :
    (schCopyBody r s).2.rest ps = s.rest ps := by
  simp [schCopyBody, hp]

@[simp] theorem schPrepareBody_rest (hp : .sch ∈ ps) (r : MbReq) (s : State) :
    (schPrepareBody r s).2.rest ps = s.rest ps := by
  simp [schPrepareBody, hp]

@[simp] theorem schUnprepareBody_rest (hp : .sch ∈ ps) (r : MbReq) (s : State) :
    (schUnprepareBody r s).2.rest ps = s.rest ps := by
  simp [schUnprepareBody, hp]

@[simp] theorem State.armed_rest (hp : .sch ∈ ps) (a : Armed) (s : State) :
    (s.arm a).rest ps = s.rest ps := by
  simp [State.arm, hp]

@[simp] theorem schArmBody_rest (hp : .sch ∈ ps) (r : MbReq) (s : State) :
    (schArmBody r s).2.rest ps = s.rest ps := by
  simp [schArmBody, hp]

@[simp] theorem schDisarmBody_rest (hp : [.sch, .mbx] ⊆ ps) (r : MbReq) (s : State) :
    (schDisarmBody r s).2.rest ps = s.rest ps := by
  simp only [List.cons_subset, List.nil_subset, and_true] at hp
  unfold schDisarmBody
  dsimp only
  repeat' split
  all_goals simp [hp]

@[simp] theorem schRollbackBody_rest (hp : .sch ∈ ps) (r : MbReq) (s : State) :
    (schRollbackBody r s).2.rest ps = s.rest ps := by
  simp [schRollbackBody, hp]

@[simp] theorem schStatusBody_rest (r : MbReq) (s : State) :
    (schStatusBody r s).2.rest ps = s.rest ps := by
  simp [schStatusBody]

@[simp] theorem State.reopenFuture_rest (hp : [.sch, .mbx] ⊆ ps) (s : State) :
    (s.reopenFuture).rest ps = s.rest ps := by
  simp only [List.cons_subset, List.nil_subset, and_true] at hp
  unfold State.reopenFuture
  split <;> simp [hp]

@[simp] theorem State.futureBoundary_rest (hp : [.sch, .mbx] ⊆ ps) (fixed : Bool) (s : State) :
    (s.futureBoundary fixed).rest ps = s.rest ps := by
  simp only [List.cons_subset, List.nil_subset, and_true] at hp
  unfold State.futureBoundary
  dsimp only
  split <;> simp [hp]

/-! ### Checker -/

@[simp] theorem State.endPass_rest (hp : [.sch, .mbx, .mem] ⊆ ps) (s0 : State) :
    (s0.endPass).rest ps = s0.rest ps := by
  simp only [List.cons_subset, List.nil_subset, and_true] at hp
  unfold State.endPass
  dsimp only
  split <;> simp [hp]

/-! ### Images -/

@[simp] theorem State.rejectLoad_rest (hp : [.sch, .mbx, .perf, .drawn] ⊆ ps) (e : ImgErr) (s : State) :
    (s.rejectLoad e).rest ps = s.rest ps := by
  simp only [List.cons_subset, List.nil_subset, and_true] at hp
  unfold State.rejectLoad
  split <;> simp [hp]

@[simp] theorem State.rejectUndefined_rest (hp : [.sch, .mbx, .perf, .drawn] ⊆ ps) (s : State) :
    (s.rejectUndefined).rest ps = s.rest ps := by
  simp only [List.cons_subset, List.nil_subset, and_true] at hp
  simp [State.rejectUndefined, hp]

@[simp] theorem State.endLoad_rest (hp : [.sch, .mbx, .perf, .drawn] ⊆ ps) (s : State) :
    (s.endLoad).rest ps = s.rest ps := by
  simp only [List.cons_subset, List.nil_subset, and_true] at hp
  unfold State.endLoad
  dsimp only
  repeat' split
  all_goals simp [hp]

@[simp] theorem schLoadBody_rest (hp : [.glb, .sch, .bus] ⊆ ps) (h : HostMem) (r : MbReq) (s : State) :
    (schLoadBody h r s).2.rest ps = s.rest ps := by
  simp only [List.cons_subset, List.nil_subset, and_true] at hp
  unfold schLoadBody
  dsimp only
  repeat' split
  all_goals simp [hp]

/-! ### Endpoints -/

@[simp] theorem State.countItems_rest (hp : .eng ∈ ps) (which : Item → Bool) (k n : Nat) (s : State) :
    (s.countItems which k n).rest ps = s.rest ps := by
  simp [State.countItems, hp]

@[simp] theorem State.countLane_rest (hp : .eng ∈ ps) (n k m : Nat) (s : State) :
    (s.countLane n k m).rest ps = s.rest ps := by
  simp [State.countLane, hp]

/-! ### Lanes -/

@[simp] theorem State.failureRecord_rest (hp : [.mbx, .cps] ⊆ ps) (n : Nat) (s : State) :
    (s.failureRecord n).rest ps = s.rest ps := by
  simp only [List.cons_subset, List.nil_subset, and_true] at hp
  unfold State.failureRecord
  split <;> simp [hp]

@[simp] theorem State.failureEvent_rest (hp : [.lanes, .mbx, .cps] ⊆ ps) (n : Nat) (s : State) :
    (s.failureEvent n).rest ps = s.rest ps := by
  simp only [List.cons_subset, List.nil_subset, and_true] at hp
  simp [State.failureEvent, hp]

@[simp] theorem State.flexoOverhead_rest (hp : [.lanes, .grps] ⊆ ps) (n g : Nat) (r : Grp) (f : LineFrame) (s : State) :
    (s.flexoOverhead n g r f).rest ps = s.rest ps := by
  simp only [List.cons_subset, List.nil_subset, and_true] at hp
  simp [State.flexoOverhead, hp]

@[simp] theorem State.fecCounts_rest (hp : [.eng, .perf] ⊆ ps) (lane : Nat) (f : LineFrame) (s : State) :
    (s.fecCounts lane f).rest ps = s.rest ps := by
  simp only [List.cons_subset, List.nil_subset, and_true] at hp
  simp [State.fecCounts, hp]

@[simp] theorem State.logicalLost_rest (hp : .grps ∈ ps) (lane : Nat) (s : State) :
    (s.logicalLost lane).rest ps = s.rest ps := by
  unfold State.logicalLost
  split <;> simp [hp]

@[simp] theorem State.holdDelays_rest (hp : .lanes ∈ ps) (g : Nat) (r : Grp) (delays : List Nat) (which : Nat × Lane → Bool) (s : State) :
    (s.holdDelays g r delays which).rest ps = s.rest ps := by
  simp [State.holdDelays, hp]

@[simp] theorem State.fitMembers_rest (hp : [.lanes, .grps] ⊆ ps) (g : Nat) (r : Grp) (delays : List Nat) (s : State) :
    (s.fitMembers g r delays).rest ps = s.rest ps := by
  simp only [List.cons_subset, List.nil_subset, and_true] at hp
  simp [State.fitMembers, hp]

@[simp] theorem State.retireRecords_rest (hp : [.grps, .mbx, .cps] ⊆ ps) (n : Nat) (k : Cfn) (s : State) :
    (s.retireRecords n k).rest ps = s.rest ps := by
  simp only [List.cons_subset, List.nil_subset, and_true] at hp
  unfold State.retireRecords
  dsimp only
  split <;> simp [hp]

@[simp] theorem State.lanesBoundary_rest (hp : [.lanes, .grps, .eng, .mbx, .cps] ⊆ ps) (now : Cfn) (s : State) :
    (s.lanesBoundary now).rest ps = s.rest ps := by
  simp only [List.cons_subset, List.nil_subset, and_true] at hp
  unfold State.lanesBoundary
  dsimp only
  refine (State.rest_lanes hp.1 _ _).trans ?_
  refine (State.rest_foldl (fun t n => by simp [hp]) _ _).trans ?_
  refine (State.rest_foldl (fun t e => ?_) _ _).trans (State.rest_foldl (fun t e => by simp [hp]) _ _)
  split
  · split <;> simp [hp]
  · rfl

@[simp] theorem State.rejoinMembers_rest (hp : [.lanes, .grps] ⊆ ps) (g : Nat) (s : State) :
    (s.rejoinMembers g).rest ps = s.rest ps := by
  simp only [List.cons_subset, List.nil_subset, and_true] at hp
  unfold State.rejoinMembers
  split <;> simp [hp]

@[simp] theorem State.groupBoundary_rest (hp : [.lanes, .grps] ⊆ ps) (inp : FrameInput) (now : Cfn) (g : Nat) (s : State) :
    (s.groupBoundary inp now g).rest ps = s.rest ps := by
  simp only [List.cons_subset, List.nil_subset, and_true] at hp
  simp [State.groupBoundary, hp]

@[simp] theorem State.groupsBoundary_rest (hp : [.lanes, .grps] ⊆ ps) (inp : FrameInput) (now : Cfn) (s : State) :
    (s.groupsBoundary inp now).rest ps = s.rest ps := by
  simp only [List.cons_subset, List.nil_subset, and_true] at hp
  simp [State.groupsBoundary, hp]

@[simp] theorem State.ungate_rest (hp : .pwr ∈ ps) (mask : Nat) (s : State) :
    (s.ungate mask).rest ps = s.rest ps := by
  simp [State.ungate, hp]

@[simp] theorem grpCreateBody_rest (hp : [.lanes, .grps, .sch, .pwr] ⊆ ps) (r : MbReq) (s : State) :
    (grpCreateBody r s).2.rest ps = s.rest ps := by
  simp only [List.cons_subset, List.nil_subset, and_true] at hp
  unfold grpCreateBody
  simp only [State.rest_ite_snd]
  split
  · rfl
  · rw [State.rest_modSch (by simp [hp]) _ _ (by simp) (by simp) (by simp)]
    exact (State.rest_lanes_grps (by simp [hp]) (by simp [hp]) _ _ (State.ungate _ s)).trans (by simp [hp])

@[simp] theorem grpDeleteBody_rest (hp : [.lanes, .grps, .sch] ⊆ ps) (r : MbReq) (s : State) :
    (grpDeleteBody r s).2.rest ps = s.rest ps := by
  simp only [List.cons_subset, List.nil_subset, and_true] at hp
  unfold grpDeleteBody
  extract_lets g
  split
  · rfl
  · simp only [State.rest_ite_snd]
    split
    · rfl
    · rw [State.rest_modSch (by simp [hp]) _ _ (by simp) (by simp) (by simp)]
      exact State.rest_lanes_grps (by simp [hp]) (by simp [hp]) _ _ s

@[simp] theorem grpStatusBody_rest (r : MbReq) (s : State) :
    (grpStatusBody r s).2.rest ps = s.rest ps := by
  unfold grpStatusBody
  dsimp only
  split <;> simp []

@[simp] theorem laneRetireBody_rest (hp : .lanes ∈ ps) (r : MbReq) (s : State) :
    (laneRetireBody r s).2.rest ps = s.rest ps := by
  simp [laneRetireBody, hp]

@[simp] theorem laneReadmitBody_rest (hp : [.lanes, .mbx, .cps] ⊆ ps) (r : MbReq) (s : State) :
    (laneReadmitBody r s).2.rest ps = s.rest ps := by
  simp only [List.cons_subset, List.nil_subset, and_true] at hp
  simp [laneReadmitBody, hp]

@[simp] theorem grpSetOptionsBody_rest (hp : .grps ∈ ps) (r : MbReq) (s : State) :
    (grpSetOptionsBody r s).2.rest ps = s.rest ps := by
  simp [grpSetOptionsBody, hp]

/-! ### Timing -/

@[simp] theorem State.timRest_rest (hp : [.tim, .mbx] ⊆ ps) (ho : Bool) (cause : Nat) (s : State) :
    (s.timRest ho cause).rest ps = s.rest ps := by
  simp only [List.cons_subset, List.nil_subset, and_true] at hp
  simp [State.timRest, hp]

@[simp] theorem State.timLeave_rest (hp : [.tim, .mbx] ⊆ ps) (cause : Nat) (s : State) :
    (s.timLeave cause).rest ps = s.rest ps := by
  simp only [List.cons_subset, List.nil_subset, and_true] at hp
  simp [State.timLeave, hp]

@[simp] theorem State.timLose_rest (hp : .tim ∈ ps) (s : State) :
    (s.timLose).rest ps = s.rest ps := by
  simp [State.timLose, hp]

@[simp] theorem State.timSelect_rest (hp : [.tim, .mbx] ⊆ ps) (s : State) :
    (s.timSelect).rest ps = s.rest ps := by
  simp only [List.cons_subset, List.nil_subset, and_true] at hp
  unfold State.timSelect
  dsimp only
  repeat' split
  all_goals simp [hp]

@[simp] theorem State.timReselect_rest (hp : [.tim, .mbx] ⊆ ps) (s : State) :
    (s.timReselect).rest ps = s.rest ps := by
  simp only [List.cons_subset, List.nil_subset, and_true] at hp
  simp [State.timReselect, hp]

@[simp] theorem State.timNote_rest (hp : .tim ∈ ps) (s : State) :
    (s.timNote).rest ps = s.rest ps := by
  simp [State.timNote, hp]

@[simp] theorem State.timUndo_rest (hp : .tim ∈ ps) (lost : Nat) (s : State) :
    (s.timUndo lost).rest ps = s.rest ps := by
  unfold State.timUndo
  split <;> simp [hp]

@[simp] theorem State.timBoundary_rest (hp : [.tim, .mbx] ⊆ ps) (noEdge : List Nat) (s : State) :
    (s.timBoundary noEdge).rest ps = s.rest ps := by
  simp only [List.cons_subset, List.nil_subset, and_true] at hp
  simp [State.timBoundary, hp]

@[simp] theorem State.timEnd_rest (hp : [.tim, .mbx] ⊆ ps) (s : State) :
    (s.timEnd).rest ps = s.rest ps := by
  simp only [List.cons_subset, List.nil_subset, and_true] at hp
  unfold State.timEnd
  split <;> simp [hp]

@[simp] theorem State.timLimit_rest (hp : [.tim, .mbx] ⊆ ps) (s : State) :
    (s.timLimit).rest ps = s.rest ps := by
  simp only [List.cons_subset, List.nil_subset, and_true] at hp
  simp [State.timLimit, hp]

@[simp] theorem State.timSecond_rest (hp : [.tim, .mbx] ⊆ ps) (meas : List CandMeas) (start : Cfn) (s : State) :
    (s.timSecond meas start).rest ps = s.rest ps := by
  simp only [List.cons_subset, List.nil_subset, and_true] at hp
  unfold State.timSecond
  dsimp only
  split <;> simp [hp]

@[simp] theorem State.tuFlip_rest (hp : [.tim, .mbx] ⊆ ps) (cause : Nat) (s : State) :
    (s.tuFlip cause).rest ps = s.rest ps := by
  simp only [List.cons_subset, List.nil_subset, and_true] at hp
  simp [State.tuFlip, hp]

@[simp] theorem State.tuSwap_rest (hp : [.tim, .mbx, .cps] ⊆ ps) (s : State) :
    (s.tuSwap).rest ps = s.rest ps := by
  simp only [List.cons_subset, List.nil_subset, and_true] at hp
  simp [State.tuSwap, hp]

@[simp] theorem State.swapBoundary_rest (hp : [.tim, .mbx, .cps] ⊆ ps) (s : State) :
    (s.swapBoundary).rest ps = s.rest ps := by
  simp only [List.cons_subset, List.nil_subset, and_true] at hp
  simp [State.swapBoundary, hp]

@[simp] theorem timCfgBody_rest (hp : .tim ∈ ps) (r : MbReq) (s : State) :
    (timCfgBody r s).2.rest ps = s.rest ps := by
  simp [timCfgBody, hp]

@[simp] theorem timCandCfgBody_rest (hp : .tim ∈ ps) (r : MbReq) (s : State) :
    (timCandCfgBody r s).2.rest ps = s.rest ps := by
  simp [timCandCfgBody, hp]

@[simp] theorem timSetQlBody_rest (hp : .tim ∈ ps) (r : MbReq) (s : State) :
    (timSetQlBody r s).2.rest ps = s.rest ps := by
  simp [timSetQlBody, hp]

@[simp] theorem timStatusBody_rest (hp : .drawn ∈ ps) (r : MbReq) (s : State) :
    (timStatusBody r s).2.rest ps = s.rest ps := by
  simp [timStatusBody, hp]

@[simp] theorem timHistoryBody_rest (r : MbReq) (s : State) :
    (timHistoryBody r s).2.rest ps = s.rest ps := by
  simp [timHistoryBody]

@[simp] theorem timSwapBody_rest (hp : .tim ∈ ps) (r : MbReq) (s : State) :
    (timSwapBody r s).2.rest ps = s.rest ps := by
  simp [timSwapBody, hp]

/-! ### Units -/

@[simp] theorem State.restartCp_rest (hp : .glb ∈ ps) (unit : Nat) (s : State) :
    (s.restartCp unit).rest ps = s.rest ps := by
  simp [State.restartCp, hp]

@[simp] theorem State.unitFault_rest (hp : [.glb, .tim, .mbx, .cps] ⊆ ps) (pair unit cause cover : Nat) (s : State) :
    (s.unitFault pair unit cause cover).rest ps = s.rest ps := by
  simp only [List.cons_subset, List.nil_subset, and_true] at hp
  simp [State.unitFault, hp]

@[simp] theorem State.cpFlip_rest (hp : [.sch, .mbx, .cps] ⊆ ps) (cause : Nat) (s : State) :
    (s.cpFlip cause).rest ps = s.rest ps := by
  simp only [List.cons_subset, List.nil_subset, and_true] at hp
  simp [State.cpFlip, hp]

@[simp] theorem State.cpSwap_rest (hp : [.sch, .mbx, .cps] ⊆ ps) (cause : Nat) (s : State) :
    (s.cpSwap cause).rest ps = s.rest ps := by
  simp only [List.cons_subset, List.nil_subset, and_true] at hp
  simp [State.cpSwap, hp]

@[simp] theorem State.endUpdate_rest (hp : [.mbx, .cps] ⊆ ps) (status : Nat) (s : State) :
    (s.endUpdate status).rest ps = s.rest ps := by
  simp only [List.cons_subset, List.nil_subset, and_true] at hp
  unfold State.endUpdate
  split <;> simp [hp]

@[simp] theorem State.runSlot_rest (hp : .cps ∈ ps) (k : Nat) (s : State) :
    (s.runSlot k).rest ps = s.rest ps := by
  simp [State.runSlot, hp]

@[simp] theorem State.updateSwap_rest (hp : [.glb, .sch, .mbx, .cps] ⊆ ps) (s : State) :
    (s.updateSwap).rest ps = s.rest ps := by
  simp only [List.cons_subset, List.nil_subset, and_true] at hp
  unfold State.updateSwap
  split <;> simp [hp]

@[simp] theorem State.updateLost_rest (hp : [.glb, .sch, .tim, .mbx, .cps] ⊆ ps) (a cause : Nat) (s : State) :
    (s.updateLost a cause).rest ps = s.rest ps := by
  simp only [List.cons_subset, List.nil_subset, and_true] at hp
  simp [State.updateLost, hp]

@[simp] theorem State.tuLost_rest (hp : [.glb, .tim, .mbx, .cps] ⊆ ps) (cause : Nat) (s : State) :
    (s.tuLost cause).rest ps = s.rest ps := by
  simp only [List.cons_subset, List.nil_subset, and_true] at hp
  simp [State.tuLost, hp]

@[simp] theorem State.standbyLost_rest (hp : [.glb, .tim, .mbx, .cps] ⊆ ps) (pair cause : Nat) (s : State) :
    (s.standbyLost pair cause).rest ps = s.rest ps := by
  simp only [List.cons_subset, List.nil_subset, and_true] at hp
  simp [State.standbyLost, hp]

@[simp] theorem State.refereeSees_rest (hp : .cps ∈ ps) (pair unit : Nat) (sees : Bool) (s : State) :
    (s.refereeSees pair unit sees).rest ps = s.rest ps := by
  simp [State.refereeSees, hp]

@[simp] theorem State.isolate_rest (hp : [.mbx, .cps, .perf] ⊆ ps) (pair : Nat) (s : State) :
    (s.isolate pair).rest ps = s.rest ps := by
  simp only [List.cons_subset, List.nil_subset, and_true] at hp
  simp [State.isolate, hp]

@[simp] theorem State.tuBoundary_rest (hp : [.glb, .tim, .mbx, .cps] ⊆ ps) (fails : List Nat) (phase : Option Int) (s : State) :
    (s.tuBoundary fails phase).rest ps = s.rest ps := by
  simp only [List.cons_subset, List.nil_subset, and_true] at hp
  unfold State.tuBoundary
  dsimp only
  repeat' split
  all_goals simp [hp]

@[simp] theorem State.resumeUpdate_rest (hp : [.glb, .sch, .mbx, .cps] ⊆ ps) (s : State) :
    (s.resumeUpdate).rest ps = s.rest ps := by
  simp only [List.cons_subset, List.nil_subset, and_true] at hp
  simp [State.resumeUpdate, hp]

@[simp] theorem State.cpBoundary_rest (hp : [.glb, .sch, .mbx, .cps] ⊆ ps) (s : State) :
    (s.cpBoundary).rest ps = s.rest ps := by
  simp only [List.cons_subset, List.nil_subset, and_true] at hp
  simp [State.cpBoundary, hp]

@[simp] theorem devCpSwapBody_rest (hp : [.sch, .mbx, .cps] ⊆ ps) (r : MbReq) (s : State) :
    (devCpSwapBody r s).2.rest ps = s.rest ps := by
  simp only [List.cons_subset, List.nil_subset, and_true] at hp
  simp [devCpSwapBody, hp]

@[simp] theorem devRedCfgBody_rest (hp : .cps ∈ ps) (r : MbReq) (s : State) :
    (devRedCfgBody r s).2.rest ps = s.rest ps := by
  simp [devRedCfgBody, hp]

@[simp] theorem devUnitStatusBody_rest (r : MbReq) (s : State) :
    (devUnitStatusBody r s).2.rest ps = s.rest ps := by
  simp [devUnitStatusBody]

@[simp] theorem devUnitReadmitBody_rest (hp : [.glb, .mbx, .cps] ⊆ ps) (r : MbReq) (s : State) :
    (devUnitReadmitBody r s).2.rest ps = s.rest ps := by
  simp only [List.cons_subset, List.nil_subset, and_true] at hp
  simp [devUnitReadmitBody, hp]

@[simp] theorem fwLiveUpdateBody_rest (hp : [.glb, .cps] ⊆ ps) (r : MbReq) (s : State) :
    (fwLiveUpdateBody r s).2.rest ps = s.rest ps := by
  simp only [List.cons_subset, List.nil_subset, and_true] at hp
  simp [fwLiveUpdateBody, hp]

/-! ### Memory -/

@[simp] theorem State.startChangeOver_rest (hp : .pnd ∈ ps) (n src : Nat) (s : State) :
    (s.startChangeOver n src).rest ps = s.rest ps := by
  unfold State.startChangeOver
  split <;> simp [hp]

@[simp] theorem State.moveAgain_rest (hp : .pnd ∈ ps) (m : PondMove) (s : State) :
    (s.moveAgain m).rest ps = s.rest ps := by
  unfold State.moveAgain
  split <;> simp [hp]

@[simp] theorem State.abandonMove_rest (hp : .pnd ∈ ps) (m : PondMove) (s : State) :
    (s.abandonMove m).rest ps = s.rest ps := by
  simp [State.abandonMove, hp]

@[simp] theorem State.spoilSource_rest (hp : .pnd ∈ ps) (phys : Nat) (s : State) :
    (s.spoilSource phys).rest ps = s.rest ps := by
  unfold State.spoilSource
  dsimp only
  split <;> simp [hp]

@[simp] theorem State.pondFault_rest (hp : [.pnd, .mbx, .cps] ⊆ ps) (phys : Nat) (s : State) :
    (s.pondFault phys).rest ps = s.rest ps := by
  simp only [List.cons_subset, List.nil_subset, and_true] at hp
  unfold State.pondFault
  dsimp only
  repeat' split
  all_goals simp [hp]

@[simp] theorem State.pondError_rest (hp : [.glb, .pnd, .mem, .perf] ⊆ ps) (phys half col err : Nat) (s : State) :
    (s.pondError phys half col err).rest ps = s.rest ps := by
  simp only [List.cons_subset, List.nil_subset, and_true] at hp
  simp [State.pondError, hp]

@[simp] theorem State.declareFaults_rest (hp : [.pnd, .mbx, .cps] ⊆ ps) (s : State) :
    (s.declareFaults).rest ps = s.rest ps := by
  simp only [List.cons_subset, List.nil_subset, and_true] at hp
  simp [State.declareFaults, hp]

@[simp] theorem State.movePond_rest (hp : [.pnd, .mbx, .cps] ⊆ ps) (now : Cfn) (m : PondMove) (s : State) :
    (s.movePond now m).rest ps = s.rest ps := by
  simp only [List.cons_subset, List.nil_subset, and_true] at hp
  simp [State.movePond, hp]

@[simp] theorem State.startReturn_rest (hp : .pnd ∈ ps) (phys : Nat) (s : State) :
    (s.startReturn phys).rest ps = s.rest ps := by
  simp [State.startReturn, hp]

@[simp] theorem State.memRepair_rest (hp : .mbx ∈ ps) (kind m arr n : Nat) (s : State) :
    (s.memRepair kind m arr n).rest ps = s.rest ps := by
  simp [State.memRepair, hp]

@[simp] theorem State.unrepairable_rest (hp : [.mbx, .cps, .mem] ⊆ ps) (m arr n : Nat) (s : State) :
    (s.unrepairable m arr n).rest ps = s.rest ps := by
  simp only [List.cons_subset, List.nil_subset, and_true] at hp
  simp [State.unrepairable, hp]

@[simp] theorem State.repairArray_rest (hp : [.mbx, .cps, .mem] ⊆ ps) (m arr : Nat) (rows cols : List Nat) (s : State) :
    (s.repairArray m arr rows cols).1.rest ps = s.rest ps := by
  simp only [List.cons_subset, List.nil_subset, and_true] at hp
  unfold State.repairArray
  dsimp only
  repeat' split
  all_goals simp [hp]

@[simp] theorem State.noteMismatches_rest (hp : .mem ∈ ps) (l : List Mismatch) (s : State) :
    (s.noteMismatches l).rest ps = s.rest ps := by
  simp [State.noteMismatches, hp]

@[simp] theorem State.repairMemory_rest (hp : [.mbx, .cps, .mem] ⊆ ps) (m : Nat) (l : List Mismatch) (s : State) :
    (s.repairMemory m l).1.rest ps = s.rest ps := by
  simp only [List.cons_subset, List.nil_subset, and_true] at hp
  unfold State.repairMemory
  simp [hp]

@[simp] theorem State.failAgain_rest (hp : [.mbx, .cps, .mem] ⊆ ps) (m : Nat) (l : List Mismatch) (s : State) :
    (s.failAgain m l).rest ps = s.rest ps := by
  simp only [List.cons_subset, List.nil_subset, and_true] at hp
  simp [State.failAgain, hp]

@[simp] theorem State.freshWord_rest (hp : .sch ∈ ps) (m w : Nat) (s : State) :
    (s.freshWord m w).rest ps = s.rest ps := by
  simp [State.freshWord, hp]

@[simp] theorem State.freshRow_rest (hp : .sch ∈ ps) (m w : Nat) (s : State) :
    (s.freshRow m w).rest ps = s.rest ps := by
  simp [State.freshRow, hp]

@[simp] theorem State.freshMemory_rest (hp : [.sch, .pnd, .dp] ⊆ ps) (m : Nat) (s : State) :
    (s.freshMemory m).rest ps = s.rest ps := by
  simp only [List.cons_subset, List.nil_subset, and_true] at hp
  simp [State.freshMemory, hp]

@[simp] theorem State.memCorrect_rest (hp : [.sch, .mbx, .cps, .mem] ⊆ ps) (m w : Nat) (s : State) :
    (s.memCorrect m w).rest ps = s.rest ps := by
  simp only [List.cons_subset, List.nil_subset, and_true] at hp
  simp [State.memCorrect, hp]

@[simp] theorem State.retirePond_rest (hp : [.pnd, .mbx, .cps] ⊆ ps) (phys : Nat) (s : State) :
    (s.retirePond phys).rest ps = s.rest ps := by
  simp only [List.cons_subset, List.nil_subset, and_true] at hp
  simp [State.retirePond, hp]

@[simp] theorem State.pondRepair_rest (hp : [.pnd, .mbx, .cps, .mem] ⊆ ps) (now : Cfn) (phys : Nat) (l : List Mismatch) (s : State) :
    (s.pondRepair now phys l).rest ps = s.rest ps := by
  simp only [List.cons_subset, List.nil_subset, and_true] at hp
  simp [State.pondRepair, hp]

@[simp] theorem State.pondsBoundary_rest (hp : [.pnd, .mbx, .cps, .mem] ⊆ ps) (now : Cfn) (s : State) :
    (s.pondsBoundary now).rest ps = s.rest ps := by
  simp only [List.cons_subset, List.nil_subset, and_true] at hp
  simp [State.pondsBoundary, hp]

@[simp] theorem State.loseHome_rest (hp : .pnd ∈ ps) (n : Nat) (s : State) :
    (s.loseHome n).rest ps = s.rest ps := by
  unfold State.loseHome
  dsimp only
  split <;> simp [hp]

@[simp] theorem State.loseMemory_rest (hp : [.pnd, .eng] ⊆ ps) (m : Nat) (arrays : List Nat) (s : State) :
    (s.loseMemory m arrays).rest ps = s.rest ps := by
  simp only [List.cons_subset, List.nil_subset, and_true] at hp
  simp [State.loseMemory, hp]

@[simp] theorem diagMarchBody_rest (hp : .mem ∈ ps) (r : MbReq) (s : State) :
    (diagMarchBody r s).2.rest ps = s.rest ps := by
  simp [diagMarchBody, hp]

@[simp] theorem State.marchZero_rest (hp : [.sch, .pnd, .dp, .eng, .bus] ⊆ ps) (m : Nat) (s : State) :
    (s.marchZero m).rest ps = s.rest ps := by
  simp only [List.cons_subset, List.nil_subset, and_true] at hp
  simp [State.marchZero, hp]

@[simp] theorem State.marchUndefined_rest (hp : [.sch, .pnd, .dp, .eng, .key, .bus] ⊆ ps) (m u : Nat) (s : State) :
    (s.marchUndefined m u).rest ps = s.rest ps := by
  simp only [List.cons_subset, List.nil_subset, and_true] at hp
  simp [State.marchUndefined, hp]

@[simp] theorem State.abortMarch_rest (r : MarchRun) (s : State) :
    (s.abortMarch r).rest machine = s.rest machine := by
  simp [State.abortMarch]

@[simp] theorem State.abortMarches_rest (which : MarchRun → Bool) (s : State) :
    (s.abortMarches which).rest machine = s.rest machine := by
  simp [State.abortMarches]

@[simp] theorem diagMemStatusBody_rest (r : MbReq) (s : State) :
    (diagMemStatusBody r s).2.rest ps = s.rest ps := by
  simp [diagMemStatusBody]

@[simp] theorem diagPondSpareBody_rest (hp : .pnd ∈ ps) (r : MbReq) (s : State) :
    (diagPondSpareBody r s).2.rest ps = s.rest ps := by
  unfold diagPondSpareBody
  split <;> simp [hp]

@[simp] theorem diagPondRestoreBody_rest (hp : .pnd ∈ ps) (r : MbReq) (s : State) :
    (diagPondRestoreBody r s).2.rest ps = s.rest ps := by
  simp [diagPondRestoreBody, hp]

/-! ### Tributaries -/

@[simp] theorem trbStatusBody_rest (r : MbReq) (s : State) :
    (trbStatusBody r s).2.rest ps = s.rest ps := by
  simp [trbStatusBody]

@[simp] theorem State.finishResize_rest (hp : [.dp, .mbx] ⊆ ps) (ing eg cause : Nat) (s : State) :
    (s.finishResize ing eg cause).rest ps = s.rest ps := by
  simp only [List.cons_subset, List.nil_subset, and_true] at hp
  unfold State.finishResize
  split <;> simp [hp]

@[simp] theorem trbResizeBody_rest (hp : .dp ∈ ps) (r : MbReq) (s : State) :
    (trbResizeBody r s).2.rest ps = s.rest ps := by
  simp [trbResizeBody, hp]

@[simp] theorem trbResizeAbortBody_rest (hp : [.dp, .mbx] ⊆ ps) (r : MbReq) (s : State) :
    (trbResizeAbortBody r s).2.rest ps = s.rest ps := by
  simp only [List.cons_subset, List.nil_subset, and_true] at hp
  simp [trbResizeAbortBody, hp]

@[simp] theorem State.failResizes_rest (hp : [.dp, .mbx] ⊆ ps) (hit : Resize → Bool) (s : State) :
    (s.failResizes hit).rest ps = s.rest ps := by
  simp only [List.cons_subset, List.nil_subset, and_true] at hp
  simp [State.failResizes, hp]

/-! ### Conj -/

@[simp] theorem State.conjEvent_rest (hp : .mbx ∈ ps) (code b6 : Nat) (n : Option Notice) (g old new m : Nat) (s : State) :
    (s.conjEvent code b6 n g old new m).rest ps = s.rest ps := by
  simp [State.conjEvent, hp]

@[simp] theorem State.dropNotice_rest (hp : [.grps, .mbx] ⊆ ps) (g cause : Nat) (s : State) :
    (s.dropNotice g cause).rest ps = s.rest ps := by
  simp only [List.cons_subset, List.nil_subset, and_true] at hp
  unfold State.dropNotice
  split
  · split <;> simp [hp]
  · simp

@[simp] theorem State.dropNotices_rest (hp : [.grps, .mbx] ⊆ ps) (s : State) :
    (s.dropNotices).rest ps = s.rest ps := by
  simp only [List.cons_subset, List.nil_subset, and_true] at hp
  simp [State.dropNotices, hp]

@[simp] theorem State.markStale_rest (hp : [.rst, .glb] ⊆ ps) (which : Nat → Bool) (s : State) :
    (s.markStale which).rest ps = s.rest ps := by
  simp only [List.cons_subset, List.nil_subset, and_true] at hp
  simp [State.markStale, hp]

@[simp] theorem State.conjDecide_rest (hp : [.rst, .glb, .grps, .twin] ⊆ ps) (g : Nat) (s : State) :
    (s.conjDecide g).rest ps = s.rest ps := by
  simp only [List.cons_subset, List.nil_subset, and_true] at hp
  unfold State.conjDecide
  split <;> simp [hp]

@[simp] theorem State.conjDecideAll_rest (hp : [.rst, .glb, .grps, .twin] ⊆ ps) (s : State) :
    (s.conjDecideAll).rest ps = s.rest ps := by
  simp only [List.cons_subset, List.nil_subset, and_true] at hp
  simp [State.conjDecideAll, hp]

@[simp] theorem State.conjApplied_rest (hp : [.grps, .mbx, .perf] ⊆ ps) (g old new m cause : Nat) (n : Option Notice) (s : State) :
    (s.conjApplied g old new m cause n).rest ps = s.rest ps := by
  simp only [List.cons_subset, List.nil_subset, and_true] at hp
  simp [State.conjApplied, hp]

@[simp] theorem State.conjApply_rest (hp : [.grps, .dp, .mbx, .perf] ⊆ ps) (g : Nat) (s : State) :
    (s.conjApply g).rest ps = s.rest ps := by
  simp only [List.cons_subset, List.nil_subset, and_true] at hp
  unfold State.conjApply
  split
  · split <;> simp [hp]
  · simp

@[simp] theorem State.conjApplyAll_rest (hp : [.grps, .dp, .mbx, .perf] ⊆ ps) (s : State) :
    (s.conjApplyAll).rest ps = s.rest ps := by
  simp only [List.cons_subset, List.nil_subset, and_true] at hp
  simp [State.conjApplyAll, hp]

@[simp] theorem State.markSlots_rest (hp : .grps ∈ ps) (g : Nat) (s : State) :
    (s.markSlots g).rest ps = s.rest ps := by
  unfold State.markSlots
  split <;> simp [hp]

@[simp] theorem State.carryNotice_rest (hp : [.grps, .mbx] ⊆ ps) (g : Nat) (p : Option Para) (s : State) :
    (s.carryNotice g p).rest ps = s.rest ps := by
  simp only [List.cons_subset, List.nil_subset, and_true] at hp
  unfold State.carryNotice
  repeat' split
  all_goals simp [hp]

@[simp] theorem State.conjCarry_rest (hp : [.grps, .mbx, .perf] ⊆ ps) (old : Bank) (before : Nat → Option Nat) (g : Nat) (s : State) :
    (s.conjCarry old before g).rest ps = s.rest ps := by
  simp only [List.cons_subset, List.nil_subset, and_true] at hp
  unfold State.conjCarry
  split
  · simp
  · split <;> simp [hp]

@[simp] theorem State.failCarried_rest (hp : [.dp, .mbx] ⊆ ps) (old : Bank) (before : Nat → Option Nat) (s : State) :
    (s.failCarried old before).rest ps = s.rest ps := by
  simp only [List.cons_subset, List.nil_subset, and_true] at hp
  simp [State.failCarried, hp]

@[simp] theorem State.setNotice_rest (hp : [.grps, .mbx] ⊆ ps) (g : Nat) (n : Notice) (s : State) :
    (s.setNotice g n).rest ps = s.rest ps := by
  simp only [List.cons_subset, List.nil_subset, and_true] at hp
  unfold State.setNotice
  split
  · simp
  · split <;> simp [hp]

@[simp] theorem conjNoticeBody_rest (hp : [.grps, .mbx] ⊆ ps) (r : MbReq) (s : State) :
    (conjNoticeBody r s).2.rest ps = s.rest ps := by
  simp only [List.cons_subset, List.nil_subset, and_true] at hp
  simp [conjNoticeBody, hp]

@[simp] theorem conjCancelBody_rest (hp : [.grps, .mbx, .drawn] ⊆ ps) (r : MbReq) (s : State) :
    (conjCancelBody r s).2.rest ps = s.rest ps := by
  simp only [List.cons_subset, List.nil_subset, and_true] at hp
  unfold conjCancelBody
  split <;> simp [hp]

@[simp] theorem conjPinCfgBody_rest (hp : .pwr ∈ ps) (r : MbReq) (s : State) :
    (conjPinCfgBody r s).2.rest ps = s.rest ps := by
  simp [conjPinCfgBody, hp]

@[simp] theorem conjStatusBody_rest (r : MbReq) (s : State) :
    (conjStatusBody r s).2.rest ps = s.rest ps := by
  unfold conjStatusBody
  dsimp only
  split <;> simp []

/-! ### Twin -/

@[simp] theorem State.sendTokens_rest (hp : [.twin, .perf] ⊆ ps) (s : State) :
    (s.sendTokens).rest ps = s.rest ps := by
  simp only [List.cons_subset, List.nil_subset, and_true] at hp
  simp [State.sendTokens, hp]

@[simp] theorem State.twinFlag_rest (hp : [.glb, .twin] ⊆ ps) (b : Nat) (s : State) :
    (s.twinFlag b).rest ps = s.rest ps := by
  simp only [List.cons_subset, List.nil_subset, and_true] at hp
  simp [State.twinFlag, hp]

@[simp] theorem State.setRole_rest (hp : [.glb, .twin, .mbx] ⊆ ps) (new : TwinRole) (cause : Nat) (s : State) :
    (s.setRole new cause).rest ps = s.rest ps := by
  simp only [List.cons_subset, List.nil_subset, and_true] at hp
  simp [State.setRole, hp]

@[simp] theorem State.leaveMate_rest (hp : .glb ∈ ps) (s : State) :
    (s.leaveMate).rest ps = s.rest ps := by
  simp [State.leaveMate, hp]

@[simp] theorem State.goActive_rest (hp : [.glb, .twin, .mbx] ⊆ ps) (cause : Nat) (s : State) :
    (s.goActive cause).rest ps = s.rest ps := by
  simp only [List.cons_subset, List.nil_subset, and_true] at hp
  simp [State.goActive, hp]

@[simp] theorem State.startYield_rest (hp : .twin ∈ ps) (s : State) :
    (s.startYield).rest ps = s.rest ps := by
  simp [State.startYield, hp]

@[simp] theorem State.endJoin_rest (hp : [.twin, .mbx] ⊆ ps) (s : State) :
    (s.endJoin).rest ps = s.rest ps := by
  simp only [List.cons_subset, List.nil_subset, and_true] at hp
  unfold State.endJoin
  split <;> simp [hp]

@[simp] theorem twinJoinBody_rest (hp : [.glb, .twin, .mbx] ⊆ ps) (r : MbReq) (s : State) :
    (twinJoinBody r s).2.rest ps = s.rest ps := by
  simp only [List.cons_subset, List.nil_subset, and_true] at hp
  simp [twinJoinBody, hp]

@[simp] theorem twinLeaveBody_rest (hp : [.glb, .twin] ⊆ ps) (r : MbReq) (s : State) :
    (twinLeaveBody r s).2.rest ps = s.rest ps := by
  simp only [List.cons_subset, List.nil_subset, and_true] at hp
  simp [twinLeaveBody, hp]

@[simp] theorem twinStatusBody_rest (r : MbReq) (s : State) :
    (twinStatusBody r s).2.rest ps = s.rest ps := by
  simp [twinStatusBody]

@[simp] theorem twinCfgBody_rest (hp : .twin ∈ ps) (r : MbReq) (s : State) :
    (twinCfgBody r s).2.rest ps = s.rest ps := by
  simp [twinCfgBody, hp]

@[simp] theorem twinYieldBody_rest (hp : .twin ∈ ps) (r : MbReq) (s : State) :
    (twinYieldBody r s).2.rest ps = s.rest ps := by
  simp [twinYieldBody, hp]

@[simp] theorem domCfgBody_rest (hp : .twin ∈ ps) (r : MbReq) (s : State) :
    (domCfgBody r s).2.rest ps = s.rest ps := by
  simp [domCfgBody, hp]

@[simp] theorem domStatusBody_rest (r : MbReq) (s : State) :
    (domStatusBody r s).2.rest ps = s.rest ps := by
  simp [domStatusBody]

@[simp] theorem stcLaneSetBody_rest (hp : [.lanes, .sch, .pwr] ⊆ ps) (r : MbReq) (s : State) :
    (stcLaneSetBody r s).2.rest ps = s.rest ps := by
  simp only [List.cons_subset, List.nil_subset, and_true] at hp
  simp [stcLaneSetBody, hp]

@[simp] theorem stcLaneReleaseBody_rest (hp : [.lanes, .sch, .twin, .mbx, .perf] ⊆ ps) (r : MbReq) (s : State) :
    (stcLaneReleaseBody r s).2.rest ps = s.rest ps := by
  simp only [List.cons_subset, List.nil_subset, and_true] at hp
  simp [stcLaneReleaseBody, hp]

@[simp] theorem State.twinBoundary_rest (hp : [.glb, .twin, .mbx] ⊆ ps) (pin actIn : Bool) (s : State) :
    (s.twinBoundary pin actIn).rest ps = s.rest ps := by
  simp only [List.cons_subset, List.nil_subset, and_true] at hp
  simp [State.twinBoundary, hp]

/-! ### Engines -/

@[simp] theorem State.endpointFrame_rest (hp : [.eng, .perf] ⊆ ps) (evs : List EpEvents) (aps : Nat → ApsCounts) (s : State) :
    (s.endpointFrame evs aps).rest ps = s.rest ps := by
  simp only [List.cons_subset, List.nil_subset, and_true] at hp
  unfold State.endpointFrame
  dsimp only
  exact (State.rest_foldl (fun t q => by simp [hp]) _ _).trans (by simp only [State.rest, hp, if_true])

@[simp] theorem State.engineFault_rest (hp : [.eng, .mbx, .cps, .perf] ⊆ ps) (e cause : Nat) (s : State) :
    (s.engineFault e cause).rest ps = s.rest ps := by
  simp only [List.cons_subset, List.nil_subset, and_true] at hp
  simp [State.engineFault, hp]

@[simp] theorem State.coverList_rest (hp : [.eng, .mbx] ⊆ ps) (e : Nat) (s : State) :
    (s.coverList e).1.rest ps = s.rest ps := by
  simp only [List.cons_subset, List.nil_subset, and_true] at hp
  unfold State.coverList
  split
  · rfl
  · repeat' split
    all_goals simp [hp]

@[simp] theorem State.engineDown_rest (hp : [.eng, .mbx, .cps] ⊆ ps) (now : Cfn) (e : Nat) (s : State) :
    (s.engineDown now e).rest ps = s.rest ps := by
  simp only [List.cons_subset, List.nil_subset, and_true] at hp
  unfold State.engineDown
  dsimp only
  repeat' split
  all_goals simp [hp]

@[simp] theorem State.recover_rest (hp : [.eng, .mbx] ⊆ ps) (old : Bank) (s : State) :
    (s.recover old).rest ps = s.rest ps := by
  simp only [List.cons_subset, List.nil_subset, and_true] at hp
  simp [State.recover, hp]

@[simp] theorem State.dropEndpoints_rest (hp : .eng ∈ ps) (old : Bank) (s : State) :
    (s.dropEndpoints old).rest ps = s.rest ps := by
  simp [State.dropEndpoints, hp]

@[simp] theorem State.enginesBoundary_rest (hp : [.eng, .mbx, .cps] ⊆ ps) (now : Cfn) (old : Bank) (changed : Bool) (s : State) :
    (s.enginesBoundary now old changed).rest ps = s.rest ps := by
  simp only [List.cons_subset, List.nil_subset, and_true] at hp
  simp [State.enginesBoundary, hp]

@[simp] theorem State.endHarvest_rest (hp : [.glb, .eng] ⊆ ps) (doneWord : W32) (s : State) :
    (s.endHarvest doneWord).rest ps = s.rest ps := by
  simp only [List.cons_subset, List.nil_subset, and_true] at hp
  simp [State.endHarvest, hp]

@[simp] theorem epPlaceBody_rest (hp : .drawn ∈ ps) (r : MbReq) (s : State) :
    (epPlaceBody r s).2.rest ps = s.rest ps := by
  unfold epPlaceBody
  dsimp only
  split <;> simp [hp]

@[simp] theorem epConfigBody_rest (hp : .eng ∈ ps) (r : MbReq) (s : State) :
    (epConfigBody r s).2.rest ps = s.rest ps := by
  simp [epConfigBody, hp]

@[simp] theorem epStatusBody_rest (r : MbReq) (s : State) :
    (epStatusBody r s).2.rest ps = s.rest ps := by
  simp [epStatusBody]

@[simp] theorem epHarvestCfgBody_rest (hp : .eng ∈ ps) (r : MbReq) (s : State) :
    (epHarvestCfgBody r s).2.rest ps = s.rest ps := by
  simp [epHarvestCfgBody, hp]

@[simp] theorem engStatusBody_rest (r : MbReq) (s : State) :
    (engStatusBody r s).2.rest ps = s.rest ps := by
  simp [engStatusBody]

@[simp] theorem engReadmitBody_rest (hp : [.eng, .mbx, .cps] ⊆ ps) (r : MbReq) (s : State) :
    (engReadmitBody r s).2.rest ps = s.rest ps := by
  simp only [List.cons_subset, List.nil_subset, and_true] at hp
  simp [engReadmitBody, hp]

/-! ### Protection -/

@[simp] theorem State.modPg_rest (hp : .prot ∈ ps) (n : Nat) (f : PgRun → PgRun) (s : State) :
    (s.modPg n f).rest ps = s.rest ps := by
  simp [State.modPg, hp]

@[simp] theorem State.postFop_rest (hp : [.glb, .mbx] ⊆ ps) (pg : Nat) (old new : BitVec 3) (s : State) :
    (s.postFop pg old new).rest ps = s.rest ps := by
  simp only [List.cons_subset, List.nil_subset, and_true] at hp
  simp [State.postFop, hp]

@[simp] theorem State.protect_rest (hp : [.glb, .prot, .mbx, .perf] ⊆ ps) (s : State) :
    (s.protect).rest ps = s.rest ps := by
  simp only [List.cons_subset, List.nil_subset, and_true] at hp
  simp [State.protect, hp]

@[simp] theorem State.pgBoundary_rest (hp : .prot ∈ ps) (s : State) :
    (s.pgBoundary).rest ps = s.rest ps := by
  simp [State.pgBoundary, hp]

@[simp] theorem State.pgCommit_rest (hp : [.dp, .prot] ⊆ ps) (old : Bank) (s : State) :
    (s.pgCommit old).rest ps = s.rest ps := by
  simp only [List.cons_subset, List.nil_subset, and_true] at hp
  unfold State.pgCommit
  simp only [State.rest, hp, if_true]

@[simp] theorem pgCommandBody_rest (hp : .prot ∈ ps) (r : MbReq) (s : State) :
    (pgCommandBody r s).2.rest ps = s.rest ps := by
  simp [pgCommandBody, hp]

@[simp] theorem pgStatusBody_rest (r : MbReq) (s : State) :
    (pgStatusBody r s).2.rest ps = s.rest ps := by
  simp [pgStatusBody]

@[simp] theorem pgListBody_rest (r : MbReq) (s : State) :
    (pgListBody r s).2.rest ps = s.rest ps := by
  simp [pgListBody]

/-! ### Cipher -/

@[simp] theorem State.useHalf_rest (hp : [.key, .mbx] ⊆ ps) (slot : Nat) (i : Bool) (s : State) :
    (s.useHalf slot i).rest ps = s.rest ps := by
  simp only [List.cons_subset, List.nil_subset, and_true] at hp
  simp [State.useHalf, hp]

@[simp] theorem State.encLead_rest (hp : .key ∈ ps) (key slot : Nat) (s : State) :
    (s.encLead key slot).rest ps = s.rest ps := by
  unfold State.encLead
  dsimp only
  split <;> simp [hp]

@[simp] theorem State.encBlock_rest (hp : [.key, .mbx] ⊆ ps) (key slot : Nat) (s : State) :
    (s.encBlock key slot).rest ps = s.rest ps := by
  simp only [List.cons_subset, List.nil_subset, and_true] at hp
  unfold State.encBlock
  dsimp only
  split <;> simp [hp]

@[simp] theorem State.acquire_rest (hp : .key ∈ ps) (key slot : Nat) (s : State) :
    (s.acquire key slot).rest ps = s.rest ps := by
  simp [State.acquire, hp]

@[simp] theorem State.followKi_rest (hp : [.key, .mbx] ⊆ ps) (slot : Nat) (i : Bool) (s : State) :
    (s.followKi slot i).rest ps = s.rest ps := by
  simp only [List.cons_subset, List.nil_subset, and_true] at hp
  simp [State.followKi, hp]

@[simp] theorem State.decBlock_rest (hp : [.key, .mbx] ⊆ ps) (key slot : Nat) (i : Bool) (inv : BitVec 48) (s : State) :
    (s.decBlock key slot i inv).rest ps = s.rest ps := by
  simp only [List.cons_subset, List.nil_subset, and_true] at hp
  simp [State.decBlock, hp]

@[simp] theorem State.markLck_rest (hp : .dp ∈ ps) (s : State) :
    (s.markLck).rest ps = s.rest ps := by
  simp [State.markLck, hp]

@[simp] theorem State.keyBoundary_rest (hp : [.dp, .key] ⊆ ps) (s : State) :
    (s.keyBoundary).rest ps = s.rest ps := by
  simp only [List.cons_subset, List.nil_subset, and_true] at hp
  simp [State.keyBoundary, hp]

@[simp] theorem State.keyCommitIn_rest (hp : [.dp, .key] ⊆ ps) (old : Bank) (s : State) :
    (s.keyCommitIn old).rest ps = s.rest ps := by
  simp only [List.cons_subset, List.nil_subset, and_true] at hp
  simp [State.keyCommitIn, hp]

@[simp] theorem State.keyCommitOut_rest (hp : .key ∈ ps) (old : Bank) (s : State) :
    (s.keyCommitOut old).rest ps = s.rest ps := by
  simp [State.keyCommitOut, hp]

@[simp] theorem State.restartBinds_rest (hp : [.dp, .key] ⊆ ps) (island : Nat) (s : State) :
    (s.restartBinds island).rest ps = s.rest ps := by
  simp only [List.cons_subset, List.nil_subset, and_true] at hp
  simp [State.restartBinds, hp]

@[simp] theorem State.pipeFault_rest (hp : [.key, .mbx, .cps] ⊆ ps) (p : Nat) (unvoted forced : Bool) (s : State) :
    (s.pipeFault p unvoted forced).rest ps = s.rest ps := by
  simp only [List.cons_subset, List.nil_subset, and_true] at hp
  simp [State.pipeFault, hp]

@[simp] theorem State.unwrapFault_rest (hp : [.key, .mbx] ⊆ ps) (slot : Nat) (s : State) :
    (s.unwrapFault slot).rest ps = s.rest ps := by
  simp only [List.cons_subset, List.nil_subset, and_true] at hp
  simp [State.unwrapFault, hp]

@[simp] theorem State.activate_rest (hp : [.key, .twin] ⊆ ps) (slot : Nat) (s : State) :
    (s.activate slot).rest ps = s.rest ps := by
  simp only [List.cons_subset, List.nil_subset, and_true] at hp
  simp [State.activate, hp]

@[simp] theorem State.desk_rest (hp : .key ∈ ps) (op slot : Nat) {run : State → Nat × State} (hrun : ∀ s, (run s).2.rest ps = s.rest ps)
    (s : State) : (s.desk op slot run).rest ps = s.rest ps := by
  unfold State.desk
  dsimp only
  split
  · rfl
  · split <;> simp [hp, hrun]

@[simp] theorem deskLoadRun_rest (hp : [.key, .mbx, .drawn] ⊆ ps) (slot : Nat) (e : FetchErrors) (s : State) :
    (deskLoadRun slot e s).2.rest ps = s.rest ps := by
  simp only [List.cons_subset, List.nil_subset, and_true] at hp
  unfold deskLoadRun
  dsimp only
  repeat' split
  all_goals simp [hp]

@[simp] theorem State.wipe_rest (s : State) :
    (s.wipe).rest machine = s.rest machine := by
  simp [State.wipe]

@[simp] theorem State.tamper_rest (src : Nat) (s : State) :
    (s.tamper src).rest machine = s.rest machine := by
  simp [State.tamper]

@[simp] theorem keyLockBody_rest (hp : .key ∈ ps) (r : MbReq) (s : State) :
    (keyLockBody r s).2.rest ps = s.rest ps := by
  simp [keyLockBody, hp]

@[simp] theorem keyLoadBody_rest (hp : [.key, .mbx] ⊆ ps) (e : FetchErrors) (r : MbReq) (s : State) :
    (keyLoadBody e r s).2.rest ps = s.rest ps := by
  simp only [List.cons_subset, List.nil_subset, and_true] at hp
  unfold keyLoadBody
  dsimp only
  repeat' split
  all_goals simp [hp]

@[simp] theorem keyActivateBody_rest (hp : [.key, .twin] ⊆ ps) (r : MbReq) (s : State) :
    (keyActivateBody r s).2.rest ps = s.rest ps := by
  simp only [List.cons_subset, List.nil_subset, and_true] at hp
  simp [keyActivateBody, hp]

@[simp] theorem keyEraseBody_rest (hp : .key ∈ ps) (r : MbReq) (s : State) :
    (keyEraseBody r s).2.rest ps = s.rest ps := by
  simp [keyEraseBody, hp]

@[simp] theorem keyStatusBody_rest (r : MbReq) (s : State) :
    (keyStatusBody r s).2.rest ps = s.rest ps := by
  simp [keyStatusBody]

@[simp] theorem keyPipeStatusBody_rest (r : MbReq) (s : State) :
    (keyPipeStatusBody r s).2.rest ps = s.rest ps := by
  simp [keyPipeStatusBody]

@[simp] theorem keyPipeReadmitBody_rest (hp : [.key, .mbx, .cps] ⊆ ps) (r : MbReq) (s : State) :
    (keyPipeReadmitBody r s).2.rest ps = s.rest ps := by
  simp only [List.cons_subset, List.nil_subset, and_true] at hp
  simp [keyPipeReadmitBody, hp]

/-! ### TakeEffect -/

@[simp] theorem State.takeHb_rest (hp : .twin ∈ ps) (lane : Nat) (t : Token) (s : State) :
    (s.takeHb lane t).rest ps = s.rest ps := by
  simp [State.takeHb, hp]

@[simp] theorem State.takeVote_rest (hp : [.sch, .twin] ⊆ ps) (lane : Nat) (t : Token) (s : State) :
    (s.takeVote lane t).rest ps = s.rest ps := by
  simp only [List.cons_subset, List.nil_subset, and_true] at hp
  unfold State.takeVote
  split
  · simp
  · split <;> simp [hp]

@[simp] theorem State.takeConj_rest (hp : [.grps, .drawn] ⊆ ps) (lane : Nat) (t : Token) (s : State) :
    (s.takeConj lane t).rest ps = s.rest ps := by
  simp only [List.cons_subset, List.nil_subset, and_true] at hp
  simp [State.takeConj, hp]

@[simp] theorem State.takeArm_rest (hp : .sch ∈ ps) (lane : Nat) (t : Token) (s : State) :
    (s.takeArm lane t).rest ps = s.rest ps := by
  simp [State.takeArm, hp]

@[simp] theorem State.crossCommit_rest (hp : [.rst, .glb, .grps, .dp, .prot, .key, .mbx, .perf] ⊆ ps) (old : Bank) (s : State) :
    (s.crossCommit old).rest ps = s.rest ps := by
  simp only [List.cons_subset, List.nil_subset, and_true] at hp
  simp [State.crossCommit, hp]

@[simp] theorem State.tookEffect_rest (hp : [.sch, .mbx] ⊆ ps) (a : Armed) (event : Nat) (s : State) :
    (s.tookEffect a event).rest ps = s.rest ps := by
  simp only [List.cons_subset, List.nil_subset, and_true] at hp
  unfold State.tookEffect
  dsimp only
  split <;> simp [hp]

/-! ### DataPath -/

@[simp] theorem State.ingressFrame_rest (hp : [.pnd, .dp, .perf] ⊆ ps) (inp : FrameInput) (s : State) :
    (s.ingressFrame inp).rest ps = s.rest ps := by
  simp only [List.cons_subset, List.nil_subset, and_true] at hp
  unfold State.ingressFrame
  dsimp only
  exact (State.rest_foldl (fun t q => by simp [hp]) _ _).trans (by simp only [State.rest, hp, if_true])

@[simp] theorem State.decryptFrame_rest (hp : [.dp, .key] ⊆ ps) (inp : FrameInput) (s : State) :
    (s.decryptFrame inp).2.rest ps = s.rest ps := by
  simp only [List.cons_subset, List.nil_subset, and_true] at hp
  unfold State.decryptFrame
  simp [hp]

@[simp] theorem State.crossbarFrame_rest (s : State) :
    (s.crossbarFrame).rest machine = s.rest machine := by
  unfold State.crossbarFrame
  extract_lets b x0 x fill s1 s2 s3 s3' s4
  have h2 : s2.rest machine = s.rest machine := (State.rest_drawn (by simp) _ s1).trans (by simp [s1])
  have h4 : s4.rest machine = s2.rest machine := by simp [s4, s3', s3]
  split <;> simp [h4, h2]

@[simp] theorem State.readoutFrame_rest (hp : [.glb, .sch, .dp, .mbx, .cps, .mem, .perf] ⊆ ps) (s : State) :
    (s.readoutFrame).rest ps = s.rest ps := by
  simp only [List.cons_subset, List.nil_subset, and_true] at hp
  simp [State.readoutFrame, hp]

@[simp] theorem State.mapFrame_rest (hp : [.dp, .mbx, .perf] ⊆ ps) (s : State) :
    (s.mapFrame).rest ps = s.rest ps := by
  simp only [List.cons_subset, List.nil_subset, and_true] at hp
  simp [State.mapFrame, hp]

@[simp] theorem State.encryptFrame_rest (hp : [.dp, .key] ⊆ ps) (s : State) :
    (s.encryptFrame).rest ps = s.rest ps := by
  simp only [List.cons_subset, List.nil_subset, and_true] at hp
  unfold State.encryptFrame
  refine State.rest_foldl (fun z e => ?_) _ _
  split
  · rfl
  · dsimp only
    split <;> simp [hp]

@[simp] theorem State.msiFrame_rest (hp : .dp ∈ ps) (s : State) :
    (s.msiFrame).rest ps = s.rest ps := by
  simp [State.msiFrame, hp]

@[simp] theorem State.checkFrame_rest (hp : [.dp, .perf] ⊆ ps) (inp : FrameInput) (s : State) :
    (s.checkFrame inp).rest ps = s.rest ps := by
  simp only [List.cons_subset, List.nil_subset, and_true] at hp
  simp [State.checkFrame, hp]

@[simp] theorem State.upset_rest (hp : .pnd ∈ ps) (inp : FrameInput) (filling : Bool) (s : State) :
    (s.upset inp filling).rest ps = s.rest ps := by
  simp [State.upset, hp]

@[simp] theorem State.upsetBuffers_rest (hp : .dp ∈ ps) (inp : FrameInput) (s : State) :
    (s.upsetBuffers inp).rest ps = s.rest ps := by
  simp [State.upsetBuffers, hp]

/-- Upsets flip bits of the connection maps, and no bank's role. -/
theorem Sch.modBank_fold_roles {α : Type} (b : α → Nat) (f : α → Bank → Bank) (l : List α) (c : Sch) :
    (l.foldl (fun c u => c.modBank (b u) (f u)) c).present = c.present ∧ (l.foldl (fun c u => c.modBank (b u) (f u)) c).past = c.past ∧
    (l.foldl (fun c u => c.modBank (b u) (f u)) c).future = c.future := by
  induction l generalizing c with
  | nil => exact ⟨rfl, rfl, rfl⟩
  | cons u l ih => simpa using ih (c.modBank (b u) (f u))

@[simp] theorem State.upsetMaps_rest (hp : .sch ∈ ps) (inp : FrameInput) (s : State) :
    (s.upsetMaps inp).rest ps = s.rest ps := by
  unfold State.upsetMaps
  exact State.rest_modSch hp _ s (fun c => (Sch.modBank_fold_roles _ _ _ c).1) (fun c => (Sch.modBank_fold_roles _ _ _ c).2.1)
    fun c => (Sch.modBank_fold_roles _ _ _ c).2.2

@[simp] theorem State.dataFrame_rest (inp : FrameInput) (s : State) :
    (s.dataFrame inp).rest machine = s.rest machine := by
  simp [State.dataFrame]

@[simp] theorem State.ingBoundary_rest (hp : .dp ∈ ps) (inp : FrameInput) (s : State) :
    (s.ingBoundary inp).rest ps = s.rest ps := by
  simp [State.ingBoundary, hp]

@[simp] theorem State.carryCounts_rest (hp : .dp ∈ ps) (old : Tbl CtxCfg) (oldBank : Bank) (s : State) :
    (s.carryCounts old oldBank).rest ps = s.rest ps := by
  simp [State.carryCounts, hp]

/-! ### Power -/

@[simp] theorem State.therm_rest (hp : .mbx ∈ ps) (kind sensor : Nat) (t : Int) (s : State) :
    (s.therm kind sensor t).rest ps = s.rest ps := by
  simp [State.therm, hp]

@[simp] theorem State.takeSample_rest (hp : [.mbx, .pwr, .drawn] ⊆ ps) (readings : List Int) (s : State) :
    (s.takeSample readings).rest ps = s.rest ps := by
  simp only [List.cons_subset, List.nil_subset, and_true] at hp
  unfold State.takeSample
  dsimp only
  refine (State.rest_foldl (fun t f => by simp [hp]) _ _).trans ?_
  simp [State.rest, hp]

@[simp] theorem State.thermalSteps_rest (hp : [.glb, .mbx, .pwr] ⊆ ps) (s : State) :
    (s.thermalSteps).rest ps = s.rest ps := by
  simp only [List.cons_subset, List.nil_subset, and_true] at hp
  simp [State.thermalSteps, hp]

@[simp] theorem State.avsNote_rest (hp : [.mbx, .pwr] ⊆ ps) (bit kind : Nat) (s : State) :
    (s.avsNote bit kind).rest ps = s.rest ps := by
  simp only [List.cons_subset, List.nil_subset, and_true] at hp
  simp [State.avsNote, hp]

@[simp] theorem State.avsStep_rest (hp : [.mbx, .pwr] ⊆ ps) (up : Bool) (s : State) :
    (s.avsStep up).rest ps = s.rest ps := by
  simp only [List.cons_subset, List.nil_subset, and_true] at hp
  simp [State.avsStep, hp]

@[simp] theorem State.railStatus_rest (hp : [.mbx, .pwr] ⊆ ps) (w : W16) (s : State) :
    (s.railStatus w).rest ps = s.rest ps := by
  simp only [List.cons_subset, List.nil_subset, and_true] at hp
  simp [State.railStatus, hp]

@[simp] theorem State.loseEngines_rest (hp : [.sch, .pnd, .dp, .eng, .key, .bus, .drawn] ⊆ ps) (q : Nat) (s : State) :
    (s.loseEngines q).rest ps = s.rest ps := by
  simp only [List.cons_subset, List.nil_subset, and_true] at hp
  simp [State.loseEngines, hp]

@[simp] theorem State.loseCiphers_rest (hp : [.sch, .pnd, .dp, .eng, .key, .bus, .drawn] ⊆ ps) (i : Nat) (s : State) :
    (s.loseCiphers i).rest ps = s.rest ps := by
  simp only [List.cons_subset, List.nil_subset, and_true] at hp
  simp [State.loseCiphers, hp]

@[simp] theorem State.gate_rest (bit : Nat) (s : State) :
    (s.gate bit).rest machine = s.rest machine := by
  unfold State.gate
  dsimp only
  split
  · exact (State.rest_lanes_drawn (by simp) (by simp) _ _ (s.modPwr _)).trans (by simp)
  · split <;> simp

@[simp] theorem State.powerBoundary_rest (hp : .pwr ∈ ps) (s : State) :
    (s.powerBoundary).rest ps = s.rest ps := by
  simp [State.powerBoundary, hp]

@[simp] theorem pwrHoldBody_rest (hp : .glb ∈ ps) (r : MbReq) (s : State) :
    (pwrHoldBody r s).2.rest ps = s.rest ps := by
  simp [pwrHoldBody, hp]

@[simp] theorem pwrResumeBody_rest (hp : .glb ∈ ps) (r : MbReq) (s : State) :
    (pwrResumeBody r s).2.rest ps = s.rest ps := by
  simp [pwrResumeBody, hp]

@[simp] theorem pwrStatusBody_rest (r : MbReq) (s : State) :
    (pwrStatusBody r s).2.rest ps = s.rest ps := by
  simp [pwrStatusBody]

@[simp] theorem devGpioCfgBody_rest (hp : [.pwr, .drawn] ⊆ ps) (r : MbReq) (s : State) :
    (devGpioCfgBody r s).2.rest ps = s.rest ps := by
  simp only [List.cons_subset, List.nil_subset, and_true] at hp
  simp [devGpioCfgBody, hp]

/-! ### Perf -/

@[simp] theorem State.perfAccess_rest (hp : .perf ∈ ps) (m : BusMaster) (n : Nat) (f : Perf → Perf) (s : State) :
    (s.perfAccess m n f).rest ps = s.rest ps := by
  simp [State.perfAccess, hp]

@[simp] theorem State.perfRead_rest (hp : .perf ∈ ps) (m : BusMaster) (o : Nat) (s : State) :
    (s.perfRead m o).2.rest ps = s.rest ps := by
  unfold State.perfRead
  split <;> simp [hp]

@[simp] theorem State.perfWrite_rest (hp : .perf ∈ ps) (m : BusMaster) (o : Nat) (v : W32) (s : State) :
    (s.perfWrite m o v).rest ps = s.rest ps := by
  simp [State.perfWrite, hp]

@[simp] theorem diagPerfAccessBody_rest (hp : .perf ∈ ps) (r : MbReq) (s : State) :
    (diagPerfAccessBody r s).2.rest ps = s.rest ps := by
  simp [diagPerfAccessBody, hp]

@[simp] theorem State.pertWrite_rest (hp : .pert ∈ ps) (o : Nat) (v : W32) (s : State) :
    (s.pertWrite o v).rest ps = s.rest ps := by
  simp [State.pertWrite, hp]

@[simp] theorem State.pertLimit_rest (hp : .pert ∈ ps) (s : State) :
    (s.pertLimit).rest ps = s.rest ps := by
  simp [State.pertLimit, hp]

@[simp] theorem State.pertBoundary_rest (hp : [.perf, .pert] ⊆ ps) (s : State) :
    (s.pertBoundary).rest ps = s.rest ps := by
  simp only [List.cons_subset, List.nil_subset, and_true] at hp
  simp [State.pertBoundary, hp]

/-! ### Device -/

@[simp] theorem devInfoBody_rest (r : MbReq) (s : State) :
    (devInfoBody r s).2.rest ps = s.rest ps := by
  simp [devInfoBody]

@[simp] theorem State.burn_rest (hp : .rst ∈ ps) (st : LcState) (s : State) :
    (s.burn st).rest ps = s.rest ps := by
  simp [State.burn, hp]

@[simp] theorem devDecommissionBody_rest (hp : [.rst, .glb] ⊆ ps) (burnOk : Bool) (r : MbReq) (s : State) :
    (devDecommissionBody burnOk r s).2.rest ps = s.rest ps := by
  simp only [List.cons_subset, List.nil_subset, and_true] at hp
  simp [devDecommissionBody, hp]

@[simp] theorem devLcChallengeBody_rest (hp : [.rst, .drawn] ⊆ ps) (r : MbReq) (s : State) :
    (devLcChallengeBody r s).2.rest ps = s.rest ps := by
  simp only [List.cons_subset, List.nil_subset, and_true] at hp
  simp [devLcChallengeBody, hp]

@[simp] theorem devLcAdvanceBody_rest (hp : .rst ∈ ps) (burnOk : Bool) (r : MbReq) (s : State) :
    (devLcAdvanceBody burnOk r s).2.rest ps = s.rest ps := by
  unfold devLcAdvanceBody
  dsimp only
  split <;> simp [hp]

@[simp] theorem State.setDebug_rest (level : Nat) (cause : Byte) (s : State) :
    (s.setDebug level cause).rest machine = s.rest machine := by
  simp [State.setDebug]

@[simp] theorem devDebugSetBody_rest (r : MbReq) (s : State) :
    (devDebugSetBody r s).2.rest machine = s.rest machine := by
  simp [devDebugSetBody]

@[simp] theorem State.lcApply_rest (new : LcState) (s : State) :
    (s.lcApply new).rest machine = s.rest machine := by
  simp [State.lcApply]

@[simp] theorem fwInfoBody_rest (r : MbReq) (s : State) :
    (fwInfoBody r s).2.rest ps = s.rest ps := by
  simp [fwInfoBody]

@[simp] theorem fwWriteBody_rest (hp : [.rst, .cps] ⊆ ps) (r : MbReq) (s : State) :
    (fwWriteBody r s).2.rest ps = s.rest ps := by
  simp only [List.cons_subset, List.nil_subset, and_true] at hp
  unfold fwWriteBody
  dsimp only
  repeat' split
  all_goals simp [hp]

@[simp] theorem fwSelectBody_rest (hp : .cps ∈ ps) (r : MbReq) (s : State) :
    (fwSelectBody r s).2.rest ps = s.rest ps := by
  simp [fwSelectBody, hp]

@[simp] theorem fwRecoverStartBody_rest (hp : .rst ∈ ps) (r : MbReq) (s : State) :
    (fwRecoverStartBody r s).2.rest ps = s.rest ps := by
  simp [fwRecoverStartBody, hp]

@[simp] theorem diagLogBody_rest (hp : .drawn ∈ ps) (r : MbReq) (s : State) :
    (diagLogBody r s).2.rest ps = s.rest ps := by
  simp [diagLogBody, hp]

/-! ### Functions -/

@[simp] theorem State.readAnswer_rest (hp : .bus ∈ ps) (m : BusMaster) (v : W32) (s : State) :
    (s.readAnswer m v).rest ps = s.rest ps := by
  simp [State.readAnswer, hp]

@[simp] theorem State.weirError_rest (hp : [.glb, .bus, .drawn] ⊆ ps) (f : Nat) (t : WeirTxn) (s : State) :
    (s.weirError f t).rest ps = s.rest ps := by
  simp only [List.cons_subset, List.nil_subset, and_true] at hp
  simp [State.weirError, hp]

@[simp] theorem State.weirRecord_rest (hp : [.rst, .glb, .bus, .perf, .drawn] ⊆ ps) (f : Nat) (t : WeirTxn) (s : State) :
    (s.weirRecord f t).rest ps = s.rest ps := by
  simp only [List.cons_subset, List.nil_subset, and_true] at hp
  simp [State.weirRecord, hp]

@[simp] theorem State.dropAnswers_rest (hp : [.rst, .mbx] ⊆ ps) (mb : Nat) (s : State) :
    (s.dropAnswers mb).rest ps = s.rest ps := by
  simp only [List.cons_subset, List.nil_subset, and_true] at hp
  simp [State.dropAnswers, hp]

@[simp] theorem State.assertFunc_rest (hp : [.rst, .glb, .tim, .mbx, .cps, .bus, .perf, .drawn] ⊆ ps) (f : Nat) (txns : List WeirTxn) (s : State) :
    (s.assertFunc f txns).rest ps = s.rest ps := by
  simp only [List.cons_subset, List.nil_subset, and_true] at hp
  simp [State.assertFunc, hp]

@[simp] theorem State.requestFunc_rest (hp : [.rst, .glb, .tim, .mbx, .cps, .bus, .perf, .drawn] ⊆ ps) (f : Nat) (txns : List WeirTxn) (s : State) :
    (s.requestFunc f txns).2.rest ps = s.rest ps := by
  simp only [List.cons_subset, List.nil_subset, and_true] at hp
  simp [State.requestFunc, hp]

@[simp] theorem State.funcCtrl_rest (hp : [.rst, .glb, .tim, .mbx, .cps, .bus, .perf, .drawn] ⊆ ps) (v : W32) (txns : List WeirTxn) (s : State) :
    (s.funcCtrl v txns).rest ps = s.rest ps := by
  simp only [List.cons_subset, List.nil_subset, and_true] at hp
  simp [State.funcCtrl, hp]

@[simp] theorem State.requestFuncs_rest (hp : [.rst, .glb, .tim, .mbx, .cps, .bus, .perf, .drawn] ⊆ ps) (fs : List Nat) (txns : List WeirTxn) (s : State) :
    (s.requestFuncs fs txns).rest ps = s.rest ps := by
  simp only [List.cons_subset, List.nil_subset, and_true] at hp
  simp [State.requestFuncs, hp]

@[simp] theorem State.endDma_rest (hp : [.glb, .sch, .eng, .mbx, .perf, .drawn] ⊆ ps) (load harvest : Bool) (s : State) :
    (s.endDma load harvest).rest ps = s.rest ps := by
  simp only [List.cons_subset, List.nil_subset, and_true] at hp
  simp [State.endDma, hp]

@[simp] theorem State.reloadMicrocode_rest (hp : .eng ∈ ps) (s : State) :
    (s.reloadMicrocode).rest ps = s.rest ps := by
  simp [State.reloadMicrocode, hp]

@[simp] theorem State.resetEngines_rest (hp : [.sch, .eng] ⊆ ps) (q : Nat) (s : State) :
    (s.resetEngines q).rest ps = s.rest ps := by
  simp only [List.cons_subset, List.nil_subset, and_true] at hp
  simp [State.resetEngines, hp]

@[simp] theorem State.dropGroup_rest (hp : [.lanes, .grps, .sch] ⊆ ps) (g : Nat) (s : State) :
    (s.dropGroup g).rest ps = s.rest ps := by
  simp only [List.cons_subset, List.nil_subset, and_true] at hp
  unfold State.dropGroup
  split
  · rfl
  · rw [State.rest_modSch (by simp [hp]) _ _ (by simp) (by simp) (by simp)]
    exact State.rest_lanes_grps (by simp [hp]) (by simp [hp]) _ _ s

@[simp] theorem State.resetCluster_rest (hp : [.lanes, .grps, .sch, .twin, .mbx, .perf] ⊆ ps) (j : Nat) (s : State) :
    (s.resetCluster j).rest ps = s.rest ps := by
  simp only [List.cons_subset, List.nil_subset, and_true] at hp
  simp [State.resetCluster, hp]

@[simp] theorem State.unstaleCipher_rest (hp : [.rst, .dp, .key] ⊆ ps) (island : Nat) (s : State) :
    (s.unstaleCipher island).rest ps = s.rest ps := by
  simp only [List.cons_subset, List.nil_subset, and_true] at hp
  simp [State.unstaleCipher, hp]

@[simp] theorem State.dropLatch_rest (hp : [.sch, .bus] ⊆ ps) (m : Nat) (s : State) :
    (s.dropLatch m).rest ps = s.rest ps := by
  simp only [List.cons_subset, List.nil_subset, and_true] at hp
  simp [State.dropLatch, hp]

@[simp] theorem State.funcEffect_rest (f : Nat) (s : State) :
    (s.funcEffect f).rest machine = s.rest machine := by
  unfold State.funcEffect
  simp

@[simp] theorem State.answerReset_rest (hp : [.rst, .mbx] ⊆ ps) (f : Nat) (s : State) :
    (s.answerReset f).rest ps = s.rest ps := by
  simp only [List.cons_subset, List.nil_subset, and_true] at hp
  simp [State.answerReset, hp]

@[simp] theorem State.loseBme_rest (hp : [.glb, .sch, .eng, .mbx, .perf, .drawn] ⊆ ps) (s : State) :
    (s.loseBme).rest ps = s.rest ps := by
  simp only [List.cons_subset, List.nil_subset, and_true] at hp
  simp [State.loseBme, hp]

@[simp] theorem devResetBody_rest (hp : [.rst, .glb, .tim, .mbx, .cps, .bus, .perf, .drawn] ⊆ ps) (txns : List WeirTxn) (r : MbReq) (s : State) :
    (devResetBody txns r s).2.rest ps = s.rest ps := by
  simp only [List.cons_subset, List.nil_subset, and_true] at hp
  simp [devResetBody, hp]

/-! ### Frame -/

@[simp] theorem State.untrigger_rest (hp : .glb ∈ ps) (t : ModeTrigger) (s : State) :
    (s.untrigger t).rest ps = s.rest ps := by
  simp [State.untrigger, hp]

@[simp] theorem State.lcStep_rest (s : State) :
    (s.lcStep).rest machine = s.rest machine := by
  unfold State.lcStep
  split <;> simp []

@[simp] theorem State.overhead_rest (hp : [.glb, .eng, .prot, .twin, .mbx, .perf] ⊆ ps) (inp : FrameInput) (s : State) :
    (s.overhead inp).rest ps = s.rest ps := by
  simp only [List.cons_subset, List.nil_subset, and_true] at hp
  simp [State.overhead, hp]

@[simp] theorem State.workFrame_rest (inp : FrameInput) (s : State) :
    (s.workFrame inp).rest machine = s.rest machine := by
  simp [State.workFrame]

@[simp] theorem State.lineBoundary_rest (hp : [.lanes, .grps, .eng, .mbx, .cps] ⊆ ps) (inp : FrameInput) (s : State) :
    (s.lineBoundary inp).rest ps = s.rest ps := by
  simp only [List.cons_subset, List.nil_subset, and_true] at hp
  simp [State.lineBoundary, hp]

@[simp] theorem State.conjBoundary_rest (inp : FrameInput) (s : State) :
    (s.conjBoundary inp).rest machine = s.rest machine := by
  simp [State.conjBoundary]

@[simp] theorem State.mapperBoundary_rest (hp : [.grps, .dp, .key] ⊆ ps) (s old : State) :
    (s.mapperBoundary old).rest ps = s.rest ps := by
  simp only [List.cons_subset, List.nil_subset, and_true] at hp
  simp [State.mapperBoundary, hp]

@[simp] theorem State.timerBoundary_rest (hp : [.glb, .tim, .mbx, .cps] ⊆ ps) (s : State) (inp : FrameInput) (old : State) :
    (s.timerBoundary inp old).rest ps = s.rest ps := by
  simp only [List.cons_subset, List.nil_subset, and_true] at hp
  simp [State.timerBoundary, hp]

@[simp] theorem State.takeAcks_rest (hp : .sch ∈ ps) (acks : List Nat) (s : State) :
    (s.takeAcks acks).rest ps = s.rest ps := by
  simp [State.takeAcks, hp]

@[simp] theorem State.bankConflicts_rest (hp : .bus ∈ ps) (i n : Nat) (s : State) :
    (s.bankConflicts i n).rest ps = s.rest ps := by
  simp [State.bankConflicts, hp]

@[simp] theorem State.countPerf_rest (hp : [.bus, .perf] ⊆ ps) (l : List (Nat × Nat)) (s : State) :
    (s.countPerf l).rest ps = s.rest ps := by
  simp only [List.cons_subset, List.nil_subset, and_true] at hp
  simp [State.countPerf, hp]

@[simp] theorem State.latchRegisters_rest (hp : .eng ∈ ps) (frames : Nat) (hold : Bool) (s : State) :
    (s.latchRegisters frames hold).rest ps = s.rest ps := by
  simp [State.latchRegisters, hp]

/-! ### Maint -/

@[simp] theorem State.maintRead_rest (hp : [.glb, .pnd, .mem, .perf, .drawn] ⊆ ps) (phys cycle : Nat) (s : State) :
    (s.maintRead phys cycle).rest ps = s.rest ps := by
  simp only [List.cons_subset, List.nil_subset, and_true] at hp
  unfold State.maintRead
  dsimp only
  repeat' split
  all_goals simp [hp]

@[simp] theorem State.maintWrite_rest (hp : [.glb, .pnd, .perf] ⊆ ps) (phys cycle : Nat) (s : State) :
    (s.maintWrite phys cycle).rest ps = s.rest ps := by
  simp only [List.cons_subset, List.nil_subset, and_true] at hp
  simp [State.maintWrite, hp]

@[simp] theorem State.denyMaint_rest (hp : [.glb, .pnd] ⊆ ps) (phys : Nat) (s : State) :
    (s.denyMaint phys).rest ps = s.rest ps := by
  simp only [List.cons_subset, List.nil_subset, and_true] at hp
  simp [State.denyMaint, hp]

@[simp] theorem State.maintCtrl_rest (hp : [.glb, .pnd, .mem, .perf, .drawn] ⊆ ps) (phys v cycle : Nat) (s : State) :
    (s.maintCtrl phys v cycle).rest ps = s.rest ps := by
  simp only [List.cons_subset, List.nil_subset, and_true] at hp
  simp [State.maintCtrl, hp]

/-! ### Registers -/

@[simp] theorem State.clearRc_rest (hp : [.sch, .pnd, .mbx, .bus] ⊆ ps) (a : Nat) (s : State) :
    (s.clearRc a).rest ps = s.rest ps := by
  simp only [List.cons_subset, List.nil_subset, and_true] at hp
  simp [State.clearRc, hp]

@[simp] theorem State.readAlias_rest (hp : .glb ∈ ps) (a : Nat) (members : List Nat) (o : Nat) (s : State) :
    (s.readAlias a members o).2.rest ps = s.rest ps := by
  unfold State.readAlias
  split <;> simp [hp]

@[simp] theorem State.readWord_rest (hp : [.glb, .sch, .pnd, .mbx, .bus, .perf, .drawn] ⊆ ps) (m : BusMaster) (a : Nat) (s : State) :
    (s.readWord m a).2.rest ps = s.rest ps := by
  simp only [List.cons_subset, List.nil_subset, and_true] at hp
  unfold State.readWord
  split
  · simp [hp]
  · split <;> simp [hp]

@[simp] theorem State.setLatch_rest (hp : .bus ∈ ps) (m : BusMaster) (a : Nat) (v : W32) (s : State) :
    (s.setLatch m a v).rest ps = s.rest ps := by
  simp [State.setLatch, hp]

@[simp] theorem State.fabricRead_rest (hp : [.glb, .sch, .pnd, .mbx, .bus, .perf, .drawn] ⊆ ps) (m : BusMaster) (a : Nat) (s : State) :
    (s.fabricRead m a).2.rest ps = s.rest ps := by
  simp only [List.cons_subset, List.nil_subset, and_true] at hp
  unfold State.fabricRead
  split <;> simp [hp]

@[simp] theorem State.eoi_rest (hp : .glb ∈ ps) (v : W32) (s : State) :
    (s.eoi v).rest ps = s.rest ps := by
  simp [State.eoi, hp]

@[simp] theorem State.setMsixMask_rest (hp : .glb ∈ ps) (mask : Bool) (s : State) :
    (s.setMsixMask mask).rest ps = s.rest ps := by
  simp [State.setMsixMask, hp]

@[simp] theorem State.writeRemap_rest (hp : [.glb, .bus] ⊆ ps) (m : BusMaster) (v : W32) (s : State) :
    (s.writeRemap m v).rest ps = s.rest ps := by
  simp only [List.cons_subset, List.nil_subset, and_true] at hp
  simp [State.writeRemap, hp]

@[simp] theorem State.glbWrite_rest (hp : [.glb, .sch, .twin, .bus] ⊆ ps) (m : BusMaster) (o : Nat) (v : W32) (s : State) :
    (s.glbWrite m o v).rest ps = s.rest ps := by
  simp only [List.cons_subset, List.nil_subset, and_true] at hp
  simp [State.glbWrite, hp]

@[simp] theorem State.writeRequest_rest (hp : .mbx ∈ ps) (n o : Nat) (v : W32) (s : State) :
    (s.writeRequest n o v).rest ps = s.rest ps := by
  simp [State.writeRequest, hp]

@[simp] theorem State.timWrite_rest (hp : [.glb, .tim] ⊆ ps) (o : Nat) (v : W32) (s : State) :
    (s.timWrite o v).rest ps = s.rest ps := by
  simp only [List.cons_subset, List.nil_subset, and_true] at hp
  simp [State.timWrite, hp]

@[simp] theorem State.writeTamperCfg_rest (hp : [.glb, .key] ⊆ ps) (v : W32) (s : State) :
    (s.writeTamperCfg v).rest ps = s.rest ps := by
  simp only [List.cons_subset, List.nil_subset, and_true] at hp
  simp [State.writeTamperCfg, hp]

@[simp] theorem State.writeAvs_rest (hp : .pwr ∈ ps) (v : W32) (s : State) :
    (s.writeAvs v).rest ps = s.rest ps := by
  simp [State.writeAvs, hp]

@[simp] theorem State.pwrWrite_rest (hp : [.glb, .key, .pwr] ⊆ ps) (o : Nat) (v : W32) (s : State) :
    (s.pwrWrite o v).rest ps = s.rest ps := by
  simp only [List.cons_subset, List.nil_subset, and_true] at hp
  simp [State.pwrWrite, hp]

@[simp] theorem State.writeDeskCmd_rest (hp : [.key, .twin, .mbx, .drawn] ⊆ ps) (v : W32) (s : State) :
    (s.writeDeskCmd v).rest ps = s.rest ps := by
  simp only [List.cons_subset, List.nil_subset, and_true] at hp
  simp [State.writeDeskCmd, hp]

@[simp] theorem State.keyWrite_rest (hp : [.key, .twin, .mbx, .drawn] ⊆ ps) (o : Nat) (v : W32) (s : State) :
    (s.keyWrite o v).rest ps = s.rest ps := by
  simp only [List.cons_subset, List.nil_subset, and_true] at hp
  simp [State.keyWrite, hp]

@[simp] theorem State.pondWrite_rest (hp : [.glb, .pnd, .mem, .perf, .drawn] ⊆ ps) (p o : Nat) (v : W32) (s : State) :
    (s.pondWrite p o v).rest ps = s.rest ps := by
  simp only [List.cons_subset, List.nil_subset, and_true] at hp
  simp [State.pondWrite, hp]

@[simp] theorem State.windowLo_rest (hp : .sch ∈ ps) (m : BusMaster) (k : Nat) (v : W32) (s : State) :
    (s.windowLo m k v).rest ps = s.rest ps := by
  simp [State.windowLo, hp]

@[simp] theorem State.windowHi_rest (hp : [.sch, .pwr] ⊆ ps) (m : BusMaster) (k : Nat) (v : W32) (s : State) :
    (s.windowHi m k v).rest ps = s.rest ps := by
  simp only [List.cons_subset, List.nil_subset, and_true] at hp
  unfold State.windowHi
  split
  · simp [hp]
  · split <;> simp [hp]

@[simp] theorem State.writeAlias_rest (hp : [.glb, .lanes] ⊆ ps) (a : Nat) (members : List Nat) (o : Nat) (v : W32) (s : State) :
    (s.writeAlias a members o v).rest ps = s.rest ps := by
  simp only [List.cons_subset, List.nil_subset, and_true] at hp
  unfold State.writeAlias
  split <;> simp [hp]

@[simp] theorem State.writeCommand_rest (hp : [.glb, .sch, .eng, .mbx, .perf, .drawn] ⊆ ps) (v : W32) (s : State) :
    (s.writeCommand v).rest ps = s.rest ps := by
  simp only [List.cons_subset, List.nil_subset, and_true] at hp
  simp [State.writeCommand, hp]

@[simp] theorem State.configWrite_rest (hp : [.glb, .sch, .eng, .mbx, .perf, .drawn] ⊆ ps) (f o : Nat) (v : W32) (s : State) :
    (s.configWrite f o v).rest ps = s.rest ps := by
  simp only [List.cons_subset, List.nil_subset, and_true] at hp
  simp [State.configWrite, hp]

@[simp] theorem State.windowErr_rest (hp : [.glb, .drawn] ⊆ ps) (write : Bool) (s : State) :
    (s.windowErr write).rest ps = s.rest ps := by
  simp only [List.cons_subset, List.nil_subset, and_true] at hp
  simp [State.windowErr, hp]

@[simp] theorem State.pf1Write_rest (hp : [.glb, .sch, .eng, .mbx, .perf, .drawn] ⊆ ps) (a : Nat) (v : W32) (s : State) :
    (s.pf1Write a v).rest ps = s.rest ps := by
  simp only [List.cons_subset, List.nil_subset, and_true] at hp
  simp [State.pf1Write, hp]

@[simp] theorem State.targetRead_rest (hp : [.glb, .sch, .pnd, .mbx, .bus, .perf, .drawn] ⊆ ps) (m : BusMaster) (t a : Nat) (s : State) :
    (s.targetRead m t a).2.rest ps = s.rest ps := by
  simp only [List.cons_subset, List.nil_subset, and_true] at hp
  simp [State.targetRead, hp]

@[simp] theorem State.readOne_rest (hp : [.glb, .sch, .pnd, .mbx, .bus, .perf, .drawn] ⊆ ps) (m : BusMaster) (addr : Nat) (s : State) :
    (s.readOne m addr).2.rest ps = s.rest ps := by
  simp only [List.cons_subset, List.nil_subset, and_true] at hp
  simp [State.readOne, hp]

@[simp] theorem State.busRead_rest (hp : [.glb, .sch, .pnd, .mbx, .bus, .perf, .drawn] ⊆ ps) (m : BusMaster) (addr : Nat) (s : State) :
    (s.busRead m addr).rest ps = s.rest ps := by
  simp only [List.cons_subset, List.nil_subset, and_true] at hp
  unfold State.busRead
  dsimp only
  repeat' split
  all_goals simp [hp]

/-! ### Scrub -/

@[simp] theorem State.scrubCorrect_rest (hp : [.sch, .mbx, .cps, .mem] ⊆ ps) (m w : Nat) (s : State) :
    (s.scrubCorrect m w).rest ps = s.rest ps := by
  simp only [List.cons_subset, List.nil_subset, and_true] at hp
  simp [State.scrubCorrect, hp]

@[simp] theorem State.bankError_rest (hp : [.glb, .sch] ⊆ ps) (b : Nat) (fail : W32) (s : State) :
    (s.bankError b fail).rest ps = s.rest ps := by
  simp only [List.cons_subset, List.nil_subset, and_true] at hp
  simp [State.bankError, hp]

end Sys2Proof.Machine
end

section
/-!
PROOFS. What every command keeps: the queue, the roles of the banks and the power state of the mode.
-/

namespace Sys2Proof.Machine

/-- The queue is the same, and the invariants of the banks and of the power state hold after where they held before. -/
def Calm (s t : State) : Prop := t.pending = s.pending ∧ (BankRoles s → BankRoles t) ∧ (ModePower s → ModePower t)

theorem Calm.refl (s : State) : Calm s s := ⟨rfl, id, id⟩

theorem Calm.trans {s t u : State} (h : Calm s t) (h' : Calm t u) : Calm s u :=
  ⟨h'.1.trans h.1, h'.2.1 ∘ h.2.1, h'.2.2 ∘ h.2.2⟩

theorem calm_ite {c : Prop} [Decidable c] {s t u : State} (ht : Calm s t) (hu : Calm s u) : Calm s (if c then t else u) := by
  split <;> assumption

/-- What `State.rest` keeps of every part is what the invariants speak of. -/
theorem calm_of_rest {l : List Part} {s t : State} (h : t.rest l = s.rest l) : Calm s t := by
  have hq : t.pending = s.pending := by simpa [State.rest] using congrArg (fun x => x.pending) h
  have hm : t.glb.mode = s.glb.mode := by simpa [State.rest] using congrArg (fun x => x.glb.mode) h
  have hp : t.glb.power = s.glb.power := by simpa [State.rest] using congrArg (fun x => x.glb.power) h
  have h1 : t.sch.present = s.sch.present := by simpa [State.rest] using congrArg (fun x => x.sch.present) h
  have h2 : t.sch.past = s.sch.past := by simpa [State.rest] using congrArg (fun x => x.sch.past) h
  have h3 : t.sch.future = s.sch.future := by simpa [State.rest] using congrArg (fun x => x.sch.future) h
  refine ⟨hq, fun hb => ?_, (modePower_of_glb hm hp).mpr⟩
  unfold BankRoles
  rw [h1, h2, h3]
  exact hb

/-- A function changes nothing of what is kept, whatever parts it writes. -/
theorem calm_of_machine {s t : State} (h : t.rest machine = s.rest machine) : Calm s t := calm_of_rest h

/-! ### Relations that every change within the parts `ps` meets -/

/-- A relation between a state and a later one that composes and that every change of the parts `ps` alone meets. -/
structure Closed (ps : List Part) (R : State → State → Prop) : Prop where
  trans : ∀ {s t u}, R s t → R t u → R s u
  of_rest : ∀ {s t}, t.rest ps = s.rest ps → R s t

theorem closed_calm (ps : List Part) : Closed ps Calm := ⟨Calm.trans, calm_of_rest⟩

theorem closed_rest (ps : List Part) : Closed ps fun s t => t.rest ps = s.rest ps := ⟨fun h h' => h'.trans h, id⟩

section
variable {ps : List Part} {R : State → State → Prop} (hR : Closed ps R)
include hR

theorem Closed.refl (s : State) : R s s := hR.of_rest rfl

theorem Closed.foldl {α : Type} {f : State → α → State} (hf : ∀ t a, R t (f t a)) (xs : List α) (s : State) : R s (xs.foldl f s) := by
  induction xs generalizing s with
  | nil => exact hR.refl s
  | cons x xs ih => exact hR.trans (hf s x) (ih (f s x))

theorem Closed.runForm (code : Nat) (f : Form) {body : Run} (hb : ∀ r s, R s (body r s).2) (r : MbReq) (s : State) :
    R s (runForm code f body r s).2 := by
  unfold Machine.runForm
  split
  · exact hR.refl s
  split
  · exact hR.refl s
  split
  · exact hR.refl s
  split
  · exact hR.refl s
  split
  · exact hR.refl s
  · exact hb r s

theorem Closed.spendNonce (hp : .rst ∈ ps) {run : Run} (h : ∀ r s, R s (run r s).2) (r : MbReq) (s : State) :
    R s (spendNonce run r s).2 :=
  hR.trans (h r s) (hR.of_rest (State.rest_modRst hp _ _))

theorem Closed.runJournalled (hp : .mbx ∈ ps) (code : Nat) {run : Run} (h : ∀ r s, R s (run r s).2) (r : MbReq) (s : State) :
    R s (s.runJournalled code run r).2 :=
  hR.trans (h r s) (hR.of_rest (State.note_rest hp _ _))

theorem Closed.exchange (hp : .mbx ∈ ps) (code : Nat) {run : Run} (h : ∀ r s, R s (run r s).2) (r : MbReq) (s : State) :
    R s (s.exchange code run r) := by
  have hj := hR.runJournalled hp code h r s
  unfold State.exchange
  dsimp only
  split
  · exact hj
  · exact hR.trans hj (hR.of_rest (State.answer_rest hp _ _ _ _))

theorem Closed.take (hp : .mbx ∈ ps) {run : Run} (h : ∀ r s, R s (run r s).2) (w : Waiting) (s : State) : R s (s.take run w) := by
  unfold State.take
  split
  · exact hR.runJournalled hp _ h _ s
  · exact hR.exchange hp _ h _ s

theorem Closed.ring (hp : .mbx ∈ ps) (hq : .perf ∈ ps) (code : Nat) {run : Run} (h : ∀ r s, R s (run r s).2) (r : MbReq) (s : State) :
    R s (s.ring code run r) := by
  have hr : R s (s.rung code r) := hR.of_rest (by simp [hp, hq])
  unfold State.ring
  dsimp only
  split
  · exact hR.of_rest (by simp [hp])
  · split
    · exact hR.trans hr (hR.of_rest (by simp [hp, hq]))
    · split
      · exact hR.trans hr (hR.exchange hp code h r _)
      · exact hR.trans hr (hR.of_rest (by simp [hp]))

theorem Closed.request (hp : .mbx ∈ ps) (hq : .perf ∈ ps) (hg : .glb ∈ ps) (code : Nat) {run : Run} (h : ∀ r s, R s (run r s).2) (r : MbReq)
    (s : State) : R s (s.request code run r) := by
  unfold State.request
  split
  · exact hR.refl s
  · split
    · exact hR.of_rest (by simp [hg])
    · refine hR.trans (hR.of_rest ?_) (hR.ring hp hq code h r _)
      split <;> simp [hp]

end

/-! ### The invariants through writes of the global block -/

/-- A write of the global block that leaves each mode in its power state. -/
theorem calm_modGlb (f : Glb → Glb) (s : State) (h : ModePower s → ModePower (s.modGlb f)) : Calm s (s.modGlb f) := ⟨rfl, id, h⟩

theorem calm_setMode (m : Mode) (trigger : Nat) (s : State) : Calm s (s.setMode m trigger) :=
  ⟨rfl, id, fun _ => modePower_setMode m trigger s⟩

theorem Calm.rest {s t u : State} (h : Calm s t) (h' : u.rest machine = t.rest machine) : Calm s u := h.trans (calm_of_machine h')

/-! ### The commands that a mailbox can hold -/

/-- A run leads to a state related to the one before, whatever request it takes. -/
def RunKeeps (R : State → State → Prop) (run : Run) : Prop := ∀ r s, R s (run r s).2

section
variable {R : State → State → Prop} (hR : Closed machine R) (hG : RunKeeps R pwrGateUnusedBody) (host : HostMem) (code : Nat) {run : Run}
include hR

theorem Closed.devResetRun (txns : List WeirTxn) : RunKeeps R (devResetRun txns) := by
  intro r s
  have h := hR.runForm 0x0104 devResetForm (body := devResetBody txns) (fun r s => hR.of_rest (by simp)) r s
  unfold Machine.devResetRun
  dsimp only
  split
  · exact hR.trans h (hR.of_rest (by simp))
  · exact h

theorem Closed.devRun (h : devRun code = some run) : RunKeeps R run := by
  unfold Machine.devRun at h
  split at h <;> cases h
  case h_4 => exact hR.devResetRun []
  case h_6 => exact hR.spendNonce (by simp) (hR.runForm _ _ fun r s => hR.of_rest (by simp))
  case h_7 => exact hR.spendNonce (by simp) (hR.runForm _ _ fun r s => hR.of_rest (by simp))
  all_goals exact hR.runForm _ _ fun r s => hR.of_rest (by simp)

theorem Closed.grpRun (h : grpRun code = some run) : RunKeeps R run := by
  unfold Machine.grpRun at h
  split at h <;> cases h
  all_goals exact hR.runForm _ _ fun r s => hR.of_rest (by simp)

theorem Closed.trbRun (h : trbRun code = some run) : RunKeeps R run := by
  unfold Machine.trbRun at h
  split at h <;> cases h
  all_goals exact hR.runForm _ _ fun r s => hR.of_rest (by simp)

theorem Closed.schRun (h : schRun host code = some run) : RunKeeps R run := by
  unfold Machine.schRun at h
  split at h <;> cases h
  all_goals exact hR.runForm _ _ fun r s => hR.of_rest (by simp)

theorem Closed.conjRun (h : conjRun code = some run) : RunKeeps R run := by
  unfold Machine.conjRun at h
  split at h <;> cases h
  all_goals exact hR.runForm _ _ fun r s => hR.of_rest (by simp)

theorem Closed.epRun (h : epRun code = some run) : RunKeeps R run := by
  unfold Machine.epRun at h
  split at h <;> cases h
  all_goals exact hR.runForm _ _ fun r s => hR.of_rest (by simp)

theorem Closed.pgRun (h : pgRun code = some run) : RunKeeps R run := by
  unfold Machine.pgRun at h
  split at h <;> cases h
  all_goals exact hR.runForm _ _ fun r s => hR.of_rest (by simp)

theorem Closed.keyRun (h : keyRun code = some run) : RunKeeps R run := by
  unfold Machine.keyRun at h
  split at h <;> cases h
  all_goals exact hR.runForm _ _ fun r s => hR.of_rest (by simp)

theorem Closed.timRun (h : timRun code = some run) : RunKeeps R run := by
  unfold Machine.timRun at h
  split at h <;> cases h
  all_goals exact hR.runForm _ _ fun r s => hR.of_rest (by simp)

include hG in
theorem Closed.pwrRun (h : pwrRun code = some run) : RunKeeps R run := by
  unfold Machine.pwrRun at h
  split at h <;> cases h
  case h_4 => exact hR.runForm _ _ hG
  all_goals exact hR.runForm _ _ fun r s => hR.of_rest (by simp)

theorem Closed.diagRun (h : diagRun code = some run) : RunKeeps R run := by
  unfold Machine.diagRun at h
  split at h <;> cases h
  all_goals exact hR.runForm _ _ fun r s => hR.of_rest (by simp)

theorem Closed.fwRun (h : fwRun code = some run) : RunKeeps R run := by
  unfold Machine.fwRun at h
  split at h <;> cases h
  all_goals exact hR.runForm _ _ fun r s => hR.of_rest (by simp)

theorem Closed.twinRun (h : twinRun code = some run) : RunKeeps R run := by
  unfold Machine.twinRun at h
  split at h <;> cases h
  all_goals exact hR.runForm _ _ fun r s => hR.of_rest (by simp)

theorem Closed.unknownRun : RunKeeps R unknownRun := by
  intro r s
  unfold Machine.unknownRun
  split <;> exact hR.refl s

include hG in
theorem Closed.knownRun (h : knownRun host code = some run) : RunKeeps R run := by
  unfold Machine.knownRun at h
  split at h
  · exact hR.devRun code h
  · exact hR.grpRun code h
  · exact hR.trbRun code h
  · exact hR.schRun host code h
  · exact hR.conjRun code h
  · exact hR.epRun code h
  · exact hR.pgRun code h
  · exact hR.keyRun code h
  · exact hR.timRun code h
  · exact hR.pwrRun hG code h
  · exact hR.diagRun code h
  · exact hR.fwRun code h
  · exact hR.twinRun code h
  · cases h

include hG in
/-- Whatever command a doorbell rings keeps the relation. -/
theorem Closed.commandRun : RunKeeps R (commandRun host code) := by
  unfold Machine.commandRun
  cases h : Machine.knownRun host code with
  | none => exact hR.unknownRun
  | some run => exact hR.knownRun hG host code h

/-! ### Doorbells and what waits -/

include hG

theorem Closed.doorbell (mb : Nat) (s : State) : R s (s.doorbell mb host) :=
  hR.trans (hR.ring (by simp) (by simp) _ (hR.commandRun hG host _) _ s) (hR.of_rest (State.rest_modMbx (by simp) _ _))

theorem Closed.takeCommand (w : Waiting) (s : State) : R s (s.take (Machine.commandRun host code) w) :=
  hR.take (by simp) (hR.commandRun hG host code) w s

theorem Closed.serveDue (s : State) : R s s.serveDue := by
  unfold State.serveDue
  split
  · exact hR.refl s
  · extract_lets now s1
    have h1 : R s s1 := hR.of_rest (by simp [s1])
    refine hR.trans h1 (hR.foldl ?_ now s1)
    intro t w
    exact hR.takeCommand hG w.host w.code.toNat w t

theorem Closed.serveP3 (s : State) : R s s.serveP3 := by
  unfold State.serveP3
  have h1 : R s (s.modMbx fun m => { m with waiting := [] }) := hR.of_rest (by simp)
  refine hR.trans h1 (hR.foldl ?_ s.mbx.waiting _)
  intro t w
  exact hR.takeCommand hG [] w.code.toNat w t

end

/-- Leaving gating names the power state of the mode anew. -/
theorem calm_pwrGateUnusedBody : RunKeeps Calm pwrGateUnusedBody := by
  intro r s
  unfold pwrGateUnusedBody
  extract_lets on s1 s2
  have h1 : Calm s s1 := calm_of_machine (by simp [s1])
  have h2 : Calm s1 s2 := calm_of_machine (by simp [s2])
  exact (h1.trans h2).trans (calm_modGlb _ s2 fun _ => (Mode.power_power _ _).symm)

theorem calm_doorbell (mb : Nat) (host : HostMem) (s : State) : Calm s (s.doorbell mb host) :=
  (closed_calm machine).doorbell calm_pwrGateUnusedBody host mb s

theorem calm_serveDue (s : State) : Calm s s.serveDue := (closed_calm machine).serveDue calm_pwrGateUnusedBody s

theorem calm_serveP3 (s : State) : Calm s s.serveP3 := (closed_calm machine).serveP3 calm_pwrGateUnusedBody s

theorem calm_mbWrite (n o : Nat) (v : W32) (host : HostMem) (s : State) : Calm s (s.mbWrite n o v host) := by
  unfold State.mbWrite
  split
  · exact calm_of_machine (by split <;> simp)
  · split
    · split
      · exact calm_doorbell n host s
      · exact Calm.refl s
    · exact calm_of_machine (by repeat' split
                                all_goals simp)

/-! ### Resets and modes -/

theorem calm_assertReset (cold : Bool) (src : Nat) (s : State) : Calm s (s.assertReset cold src) :=
  ⟨rfl, fun _ => assertReset_bankRoles cold src s, fun _ => assertReset_modePower cold src s⟩

theorem bankRoles_empty {s : State} (h : s.sch = {}) : BankRoles s := by
  unfold BankRoles
  rw [h]
  decide

/-- Entering a P3 mode, in whatever mode the device is recorded. -/
theorem calm_enterShallows {s t : State} (h : t.pending = s.pending) : Calm s t.enterShallows := ⟨h, fun _ => bankRoles_empty rfl, fun _ => rfl⟩

theorem calm_enterDecommission {s t : State} (h : t.pending = s.pending) : Calm s t.enterDecommission :=
  ⟨h, fun _ => bankRoles_empty rfl, fun _ => rfl⟩

theorem calm_startFail (cause : Nat) (s : State) : Calm s (s.startFail cause) := by
  unfold State.startFail
  dsimp only
  split
  · exact calm_enterShallows rfl
  · exact (calm_of_machine (by simp)).trans (calm_assertReset false 5 _)

theorem calm_faultReset (cold : Bool) (src : Nat) (s : State) : Calm s (s.faultReset cold src) := by
  unfold State.faultReset
  split
  · exact calm_startFail 7 s
  · split
    · exact (calm_of_machine (by simp)).trans (calm_assertReset cold src _)
    · exact calm_assertReset cold src s

theorem restoreFrom_pending (s : State) : s.restoreFrom.pending = s.pending := by
  unfold State.restoreFrom
  split <;> rfl

theorem calm_enterBringUp (s : State) : Calm s s.enterBringUp := by
  unfold State.enterBringUp
  split
  · exact calm_of_machine (by simp)
  · exact calm_of_machine (by simp)
  · exact ⟨rfl, id, fun _ => modePower_setMode .bringUp 8 _⟩

theorem calm_afterFuses (s : State) : Calm s s.afterFuses := by
  unfold State.afterFuses
  split
  · exact calm_enterDecommission (restoreFrom_pending s)
  · split
    · exact calm_enterShallows (restoreFrom_pending s)
    · exact (calm_enterBringUp s).rest (by simp)

theorem calm_releaseCore (aligned los : Bool) (s : State) : Calm s (s.releaseCore aligned los) := by
  unfold State.releaseCore
  extract_lets s1 s2 s3
  have h1 : Calm s s1 := calm_modGlb _ _ fun h => h
  have h2 : Calm s1 s2 := calm_of_machine (by simp [s2])
  have h3 : Calm s2 s3 := (calm_setMode .provisioning 7 s2).trans (calm_modGlb _ _ fun _ => (Mode.power_power .provisioning _).symm)
  have h3 := (h1.trans h2).trans h3
  split
  · exact h3.rest (by simp)
  · exact h3

theorem calm_rstCtrl (v : W32) (s : State) : Calm s (s.rstCtrl v) := by
  unfold State.rstCtrl
  split
  · exact Calm.refl s
  split
  · exact calm_assertReset _ _ s
  split
  · exact calm_assertReset _ _ s
  · exact Calm.refl s

theorem calm_toHold (s : State) : Calm s s.toHold := by
  unfold State.toHold
  extract_lets s1 s2 due
  have h1 : Calm s s1 := (calm_of_machine (by simp)).trans (calm_setMode .hold 5 _)
  have h2 : Calm s1 s2 := calm_of_machine (by simp [s2])
  exact (h1.trans h2).rest (by simp)

theorem calm_toResume (s : State) : Calm s s.toResume := by
  unfold State.toResume
  extract_lets s1
  have h1 : Calm s s1 := (calm_setMode .provisioning 10 s).trans (calm_modGlb _ _ fun _ => ?_)
  · exact h1.rest (by simp)
  · show (if s.pwr.gateOn then 1 else 0) = Mode.power .provisioning (if s.pwr.gateOn then 1 else 0)
    cases s.pwr.gateOn <;> rfl

theorem calm_toDecommission (s : State) : Calm s s.toDecommission :=
  ((calm_of_machine (by simp)).trans (calm_enterDecommission rfl)).trans (calm_serveP3 _)

theorem calm_cpLost (cause reset : Nat) (s : State) : Calm s (s.cpLost cause reset) := by
  unfold State.cpLost
  dsimp only
  split
  · exact calm_of_machine (by simp)
  · split
    · exact calm_of_machine (by simp)
    · exact calm_faultReset false reset s

theorem calm_vote (pair unit : Nat) (p r : Bool) (s : State) : Calm s (s.vote pair unit p r) := by
  unfold State.vote
  split
  · exact Calm.refl s
  · split
    · exact calm_of_machine (by simp)
    · exact calm_of_machine (by simp)
    · dsimp only
      split
      · exact (calm_of_machine (by simp)).trans (calm_faultReset false 7 _)
      · exact calm_of_machine (by simp)
    · split
      · exact calm_of_machine (by simp)
      · split
        · exact calm_cpLost 1 7 s
        · exact calm_of_machine (by simp)

theorem calm_cpBankError (unit : Nat) (s : State) : Calm s (s.cpBankError unit) := by
  unfold State.cpBankError
  split
  · exact Calm.refl s
  · split
    · exact calm_cpLost 2 8 s
    · exact calm_of_machine (by split <;> simp)

theorem calm_startService (s : State) : Calm s s.startService := by
  unfold State.startService
  split
  · exact Calm.refl s
  split
  · exact calm_setMode _ _ s
  split
  · exact Calm.refl s
  · exact calm_setMode _ _ s

theorem calm_modeStep (s : State) : Calm s s.modeStep := by
  unfold State.modeStep
  extract_lets has m op lost
  split
  · exact calm_toDecommission s
  split
  · exact calm_toHold s
  split
  · exact calm_setMode _ _ s
  split
  · exact (calm_of_machine (by simp)).trans (calm_setMode _ _ _)
  split
  · exact (calm_of_machine (by simp)).trans (calm_setMode _ _ _)
  split
  · exact calm_toResume s
  · exact calm_of_machine (by simp)

theorem calm_modeLoss (m : Mode) (restored : Bool) (s : State) : Calm s (s.modeLoss m restored) := by
  unfold State.modeLoss
  split
  · exact Calm.refl s
  split
  · exact calm_setMode _ _ s
  split
  · exact calm_setMode _ _ s
  · exact Calm.refl s

/-- A Mate's CFN and second are taken over; mode and power state stay. -/
theorem calm_takeCfn (c : Cfn) (s : State) : Calm s (s.takeCfn c) := calm_modGlb _ s fun h => h

/-- The CFN and the second advance; mode and power state stay. -/
theorem calm_advanced (stopped : List Nat) (s : State) : Calm s (s.modGlb fun g => g.judgePps.advance stopped) := by
  refine calm_modGlb _ s (modePower_of_glb ?_ ?_).mpr
  · show (s.glb.judgePps.advance stopped).mode = s.glb.mode
    simp
  · show (s.glb.judgePps.advance stopped).power = s.glb.power
    simp

theorem calm_nextFrame (s : State) (inp : FrameInput) (old : State) : Calm s (s.nextFrame inp old) := by
  unfold State.nextFrame
  extract_lets restored m0 fixed s1 s2 s3 s4 s5 s6 s7 s8
  have h0 : Calm s ((s.modGlb fun g => g.judgePps.advance inp.stopped).modSch Sch.shift) :=
    (calm_advanced inp.stopped s).rest (by simp)
  have h1 : Calm s s1 := (h0.trans (calm_modeStep _)).rest (by simp [s1])
  split
  · exact h1
  · have h2 : Calm s1 s2 := calm_of_machine ((State.rest_lanes_grps (by simp) (by simp) _ _ s1))
    have h3 : Calm s2 s3 := calm_of_machine (by simp [s3])
    have h4 : Calm s3 s4 := calm_of_machine (by simp [s4])
    have h5 : Calm s4 s5 := calm_of_machine (by simp [s5])
    have h6 : Calm s5 s6 := calm_of_machine (by simp [s6])
    have h7 : Calm s6 s7 := calm_of_machine (by simp [s7])
    have h8 : Calm s7 s8 := calm_of_machine (by simp [s8])
    have h9 : Calm s8 s8.serveDue.reloadMicrocode := (calm_serveDue s8).rest (by simp)
    exact ((((((((h1.trans h2).trans h3).trans h4).trans h5).trans h6).trans h7).trans h8).trans h9).trans (calm_modeLoss _ _ _)

/-! ### Bus writes and scrub errors -/

theorem calm_rstWrite (m : BusMaster) (o : Nat) (v : W32) (s : State) : Calm s (s.rstWrite m o v) := by
  unfold State.rstWrite
  split
  · exact calm_of_machine (by split <;> simp)
  · split
    · exact calm_rstCtrl v s
    · exact calm_of_machine (by repeat' split
                                all_goals simp)

theorem calm_poke (m : BusMaster) (a : Nat) (v : W32) (host : HostMem) (s : State) : Calm s (s.poke m a v host) := by
  unfold State.poke
  refine calm_ite (calm_of_machine (by simp)) (calm_ite (calm_mbWrite _ _ v host s) (calm_ite (calm_rstWrite m _ v s) ?_))
  refine calm_ite ?_ (calm_ite ?_ (calm_ite ?_ (calm_ite ?_ (calm_ite ?_ (calm_ite ?_ (calm_ite ?_ (calm_ite ?_ (calm_ite ?_
    (calm_ite ?_ (calm_ite ?_ (calm_ite ?_ (calm_ite ?_ (calm_ite ?_ (calm_ite ?_ (calm_ite ?_ ?_)))))))))))))))
  all_goals exact calm_of_machine (by simp)

theorem calm_fabricWrite (m : BusMaster) (a : Nat) (be : BitVec 4) (v : W32) (host : HostMem) (s : State) :
    Calm s (s.fabricWrite m a be v host) := by
  unfold State.fabricWrite
  split
  · exact Calm.refl s
  split
  · exact calm_of_machine (by simp)
  split
  · exact Calm.refl s
  split
  · exact calm_of_machine (by simp)
  · exact calm_poke m a v host s

theorem calm_targetWrite (m : BusMaster) (t a : Nat) (be : BitVec 4) (v : W32) (host : HostMem) (s : State) :
    Calm s (s.targetWrite m t a be v host) := by
  unfold State.targetWrite
  split
  · exact Calm.refl s
  split
  · exact calm_of_machine (by simp)
  split
  · exact calm_of_machine (by simp)
  split
  · exact calm_of_machine (by simp)
  split
  · exact calm_of_machine (by split <;> simp)
  · exact calm_fabricWrite m a be v host s

theorem calm_writeOne (m : BusMaster) (addr : Nat) (be : BitVec 4) (v : W32) (host : HostMem) (s : State) :
    Calm s (s.writeOne m addr be v host) := by
  unfold State.writeOne
  dsimp only
  split
  · exact Calm.refl s
  split
  · exact calm_of_machine (by simp)
  · exact (calm_targetWrite m (s.decode m addr).1 (s.decode m addr).2 be v host s).rest (by simp)

theorem calm_busWrite (m : BusMaster) (addr : Nat) (be : BitVec 4) (v : W32) (host : HostMem) (s : State) :
    Calm s (s.busWrite m addr be v host) := by
  unfold State.busWrite
  dsimp only
  split
  · exact calm_writeOne ..
  · exact (calm_writeOne ..).trans (calm_writeOne ..)

theorem calm_scrubFail (m w : Nat) (mask : BitVec 72) (s : State) : Calm s (s.scrubFail m w mask) := by
  unfold State.scrubFail
  extract_lets s1 s2
  have h1 : Calm s s1 := calm_of_machine (by simp [s1])
  split
  · exact h1.trans (calm_cpBankError m _)
  · refine h1.rest ?_
    repeat' split
    all_goals simp [s2]

end Sys2Proof.Machine
end

section
/-!
PROOFS. What each command leaves as it was.
-/

namespace Sys2Proof.Machine
variable {ps : List Part}

theorem answers_done_rest {s t : State} (h : t.rest ps = s.rest ps) : Answers (done t) fun u => u.rest ps = s.rest ps :=
  (answers_done t _).mpr ((State.rest_settle t).trans h)

theorem answers_done_calm {s t : State} (h : Calm s t) : Answers (done t) fun u => Calm s u :=
  (answers_done t _).mpr (h.trans (calm_of_rest (l := []) (State.rest_settle t)))

/-- A relation that every change within `ps` meets holds of what a mailbox command leaves where it holds of what its meaning leaves. -/
theorem Closed.mailboxRow {R : State → State → Prop} (hR : Closed ps R) (hp : .mbx ∈ ps) (hq : .perf ∈ ps) (hg : .glb ∈ ps) (code : Nat)
    (f : Form) {body : Run} (h : ∀ r s, R s (body r s).2) (r : MbReq) (s : State) : Answers (mailboxRow code f body r s) fun t => R s t :=
  (answers_done _ _).mpr (hR.trans (hR.request hp hq hg code (hR.runForm code f h) r s) (hR.of_rest (State.rest_settle _)))

end Sys2Proof.Machine
end

section
/-!
PROOFS. What each event changes: `State.rest` at the parts its command writes.
-/

namespace Sys2Proof.Machine
variable {ps : List Part}

/-! ### Start -/

theorem execIoHoldRelease_rest (hp : .rst ∈ ps) (s : State) :
    Answers (execIoHoldRelease s) fun t => t.rest ps = s.rest ps := by
  unfold execIoHoldRelease
  exact answers_done_rest (by simp [hp])

theorem execBootOk_rest (hp : [.rst, .mbx] ⊆ ps) (m : BusMaster) (s : State) :
    Answers (execBootOk m s) fun t => t.rest ps = s.rest ps := by
  simp only [List.cons_subset, List.nil_subset, and_true] at hp
  unfold execBootOk
  exact answers_done_rest (by simp [hp])

/-! ### Commit -/

theorem execCommitNotice_rest (hp : .sch ∈ ps) (s : State) :
    Answers (execCommitNotice s) fun t => t.rest ps = s.rest ps := by
  unfold execCommitNotice
  refine answers_done_rest ?_
  split <;> simp [hp]

theorem execSchCopyDone_rest (hp : [.sch, .mbx, .mem] ⊆ ps) (s : State) :
    Answers (execSchCopyDone s) fun t => t.rest ps = s.rest ps := by
  simp only [List.cons_subset, List.nil_subset, and_true] at hp
  unfold execSchCopyDone
  refine answers_done_rest ?_
  repeat' split
  all_goals simp [hp]

/-! ### Checker -/

theorem execSchCheckDone_rest (hp : [.sch, .mbx, .mem] ⊆ ps) (s : State) :
    Answers (execSchCheckDone s) fun t => t.rest ps = s.rest ps := by
  simp only [List.cons_subset, List.nil_subset, and_true] at hp
  unfold execSchCheckDone
  exact answers_done_rest (by simp [hp])

/-! ### Images -/

theorem execSchLoadDone_rest (hp : [.glb, .sch, .mbx, .perf, .drawn] ⊆ ps) (s : State) :
    Answers (execSchLoadDone s) fun t => t.rest ps = s.rest ps := by
  simp only [List.cons_subset, List.nil_subset, and_true] at hp
  unfold execSchLoadDone
  exact answers_done_rest (by simp [hp])

theorem execDmaSReadError_rest (hp : [.glb, .sch, .mbx, .perf, .drawn] ⊆ ps) (s : State) :
    Answers (execDmaSReadError s) fun t => t.rest ps = s.rest ps := by
  simp only [List.cons_subset, List.nil_subset, and_true] at hp
  unfold execDmaSReadError
  exact answers_done_rest (by simp [hp])

/-! ### Lanes -/

theorem execSignalDetected_rest (hp : .lanes ∈ ps) (lane : Nat) (s : State) :
    Answers (execSignalDetected lane s) fun t => t.rest ps = s.rest ps := by
  unfold execSignalDetected
  exact answers_done_rest (by simp [hp])

theorem execSignalLost_rest (hp : .lanes ∈ ps) (lane : Nat) (s : State) :
    Answers (execSignalLost lane s) fun t => t.rest ps = s.rest ps := by
  unfold execSignalLost
  exact answers_done_rest (by simp [hp])

theorem execAdaptConverged_rest (hp : .lanes ∈ ps) (lane : Nat) (s : State) :
    Answers (execAdaptConverged lane s) fun t => t.rest ps = s.rest ps := by
  unfold execAdaptConverged
  exact answers_done_rest (by simp [hp])

theorem execAdaptTimeout_rest (hp : [.lanes, .mbx, .cps] ⊆ ps) (lane : Nat) (s : State) :
    Answers (execAdaptTimeout lane s) fun t => t.rest ps = s.rest ps := by
  simp only [List.cons_subset, List.nil_subset, and_true] at hp
  unfold execAdaptTimeout
  exact answers_done_rest (by simp [hp])

theorem execLineFrame_rest (hp : [.lanes, .grps, .eng, .perf] ⊆ ps) (lane : Nat) (f : LineFrame) (s : State) :
    Answers (execLineFrame lane f s) fun t => t.rest ps = s.rest ps := by
  simp only [List.cons_subset, List.nil_subset, and_true] at hp
  unfold execLineFrame
  refine answers_done_rest (State.ifRuns_rest (fun t => ?_) s)
  split
  · rfl
  split
  · split <;> simp [hp]
  · split
    · rfl
    · extract_lets t1 miss t2
      have h2 : t2.rest ps = t.rest ps := by simp only [t2]; split <;> simp [t1, hp]
      split
      · split
        · exact h2
        · simp [h2, hp]
      · exact h2
  · rfl

theorem execHuntAccept_rest (hp : .lanes ∈ ps) (lane : Nat) (s : State) :
    Answers (execHuntAccept lane s) fun t => t.rest ps = s.rest ps := by
  unfold execHuntAccept
  exact answers_done_rest (by simp [hp])

theorem execHuntTimeout_rest (hp : [.lanes, .mbx, .cps] ⊆ ps) (lane : Nat) (s : State) :
    Answers (execHuntTimeout lane s) fun t => t.rest ps = s.rest ps := by
  simp only [List.cons_subset, List.nil_subset, and_true] at hp
  unfold execHuntTimeout
  exact answers_done_rest (by simp [hp])

theorem execDlofDeclare_rest (hp : [.lanes, .grps, .eng, .mbx, .cps] ⊆ ps) (lane : Nat) (s : State) :
    Answers (execDlofDeclare lane s) fun t => t.rest ps = s.rest ps := by
  simp only [List.cons_subset, List.nil_subset, and_true] at hp
  unfold execDlofDeclare
  exact answers_done_rest (by simp [hp])

theorem execCdrLockLoss_rest (hp : [.lanes, .mbx, .cps] ⊆ ps) (lane : Nat) (s : State) :
    Answers (execCdrLockLoss lane s) fun t => t.rest ps = s.rest ps := by
  simp only [List.cons_subset, List.nil_subset, and_true] at hp
  unfold execCdrLockLoss
  exact answers_done_rest (by simp [hp])

theorem execBurstDetected_rest (hp : [.lanes, .eng, .mbx, .cps, .perf] ⊆ ps) (lane ucw frames : Nat) (s : State) :
    Answers (execBurstDetected lane ucw frames s) fun t => t.rest ps = s.rest ps := by
  simp only [List.cons_subset, List.nil_subset, and_true] at hp
  unfold execBurstDetected
  exact answers_done_rest (by simp [hp])

theorem execLaneTryWindowEnd_rest (hp : .lanes ∈ ps) (lane : Nat) (s : State) :
    Answers (execLaneTryWindowEnd lane s) fun t => t.rest ps = s.rest ps := by
  unfold execLaneTryWindowEnd
  exact answers_done_rest (by simp [hp])

theorem execDeskewDone_rest (hp : [.lanes, .grps] ⊆ ps) (g : Nat) (delays : List Nat) (s : State) :
    Answers (execDeskewDone g delays s) fun t => t.rest ps = s.rest ps := by
  simp only [List.cons_subset, List.nil_subset, and_true] at hp
  unfold execDeskewDone
  refine answers_done_rest (State.ifRuns_rest (fun t => ?_) s)
  split <;> simp [hp]

theorem execOsmcPdu_rest (hp : .grps ∈ ps) (g : Nat) (subtype : Byte) (rest : List Byte) (s : State) :
    Answers (execOsmcPdu g subtype rest s) fun t => t.rest ps = s.rest ps := by
  unfold execOsmcPdu
  exact answers_done_rest (by simp [hp])

theorem execOsmcTimeout_rest (hp : .grps ∈ ps) (g : Nat) (s : State) :
    Answers (execOsmcTimeout g s) fun t => t.rest ps = s.rest ps := by
  unfold execOsmcTimeout
  exact answers_done_rest (by simp [hp])

theorem execOsmcInfoTx_rest (hp : .grps ∈ ps) (g : Nat) (s : State) :
    Answers (execOsmcInfoTx g s) fun t => t.rest ps = s.rest ps := by
  unfold execOsmcInfoTx
  refine answers_done_rest ?_
  split <;> simp [hp]

/-! ### Timing -/

theorem execCandActivityLoss_rest (hp : .tim ∈ ps) (i : Nat) (s : State) :
    Answers (execCandActivityLoss i s) fun t => t.rest ps = s.rest ps := by
  unfold execCandActivityLoss
  exact answers_done_rest (by simp [hp])

theorem execCandWtrExpire_rest (hp : [.tim, .mbx] ⊆ ps) (i : Nat) (s : State) :
    Answers (execCandWtrExpire i s) fun t => t.rest ps = s.rest ps := by
  simp only [List.cons_subset, List.nil_subset, and_true] at hp
  unfold execCandWtrExpire
  exact answers_done_rest (by simp [hp])

theorem execQlTimeout_rest (hp : .tim ∈ ps) (i : Nat) (s : State) :
    Answers (execQlTimeout i s) fun t => t.rest ps = s.rest ps := by
  unfold execQlTimeout
  exact answers_done_rest (by simp [hp])

theorem execDisputeCompare_rest (hp : [.tim, .mbx] ⊆ ps) (i j : Nat) (offI offJ : Int) (s : State) :
    Answers (execDisputeCompare i j offI offJ s) fun t => t.rest ps = s.rest ps := by
  simp only [List.cons_subset, List.nil_subset, and_true] at hp
  unfold execDisputeCompare
  exact answers_done_rest (by simp [hp])

theorem execDisputeClear_rest (hp : [.tim, .mbx] ⊆ ps) (i : Nat) (s : State) :
    Answers (execDisputeClear i s) fun t => t.rest ps = s.rest ps := by
  simp only [List.cons_subset, List.nil_subset, and_true] at hp
  unfold execDisputeClear
  exact answers_done_rest (by simp [hp])

theorem execTimTransitionEnd_rest (hp : [.tim, .mbx] ⊆ ps) (s : State) :
    Answers (execTimTransitionEnd s) fun t => t.rest ps = s.rest ps := by
  simp only [List.cons_subset, List.nil_subset, and_true] at hp
  unfold execTimTransitionEnd
  exact answers_done_rest (by simp [hp])

theorem execTimLock_rest (hp : .tim ∈ ps) (s : State) :
    Answers (execTimLock s) fun t => t.rest ps = s.rest ps := by
  unfold execTimLock
  exact answers_done_rest (by simp [hp])

theorem execTimLockLoss_rest (hp : .tim ∈ ps) (phaseNs : Int) (s : State) :
    Answers (execTimLockLoss phaseNs s) fun t => t.rest ps = s.rest ps := by
  unfold execTimLockLoss
  exact answers_done_rest (by simp [hp])

theorem execHoReady_rest (hp : .tim ∈ ps) (estimatePpt : Int) (s : State) :
    Answers (execHoReady estimatePpt s) fun t => t.rest ps = s.rest ps := by
  unfold execHoReady
  exact answers_done_rest (by simp [hp])

theorem execHoldoverLimit_rest (hp : [.tim, .mbx] ⊆ ps) (s : State) :
    Answers (execHoldoverLimit s) fun t => t.rest ps = s.rest ps := by
  simp only [List.cons_subset, List.nil_subset, and_true] at hp
  unfold execHoldoverLimit
  exact answers_done_rest (by simp [hp])

theorem execTuPeriodicSwap_rest (hp : [.tim, .mbx, .cps] ⊆ ps) (s : State) :
    Answers (execTuPeriodicSwap s) fun t => t.rest ps = s.rest ps := by
  simp only [List.cons_subset, List.nil_subset, and_true] at hp
  unfold execTuPeriodicSwap
  exact answers_done_rest (by simp [hp])

/-! ### Units -/

theorem execTuEdgeMissing_rest (hp : [.glb, .tim, .mbx, .cps] ⊆ ps) (s : State) :
    Answers (execTuEdgeMissing s) fun t => t.rest ps = s.rest ps := by
  simp only [List.cons_subset, List.nil_subset, and_true] at hp
  unfold execTuEdgeMissing
  exact answers_done_rest (by simp [hp])

theorem execUnitReady_rest (hp : [.glb, .sch, .tim, .mbx, .cps] ⊆ ps) (pair unit : Nat) (s : State) :
    Answers (execUnitReady pair unit s) fun t => t.rest ps = s.rest ps := by
  simp only [List.cons_subset, List.nil_subset, and_true] at hp
  unfold execUnitReady
  refine answers_done_rest ?_
  split
  · rfl
  extract_lets s1 s2 s3 s4
  have h1 : s1.rest ps = s.rest ps := by simp [s1, hp]
  have h2 : s2.rest ps = s.rest ps := by simp [s2, h1, hp]
  have h3 : s3.rest ps = s.rest ps := by simp [s3, h2, hp]
  have h4 : s4.rest ps = s.rest ps := by simp only [s4]; split <;> simp [h1, hp]
  repeat' split
  all_goals simp [h2, h3, h4, hp]

theorem execResyncTimeout_rest (hp : [.mbx, .cps] ⊆ ps) (pair unit : Nat) (s : State) :
    Answers (execResyncTimeout pair unit s) fun t => t.rest ps = s.rest ps := by
  simp only [List.cons_subset, List.nil_subset, and_true] at hp
  unfold execResyncTimeout
  exact answers_done_rest (by simp [hp])

theorem execUnitWindowEnd_rest (hp : .cps ∈ ps) (pair unit : Nat) (s : State) :
    Answers (execUnitWindowEnd pair unit s) fun t => t.rest ps = s.rest ps := by
  unfold execUnitWindowEnd
  exact answers_done_rest (by simp [hp])

theorem execCpPeriodicSwap_rest (hp : [.sch, .mbx, .cps] ⊆ ps) (s : State) :
    Answers (execCpPeriodicSwap s) fun t => t.rest ps = s.rest ps := by
  simp only [List.cons_subset, List.nil_subset, and_true] at hp
  unfold execCpPeriodicSwap
  exact answers_done_rest (by simp [hp])

theorem execJournalRecord_rest (hp : [.mbx, .cps] ⊆ ps) (s : State) :
    Answers (execJournalRecord s) fun t => t.rest ps = s.rest ps := by
  simp only [List.cons_subset, List.nil_subset, and_true] at hp
  unfold execJournalRecord
  exact answers_done_rest (by simp [hp])

theorem execJtagCpHalt_rest (hp : [.rst, .glb, .sch, .mbx, .cps] ⊆ ps) (unit : Nat) (halt : Bool) (s : State) :
    Answers (execJtagCpHalt unit halt s) fun t => t.rest ps = s.rest ps := by
  simp only [List.cons_subset, List.nil_subset, and_true] at hp
  unfold execJtagCpHalt
  exact answers_done_rest (by simp [hp])

/-! ### Memory -/

theorem execPondPermanentFault_rest (hp : [.pnd, .mbx, .cps] ⊆ ps) (phys : Nat) (s : State) :
    Answers (execPondPermanentFault phys s) fun t => t.rest ps = s.rest ps := by
  simp only [List.cons_subset, List.nil_subset, and_true] at hp
  unfold execPondPermanentFault
  exact answers_done_rest (by simp [hp])

theorem execMarchStep_rest (hp : [.glb, .pnd, .mbx, .cps, .mem, .perf] ⊆ ps) (mismatch : List (Nat × Nat)) (s : State) :
    Answers (execMarchStep mismatch s) fun t => t.rest ps = s.rest ps := by
  simp only [List.cons_subset, List.nil_subset, and_true] at hp
  unfold execMarchStep
  refine answers_done_rest ?_
  split
  · rfl
  split
  · rfl
  extract_lets tested found s1 p s2 s3
  have h2 : s2.rest ps = s.rest ps := (State.rest_modPnd hp.2.1 (fun _ => _) s1).trans (by simp [s1, hp])
  have h3 : s3.rest ps = s.rest ps := by simp [s3, h2, hp]
  simp [h3, hp]

theorem execPondRepairMarchDone_rest (hp : [.glb, .pnd, .mbx, .cps, .mem] ⊆ ps) (phys : Nat) (first second : List Mismatch) (s : State) :
    Answers (execPondRepairMarchDone phys first second s) fun t => t.rest ps = s.rest ps := by
  simp only [List.cons_subset, List.nil_subset, and_true] at hp
  unfold execPondRepairMarchDone
  refine answers_done_rest ?_
  split <;> simp [hp]

theorem execDiagMarchDone_rest (found : List Mismatch) (s : State) :
    Answers (execDiagMarchDone found s) fun t => t.rest machine = s.rest machine := by
  unfold execDiagMarchDone
  refine answers_done_rest ?_
  split <;> simp

theorem execPondFlip_rest (hp : [.pnd, .perf, .pert] ⊆ ps) (s : State) :
    Answers (execPondFlip s) fun t => t.rest ps = s.rest ps := by
  simp only [List.cons_subset, List.nil_subset, and_true] at hp
  unfold execPondFlip
  exact answers_done_rest (by simp [hp])

/-! ### Tributaries -/

theorem execTribOpen_rest (hp : [.dp, .mbx] ⊆ ps) (tnum : Nat) (s : State) :
    Answers (execTribOpen tnum s) fun t => t.rest ps = s.rest ps := by
  simp only [List.cons_subset, List.nil_subset, and_true] at hp
  unfold execTribOpen
  exact answers_done_rest (by simp [hp])

theorem execDfcmovfDeclare_rest (hp : .dp ∈ ps) (tnum : Nat) (s : State) :
    Answers (execDfcmovfDeclare tnum s) fun t => t.rest ps = s.rest ps := by
  unfold execDfcmovfDeclare
  exact answers_done_rest (by simp [hp])

theorem execDfcmovfClear_rest (hp : .dp ∈ ps) (tnum : Nat) (s : State) :
    Answers (execDfcmovfClear tnum s) fun t => t.rest ps = s.rest ps := by
  unfold execDfcmovfClear
  exact answers_done_rest (by simp [hp])

theorem execResizeComplete_rest (hp : [.dp, .mbx] ⊆ ps) (ing eg cause : Nat) (s : State) :
    Answers (execResizeComplete ing eg cause s) fun t => t.rest ps = s.rest ps := by
  simp only [List.cons_subset, List.nil_subset, and_true] at hp
  unfold execResizeComplete
  exact answers_done_rest (by simp [hp])

/-! ### Conj -/

theorem execConjPinEdge_rest (hp : [.grps, .mbx] ⊆ ps) (pin : Nat) (rising : Bool) (s : State) :
    Answers (execConjPinEdge pin rising s) fun t => t.rest ps = s.rest ps := by
  simp only [List.cons_subset, List.nil_subset, and_true] at hp
  unfold execConjPinEdge
  refine answers_done_rest ?_
  split
  · rfl
  split
  · rfl
  split
  · rfl
  extract_lets idx
  split <;> simp [hp]

/-! ### Twin -/

theorem execStitchFrame_rest (hp : [.lanes, .twin, .mbx, .cps] ⊆ ps) (lane : Nat) (f : StitchRx) (s : State) :
    Answers (execStitchFrame lane f s) fun t => t.rest ps = s.rest ps := by
  simp only [List.cons_subset, List.nil_subset, and_true] at hp
  unfold execStitchFrame
  refine answers_done_rest ?_
  split
  · rfl
  extract_lets l broken s1 s2
  have h2 : s2.rest ps = s.rest ps := by simp only [s2]; split <;> simp [s1, hp]
  split
  · simp [hp]
  · split <;> simp [h2, hp]
  · rfl

theorem execTwinHbLoss_rest (hp : [.glb, .twin, .mbx] ⊆ ps) (s : State) :
    Answers (execTwinHbLoss s) fun t => t.rest ps = s.rest ps := by
  simp only [List.cons_subset, List.nil_subset, and_true] at hp
  unfold execTwinHbLoss
  refine answers_done_rest ?_
  split
  · rfl
  · split <;> simp [hp]

theorem execTwinActivate_rest (hp : [.glb, .twin, .mbx] ⊆ ps) (s : State) :
    Answers (execTwinActivate s) fun t => t.rest ps = s.rest ps := by
  simp only [List.cons_subset, List.nil_subset, and_true] at hp
  unfold execTwinActivate
  exact answers_done_rest (by simp [hp])

theorem execTwinStandbyTakeover_rest (hp : [.glb, .twin, .mbx] ⊆ ps) (s : State) :
    Answers (execTwinStandbyTakeover s) fun t => t.rest ps = s.rest ps := by
  simp only [List.cons_subset, List.nil_subset, and_true] at hp
  unfold execTwinStandbyTakeover
  exact answers_done_rest (by simp [hp])

theorem execTwinHandover_rest (hp : [.glb, .twin, .mbx] ⊆ ps) (cause : Nat) (s : State) :
    Answers (execTwinHandover cause s) fun t => t.rest ps = s.rest ps := by
  simp only [List.cons_subset, List.nil_subset, and_true] at hp
  unfold execTwinHandover
  refine answers_done_rest ?_
  repeat' split
  all_goals simp [hp]

theorem execQuadrantFailure_rest (hp : [.glb, .lanes, .twin, .mbx, .cps] ⊆ ps) (q : Nat) (s : State) :
    Answers (execQuadrantFailure q s) fun t => t.rest ps = s.rest ps := by
  simp only [List.cons_subset, List.nil_subset, and_true] at hp
  unfold execQuadrantFailure
  exact answers_done_rest (by simp [hp])

theorem calm_execTwinJoinAligned (partnerCfn : Cfn) (s : State) : Answers (execTwinJoinAligned partnerCfn s) fun t => Calm s t := by
  unfold execTwinJoinAligned
  refine answers_done_calm (calm_ite (Calm.refl s) ?_)
  exact (calm_takeCfn partnerCfn s).rest (by simp)

theorem execMirrorRecord_rest (hp : [.key, .twin] ⊆ ps) (word : W64) (s : State) :
    Answers (execMirrorRecord word s) fun t => t.rest ps = s.rest ps := by
  simp only [List.cons_subset, List.nil_subset, and_true] at hp
  unfold execMirrorRecord
  refine answers_done_rest ?_
  split
  · rfl
  · split <;> simp [hp]

/-! ### Engines -/

theorem execEngineFaultEvent_rest (hp : [.eng, .mbx, .cps, .mem, .perf] ⊆ ps) (e cause : Nat) (s : State) :
    Answers (execEngineFaultEvent e cause s) fun t => t.rest ps = s.rest ps := by
  simp only [List.cons_subset, List.nil_subset, and_true] at hp
  unfold execEngineFaultEvent
  exact answers_done_rest (by simp [hp])

theorem execEngineRestart_rest (hp : .eng ∈ ps) (e : Nat) (s : State) :
    Answers (execEngineRestart e s) fun t => t.rest ps = s.rest ps := by
  unfold execEngineRestart
  exact answers_done_rest (by simp [hp])

theorem execEngineSelfTestDone_rest (hp : [.eng, .mbx, .cps] ⊆ ps) (e : Nat) (pass : Bool) (s : State) :
    Answers (execEngineSelfTestDone e pass s) fun t => t.rest ps = s.rest ps := by
  simp only [List.cons_subset, List.nil_subset, and_true] at hp
  unfold execEngineSelfTestDone
  exact answers_done_rest (by simp [hp])

theorem execEngineWindowEnd_rest (hp : .eng ∈ ps) (e : Nat) (s : State) :
    Answers (execEngineWindowEnd e s) fun t => t.rest ps = s.rest ps := by
  unfold execEngineWindowEnd
  exact answers_done_rest (by simp [hp])

theorem execHarvestStart_rest (hp : [.glb, .eng] ⊆ ps) (s : State) :
    Answers (execHarvestStart s) fun t => t.rest ps = s.rest ps := by
  simp only [List.cons_subset, List.nil_subset, and_true] at hp
  unfold execHarvestStart
  exact answers_done_rest (by simp [hp])

theorem execHarvestDone_rest (hp : [.glb, .eng] ⊆ ps) (s : State) :
    Answers (execHarvestDone s) fun t => t.rest ps = s.rest ps := by
  simp only [List.cons_subset, List.nil_subset, and_true] at hp
  unfold execHarvestDone
  exact answers_done_rest (by simp [hp])

theorem execHarvestTruncate_rest (hp : [.glb, .eng, .perf] ⊆ ps) (s : State) :
    Answers (execHarvestTruncate s) fun t => t.rest ps = s.rest ps := by
  simp only [List.cons_subset, List.nil_subset, and_true] at hp
  unfold execHarvestTruncate
  exact answers_done_rest (by simp [hp])

/-! ### Protection -/

theorem execHoldOffExpire_rest (hp : .prot ∈ ps) (pg : Nat) (protect sd : Bool) (s : State) :
    Answers (execHoldOffExpire pg protect sd s) fun t => t.rest ps = s.rest ps := by
  unfold execHoldOffExpire
  refine answers_done_rest ?_
  split <;> simp [hp]

theorem execWtrExpire_rest (hp : .prot ∈ ps) (pg : Nat) (s : State) :
    Answers (execWtrExpire pg s) fun t => t.rest ps = s.rest ps := by
  unfold execWtrExpire
  refine answers_done_rest ?_
  split <;> simp [hp]

theorem execApsAccept_rest (hp : .prot ∈ ps) (pg : Nat) (v : W32) (s : State) :
    Answers (execApsAccept pg v s) fun t => t.rest ps = s.rest ps := by
  unfold execApsAccept
  exact answers_done_rest (by simp [hp])

theorem execFopNrTimeout_rest (hp : .prot ∈ ps) (pg : Nat) (s : State) :
    Answers (execFopNrTimeout pg s) fun t => t.rest ps = s.rest ps := by
  unfold execFopNrTimeout
  exact answers_done_rest (by simp [hp])

/-! ### Cipher -/

theorem execEncryptBlockStart_rest (hp : [.key, .mbx] ⊆ ps) (tnum : Nat) (s : State) :
    Answers (execEncryptBlockStart tnum s) fun t => t.rest ps = s.rest ps := by
  simp only [List.cons_subset, List.nil_subset, and_true] at hp
  unfold execEncryptBlockStart
  refine answers_done_rest ?_
  split
  · rfl
  split
  · rfl
  extract_lets r s1 s2
  have h1 : s1.rest ps = s.rest ps := by simp only [s1]; split <;> simp [hp]
  have h2 : s2.rest ps = s.rest ps := by simp only [s2]; split <;> simp [h1, hp]
  split <;> simp [h2, hp]

theorem execHeaderReceived_rest (hp : [.key, .mbx] ⊆ ps) (tnum : Nat) (h : CipherHeader) (s : State) :
    Answers (execHeaderReceived tnum h s) fun t => t.rest ps = s.rest ps := by
  simp only [List.cons_subset, List.nil_subset, and_true] at hp
  unfold execHeaderReceived
  refine answers_done_rest ?_
  split
  · rfl
  extract_lets r i good half bump s1 s2 s3
  have hb (f : BindRun → BindRun) (t : State) : (bump f t).rest ps = t.rest ps := by simp [bump, hp]
  have h1 : s1.rest ps = s.rest ps := hb _ s
  have h2 : s2.rest ps = s.rest ps := hb _ s
  have h3 : s3.rest ps = s.rest ps := by simp only [s3]; split <;> simp [h2, hb]
  split
  · rfl
  split
  · repeat' split
    all_goals simp [h1, h2, h3, hb, hp]
  · split <;> simp [hb, hp]

theorem execTagCheck_rest (hp : [.dp, .key, .mbx, .perf] ⊆ ps) (tnum : Nat) (tag : BitVec 128) (missing : Bool) (s : State) :
    Answers (execTagCheck tnum tag missing s) fun t => t.rest ps = s.rest ps := by
  simp only [List.cons_subset, List.nil_subset, and_true] at hp
  unfold execTagCheck
  refine answers_done_rest ?_
  split <;> simp [hp]

theorem execUntrustClear_rest (hp : .dp ∈ ps) (tnum : Nat) (s : State) :
    Answers (execUntrustClear tnum s) fun t => t.rest ps = s.rest ps := by
  unfold execUntrustClear
  exact answers_done_rest (by simp [hp])

theorem execPipeMismatch_rest (hp : [.key, .mbx, .cps, .perf] ⊆ ps) (cluster side pipe consecutive : Nat) (s : State) :
    Answers (execPipeMismatch cluster side pipe consecutive s) fun t => t.rest ps = s.rest ps := by
  simp only [List.cons_subset, List.nil_subset, and_true] at hp
  unfold execPipeMismatch
  refine answers_done_rest ?_
  split
  · rfl
  · dsimp only
    split <;> simp [hp]

theorem execPipeHandover_rest (hp : [.key, .mbx, .cps] ⊆ ps) (cluster side tnum : Nat) (s : State) :
    Answers (execPipeHandover cluster side tnum s) fun t => t.rest ps = s.rest ps := by
  simp only [List.cons_subset, List.nil_subset, and_true] at hp
  unfold execPipeHandover
  refine answers_done_rest ?_
  generalize (if side = 0 then s.ingCtx tnum else s.encCtx tnum) = c
  generalize (if side = 0 then s.presentBank else s.bank2) = bank
  split
  · rfl
  split
  · dsimp only
    split <;> simp [hp]
  split
  · dsimp only
    split <;> simp [hp]
  · rfl

theorem execPipeSelfTestDone_rest (hp : [.key, .mbx, .cps] ⊆ ps) (cluster side pipe : Nat) (pass : Bool) (s : State) :
    Answers (execPipeSelfTestDone cluster side pipe pass s) fun t => t.rest ps = s.rest ps := by
  simp only [List.cons_subset, List.nil_subset, and_true] at hp
  unfold execPipeSelfTestDone
  exact answers_done_rest (by simp [hp])

theorem execSpareKat_rest (hp : [.key, .mbx, .cps] ⊆ ps) (cluster side : Nat) (pass : Bool) (s : State) :
    Answers (execSpareKat cluster side pass s) fun t => t.rest ps = s.rest ps := by
  simp only [List.cons_subset, List.nil_subset, and_true] at hp
  unfold execSpareKat
  exact answers_done_rest (by simp [hp])

theorem execDeskLoad_rest (hp : [.key, .mbx, .drawn] ⊆ ps) (slot : Nat) (e : FetchErrors) (s : State) :
    Answers (execDeskLoad slot e s) fun t => t.rest ps = s.rest ps := by
  simp only [List.cons_subset, List.nil_subset, and_true] at hp
  unfold execDeskLoad
  exact answers_done_rest (by simp [hp])

theorem execDeskActivate_rest (hp : [.key, .twin] ⊆ ps) (slot : Nat) (s : State) :
    Answers (execDeskActivate slot s) fun t => t.rest ps = s.rest ps := by
  simp only [List.cons_subset, List.nil_subset, and_true] at hp
  unfold execDeskActivate
  exact answers_done_rest (by simp [hp])

theorem execDeskEraseNext_rest (hp : .key ∈ ps) (slot : Nat) (s : State) :
    Answers (execDeskEraseNext slot s) fun t => t.rest ps = s.rest ps := by
  unfold execDeskEraseNext
  exact answers_done_rest (by simp [hp])

theorem execDeskEraseSlot_rest (hp : .key ∈ ps) (slot : Nat) (s : State) :
    Answers (execDeskEraseSlot slot s) fun t => t.rest ps = s.rest ps := by
  unfold execDeskEraseSlot
  exact answers_done_rest (by simp [hp])

theorem execKeyDeskComplete_rest (hp : .key ∈ ps) (s : State) :
    Answers (execKeyDeskComplete s) fun t => t.rest ps = s.rest ps := by
  unfold execKeyDeskComplete
  refine answers_done_rest ?_
  split <;> simp [hp]

theorem execKeyDeskClaim_rest (hp : .key ∈ ps) (s : State) :
    Answers (execKeyDeskClaim s) fun t => t.rest ps = s.rest ps := by
  unfold execKeyDeskClaim
  exact answers_done_rest (by simp [hp])

theorem execKeyDeskRelease_rest (hp : .key ∈ ps) (s : State) :
    Answers (execKeyDeskRelease s) fun t => t.rest ps = s.rest ps := by
  unfold execKeyDeskRelease
  exact answers_done_rest (by simp [hp])

theorem execTamperAlarm_rest (src : Byte) (s : State) :
    Answers (execTamperAlarm src s) fun t => t.rest machine = s.rest machine := by
  unfold execTamperAlarm
  exact answers_done_rest (by simp)

theorem execWipeComplete_rest (hp : [.key, .mbx] ⊆ ps) (firstDirty secondDirty : Bool) (s : State) :
    Answers (execWipeComplete firstDirty secondDirty s) fun t => t.rest ps = s.rest ps := by
  simp only [List.cons_subset, List.nil_subset, and_true] at hp
  unfold execWipeComplete
  exact answers_done_rest (by simp [hp])

theorem execTamperConditionEnd_rest (hp : [.key, .perf] ⊆ ps) (e : TamperEnd) (s : State) :
    Answers (execTamperConditionEnd e s) fun t => t.rest ps = s.rest ps := by
  simp only [List.cons_subset, List.nil_subset, and_true] at hp
  unfold execTamperConditionEnd
  exact answers_done_rest (by simp [hp])

/-! ### TakeEffect -/

theorem execCommitDecision_rest (hp : [.sch, .twin, .mbx, .perf, .pert] ⊆ ps) (s : State) :
    Answers (execCommitDecision s) fun t => t.rest ps = s.rest ps := by
  simp only [List.cons_subset, List.nil_subset, and_true] at hp
  unfold execCommitDecision
  refine answers_done_rest ?_
  split <;> simp [hp]

theorem execDomainReadiness_rest (hp : [.sch, .twin] ⊆ ps) (s : State) :
    Answers (execDomainReadiness s) fun t => t.rest ps = s.rest ps := by
  simp only [List.cons_subset, List.nil_subset, and_true] at hp
  unfold execDomainReadiness
  refine answers_done_rest ?_
  split <;> simp [hp]

theorem execDomainVeto_rest (hp : [.sch, .twin] ⊆ ps) (s : State) :
    Answers (execDomainVeto s) fun t => t.rest ps = s.rest ps := by
  simp only [List.cons_subset, List.nil_subset, and_true] at hp
  unfold execDomainVeto
  refine answers_done_rest ?_
  split <;> simp [hp]

theorem execDomainIdCheck_rest (hp : [.sch, .twin, .mbx] ⊆ ps) (s : State) :
    Answers (execDomainIdCheck s) fun t => t.rest ps = s.rest ps := by
  simp only [List.cons_subset, List.nil_subset, and_true] at hp
  unfold execDomainIdCheck
  refine answers_done_rest ?_
  repeat' split
  all_goals simp [hp]

theorem execStitchToken_rest (hp : [.lanes, .grps, .sch, .twin, .drawn] ⊆ ps) (lane : Nat) (tok : BitVec 168) (s : State) :
    Answers (execStitchToken lane tok s) fun t => t.rest ps = s.rest ps := by
  simp only [List.cons_subset, List.nil_subset, and_true] at hp
  unfold execStitchToken
  refine answers_done_rest ?_
  repeat' split
  all_goals simp [hp]

/-! ### Power -/

theorem execTempSample_rest (readings : List Int) (s : State) :
    Answers (execTempSample readings s) fun t => t.rest machine = s.rest machine := by
  unfold execTempSample
  exact answers_done_rest (by simp)

theorem execAvsTick_rest (hp : [.mbx, .pwr] ⊆ ps) (counts : List Nat) (s : State) :
    Answers (execAvsTick counts s) fun t => t.rest ps = s.rest ps := by
  simp only [List.cons_subset, List.nil_subset, and_true] at hp
  unfold execAvsTick
  refine answers_done_rest ?_
  split
  · rfl
  extract_lets slow target run step s1
  have h1 : s1.rest ps = s.rest ps := by simp [s1, hp]
  generalize step = st
  cases st with
  | none => exact h1
  | some up => dsimp only; split <;> simp [h1, hp]

theorem execAvsPoll_rest (hp : [.mbx, .pwr] ⊆ ps) (readVoutMv : Nat) (statusWord : W16) (s : State) :
    Answers (execAvsPoll readVoutMv statusWord s) fun t => t.rest ps = s.rest ps := by
  simp only [List.cons_subset, List.nil_subset, and_true] at hp
  unfold execAvsPoll
  exact answers_done_rest (by simp [hp])

theorem execPmbusAlert_rest (hp : [.mbx, .pwr] ⊆ ps) (statusWord : W16) (s : State) :
    Answers (execPmbusAlert statusWord s) fun t => t.rest ps = s.rest ps := by
  simp only [List.cons_subset, List.nil_subset, and_true] at hp
  unfold execPmbusAlert
  exact answers_done_rest (by simp [hp])

theorem execPmbusRetry_rest (hp : [.mbx, .pwr] ⊆ ps) (success : Bool) (s : State) :
    Answers (execPmbusRetry success s) fun t => t.rest ps = s.rest ps := by
  simp only [List.cons_subset, List.nil_subset, and_true] at hp
  unfold execPmbusRetry
  refine answers_done_rest ?_
  split
  · extract_lets s1
    have h1 : s1.rest ps = s.rest ps := by simp [s1, hp]
    split
    · split <;> simp [h1, hp]
    · exact h1
  · split
    · rfl
    · split <;> simp [hp]

theorem execIslandGate_rest (bit : Nat) (s : State) :
    Answers (execIslandGate bit s) fun t => t.rest machine = s.rest machine := by
  unfold execIslandGate
  exact answers_done_rest (by simp)

/-! ### Perf -/

theorem execPerfFreeze_rest (hp : .perf ∈ ps) (freeze : Bool) (s : State) :
    Answers (execPerfFreeze freeze s) fun t => t.rest ps = s.rest ps := by
  unfold execPerfFreeze
  exact answers_done_rest (by simp [hp])

theorem execPerfSnapshot_rest (hp : .perf ∈ ps) (s : State) :
    Answers (execPerfSnapshot s) fun t => t.rest ps = s.rest ps := by
  unfold execPerfSnapshot
  exact answers_done_rest (by simp [hp])

theorem execPerfClear_rest (hp : .perf ∈ ps) (s : State) :
    Answers (execPerfClear s) fun t => t.rest ps = s.rest ps := by
  unfold execPerfClear
  exact answers_done_rest (by simp [hp])

theorem execPerfSnapshotDone_rest (hp : .perf ∈ ps) (s : State) :
    Answers (execPerfSnapshotDone s) fun t => t.rest ps = s.rest ps := by
  unfold execPerfSnapshotDone
  refine answers_done_rest ?_
  split <;> simp [hp]

theorem execTagRecord_rest (hp : .perf ∈ ps) (t : TagEvent) (s : State) :
    Answers (execTagRecord t s) fun t => t.rest ps = s.rest ps := by
  unfold execTagRecord
  exact answers_done_rest (by simp [hp])

theorem execTagBufferClear_rest (hp : .perf ∈ ps) (s : State) :
    Answers (execTagBufferClear s) fun t => t.rest ps = s.rest ps := by
  unfold execTagBufferClear
  exact answers_done_rest (by simp [hp])

theorem execElasticBufferRecentring_rest (hp : .perf ∈ ps) (cluster : Nat) (s : State) :
    Answers (execElasticBufferRecentring cluster s) fun t => t.rest ps = s.rest ps := by
  unfold execElasticBufferRecentring
  exact answers_done_rest (by simp [hp])

theorem execPertCountdownEnd_rest (hp : .pert ∈ ps) (control : Nat) (s : State) :
    Answers (execPertCountdownEnd control s) fun t => t.rest ps = s.rest ps := by
  unfold execPertCountdownEnd
  exact answers_done_rest (by simp [hp])

/-! ### Device -/

theorem execJtagDebugSet_rest (level : Nat) (s : State) :
    Answers (execJtagDebugSet level s) fun t => t.rest machine = s.rest machine := by
  unfold execJtagDebugSet
  exact answers_done_rest (by simp)

theorem execJtagScan_rest (hp : .rst ∈ ps) (s : State) :
    Answers (execJtagScan s) fun t => t.rest ps = s.rest ps := by
  unfold execJtagScan
  exact answers_done_rest (by simp [hp])

theorem execJtagFuseProgram_rest (hp : .rst ∈ ps) (variant : BitVec 4) (uniqueId : W64) (kekSeed trim repairs : List Byte) (s : State) :
    Answers (execJtagFuseProgram variant uniqueId kekSeed trim repairs s) fun t => t.rest ps = s.rest ps := by
  unfold execJtagFuseProgram
  exact answers_done_rest (by simp [hp])

/-! ### Functions -/

theorem execFunctionResetRequest_rest (hp : [.rst, .glb, .tim, .mbx, .cps, .bus, .perf, .drawn] ⊆ ps) (v : W32) (txns : List WeirTxn) (s : State) :
    Answers (execFunctionResetRequest v txns s) fun t => t.rest ps = s.rest ps := by
  simp only [List.cons_subset, List.nil_subset, and_true] at hp
  unfold execFunctionResetRequest
  exact answers_done_rest (by simp [hp])

theorem execPendingResetApply_rest (hp : [.rst, .glb, .tim, .mbx, .cps, .bus, .perf, .drawn] ⊆ ps) (f : Nat) (txns : List WeirTxn) (s : State) :
    Answers (execPendingResetApply f txns s) fun t => t.rest ps = s.rest ps := by
  simp only [List.cons_subset, List.nil_subset, and_true] at hp
  unfold execPendingResetApply
  exact answers_done_rest (by simp [hp])

theorem execPcieFlr_rest (hp : [.rst, .glb, .tim, .mbx, .cps, .bus, .perf, .drawn] ⊆ ps) (pf : Nat) (txns : List WeirTxn) (s : State) :
    Answers (execPcieFlr pf txns s) fun t => t.rest ps = s.rest ps := by
  simp only [List.cons_subset, List.nil_subset, and_true] at hp
  unfold execPcieFlr
  exact answers_done_rest (by simp [hp])

theorem execPerstNAssert_rest (hp : [.rst, .glb, .tim, .mbx, .cps, .bus, .perf, .drawn] ⊆ ps) (txns : List WeirTxn) (s : State) :
    Answers (execPerstNAssert txns s) fun t => t.rest ps = s.rest ps := by
  simp only [List.cons_subset, List.nil_subset, and_true] at hp
  unfold execPerstNAssert
  exact answers_done_rest (by simp [hp])

theorem execFunctionResetRelease_rest (f : Nat) (s : State) :
    Answers (execFunctionResetRelease f s) fun t => t.rest machine = s.rest machine := by
  unfold execFunctionResetRelease
  exact answers_done_rest (by simp)

theorem execMailboxReopen_rest (hp : .mbx ∈ ps) (mb : Nat) (s : State) :
    Answers (execMailboxReopen mb s) fun t => t.rest ps = s.rest ps := by
  unfold execMailboxReopen
  exact answers_done_rest (by simp [hp])

theorem execBmeLost_rest (hp : [.glb, .sch, .eng, .mbx, .perf, .drawn] ⊆ ps) (s : State) :
    Answers (execBmeLost s) fun t => t.rest ps = s.rest ps := by
  simp only [List.cons_subset, List.nil_subset, and_true] at hp
  unfold execBmeLost
  exact answers_done_rest (by simp [hp])

/-! ### Frame -/

theorem execSecondBoundary_rest (hp : [.glb, .sch, .dp, .eng, .tim, .twin, .mbx] ⊆ ps) (meas : List CandMeas) (s : State) :
    Answers (execSecondBoundary meas s) fun t => t.rest ps = s.rest ps := by
  simp only [List.cons_subset, List.nil_subset, and_true] at hp
  unfold execSecondBoundary
  exact answers_done_rest (by simp [hp])

theorem execPpsEdge_rest (hp : .glb ∈ ps) (err : Int) (s : State) :
    Answers (execPpsEdge err s) fun t => t.rest ps = s.rest ps := by
  unfold execPpsEdge
  exact answers_done_rest (by simp [hp])

theorem execPpsLoss_rest (hp : .glb ∈ ps) (s : State) :
    Answers (execPpsLoss s) fun t => t.rest ps = s.rest ps := by
  unfold execPpsLoss
  exact answers_done_rest (by simp [hp])

/-! ### Maint -/

theorem execPondMaintRead_rest (hp : [.glb, .pnd, .mem, .perf, .drawn] ⊆ ps) (phys : Nat) (v : W32) (cycle : Nat) (s : State) :
    Answers (execPondMaintRead phys v cycle s) fun t => t.rest ps = s.rest ps := by
  simp only [List.cons_subset, List.nil_subset, and_true] at hp
  unfold execPondMaintRead
  exact answers_done_rest (by simp [hp])

theorem execPondMaintWrite_rest (hp : [.glb, .pnd, .mem, .perf, .drawn] ⊆ ps) (phys : Nat) (v : W32) (cycle : Nat) (s : State) :
    Answers (execPondMaintWrite phys v cycle s) fun t => t.rest ps = s.rest ps := by
  simp only [List.cons_subset, List.nil_subset, and_true] at hp
  unfold execPondMaintWrite
  exact answers_done_rest (by simp [hp])

/-! ### Registers -/

theorem execCoherentRead_rest (hp : [.glb, .sch, .pnd, .mbx, .bus, .perf, .drawn] ⊆ ps) (m : BusMaster) (addr : Nat) (s : State) :
    Answers (execCoherentRead m addr s) fun t => t.rest ps = s.rest ps := by
  simp only [List.cons_subset, List.nil_subset, and_true] at hp
  unfold execCoherentRead
  exact answers_done_rest (by simp [hp])

theorem execClearingRead_rest (hp : [.glb, .sch, .pnd, .mbx, .bus, .perf, .drawn] ⊆ ps) (m : BusMaster) (addr : Nat) (s : State) :
    Answers (execClearingRead m addr s) fun t => t.rest ps = s.rest ps := by
  simp only [List.cons_subset, List.nil_subset, and_true] at hp
  unfold execClearingRead
  exact answers_done_rest (by simp [hp])

theorem execAliasRead_rest (hp : [.glb, .sch, .pnd, .mbx, .bus, .perf, .drawn] ⊆ ps) (addr : Nat) (s : State) :
    Answers (execAliasRead addr s) fun t => t.rest ps = s.rest ps := by
  simp only [List.cons_subset, List.nil_subset, and_true] at hp
  unfold execAliasRead
  exact answers_done_rest (by simp [hp])

theorem execMsixUnmask_rest (hp : .glb ∈ ps) (s : State) :
    Answers (execMsixUnmask s) fun t => t.rest ps = s.rest ps := by
  unfold execMsixUnmask
  exact answers_done_rest (by simp [hp])

theorem execBusDecodeError_rest (hp : .bus ∈ ps) (m : BusMaster) (write : Bool) (target : Nat) (addr : W64) (s : State) :
    Answers (execBusDecodeError m write target addr s) fun t => t.rest ps = s.rest ps := by
  unfold execBusDecodeError
  exact answers_done_rest (by simp [hp])

theorem execRemapWrite_rest (hp : [.glb, .bus] ⊆ ps) (m : BusMaster) (v : W32) (s : State) :
    Answers (execRemapWrite m v s) fun t => t.rest ps = s.rest ps := by
  simp only [List.cons_subset, List.nil_subset, and_true] at hp
  unfold execRemapWrite
  exact answers_done_rest (by simp [hp])

end Sys2Proof.Machine
end

section
/-!
PROOFS. Every command answers, keeps the queue and the invariants of the banks and of the power state.
-/

namespace Sys2Proof.Machine

/-! ### Resets, the start and the modes -/

theorem calm_clearAll (cold : Bool) (src : Nat) (s : State) : Calm s (s.clearAll cold src) := by
  refine ⟨rfl, fun _ => bankRoles_empty rfl, fun _ => ?_⟩
  show ModePower { s with glb := s.glb.stayDecommissioned (s.glb.reset (cold || (s.rst.phase = .inReset && s.rst.coldKind))) }
  unfold ModePower Glb.stayDecommissioned
  split <;> rfl

theorem calm_execPowerOn (s : State) : Answers (execPowerOn s) fun t => Calm s t :=
  answers_done_calm ((calm_clearAll true 0 s).rest (by simp))

theorem calm_execResetNAssert (s : State) : Answers (execResetNAssert s) fun t => Calm s t :=
  answers_done_calm (calm_ite (calm_assertReset true 1 s) (Calm.refl s))

theorem calm_execPowerDown (s : State) : Answers (execPowerDown s) fun t => Calm s t :=
  answers_done_calm ⟨rfl, fun _ => bankRoles_empty rfl, fun _ => rfl⟩

theorem calm_execDevResetStart (s : State) : Answers (execDevResetStart s) fun t => Calm s t := by
  unfold execDevResetStart
  refine answers_done_calm ?_
  split
  · exact (calm_assertReset false 9 s).rest (by simp)
  · exact calm_assertReset true 2 s
  · exact calm_assertReset false 4 s
  · exact Calm.refl s

theorem calm_execCritParityError (unit : Nat) (word : BitVec 28) (s : State) : Answers (execCritParityError unit word s) fun t => Calm s t := by
  unfold execCritParityError
  extract_lets s1
  have h1 : Calm s s1 := calm_of_machine (by simp [s1])
  refine answers_done_calm (h1.trans ?_)
  refine calm_ite ?_ (calm_ite (calm_of_machine (by simp)) (calm_ite (calm_faultReset false 6 s1) (Calm.refl s1)))
  exact (calm_of_machine (t := s1.modRst fun r => { r with shadowOk := false }) (by simp)).trans (calm_faultReset true 3 _)

theorem calm_execResetRelease (s : State) : Answers (execResetRelease s) fun t => Calm s t := by
  unfold execResetRelease
  extract_lets s1
  have h1 : Calm s s1 := calm_ite (Calm.refl s) (calm_enterBringUp s)
  exact answers_done_calm (calm_ite (Calm.refl s) (calm_ite (h1.rest (by simp)) (calm_afterFuses s)))

theorem calm_execFuseLoadDone (s : State) : Answers (execFuseLoadDone s) fun t => Calm s t := by
  have take (f : Rst → Rst) : Calm s (s.modRst f).afterFuses := (calm_of_machine (by simp)).trans (calm_afterFuses _)
  unfold execFuseLoadDone
  exact answers_done_calm (calm_ite (Calm.refl s) (calm_ite (take _) (calm_ite (take _) (calm_ite (take _)
    (calm_ite (calm_enterDecommission (restoreFrom_pending _)) (calm_enterShallows (restoreFrom_pending _)))))))

theorem calm_execPllLockTimeout (island : Nat) (s : State) : Answers (execPllLockTimeout island s) fun t => Calm s t :=
  answers_done_calm (calm_ite (calm_startFail 6 s) (Calm.refl s))

theorem calm_execBootTimeout (s : State) : Answers (execBootTimeout s) fun t => Calm s t :=
  answers_done_calm (calm_ite (calm_startFail 1 s) (Calm.refl s))

theorem calm_execFlashBoot (ucodeOk : Bool) (s : State) : Answers (execFlashBoot ucodeOk s) fun t => Calm s t := by
  unfold execFlashBoot
  refine answers_done_calm (calm_ite (Calm.refl s) ?_)
  split
  · exact calm_startFail 2 s
  · exact calm_ite (calm_startFail 5 s) (calm_of_machine (by simp))

theorem calm_execCoreRelease (ppsEdge : Bool) (s : State) : Answers (execCoreRelease ppsEdge s) fun t => Calm s t := by
  unfold execCoreRelease
  refine answers_done_calm ?_
  split
  · exact calm_releaseCore false false s
  · exact calm_ite (calm_releaseCore true false s) (Calm.refl s)
  · exact Calm.refl s

theorem calm_execPpsAlignTimeout (s : State) : Answers (execPpsAlignTimeout s) fun t => Calm s t :=
  answers_done_calm (calm_ite (calm_releaseCore false true s) (Calm.refl s))

theorem calm_execBringUpMarchDone (first : List Mismatch) (e : MarchEnd) (s : State) :
    Answers (execBringUpMarchDone first e s) fun t => Calm s t := by
  unfold execBringUpMarchDone
  extract_lets tested first1 second s1 mems r lost spares homes s2 s3
  have hr : r.1.rest machine = s.rest machine := (State.rest_foldl_fst (fun p m => by simp) mems (s1, [])).trans (by simp [s1])
  have h2 : s2.rest machine = s.rest machine := by simp [s2, hr]
  have h3 : s3.rest machine = s.rest machine := by simp [s3, h2]
  refine answers_done_calm (calm_ite (Calm.refl s) (calm_ite ?_ (calm_of_machine (by simp [h3]))))
  exact (calm_of_machine hr).trans (calm_startFail 3 r.1)

theorem calm_execHeartbeatLoss (pair unit : Nat) (p r : Bool) (s : State) : Answers (execHeartbeatLoss pair unit p r s) fun t => Calm s t :=
  answers_done_calm (calm_vote pair unit _ _ s)

theorem calm_execCpBankUncorrectableError (unit : Nat) (s : State) : Answers (execCpBankUncorrectableError unit s) fun t => Calm s t :=
  answers_done_calm (calm_ite (Calm.refl s) ((calm_of_machine (t := s.modMemRun unit (MemRun.note false)) (by simp)).trans (calm_cpBankError unit _)))

theorem calm_execTwinJoinDone (s : State) : Answers (execTwinJoinDone s) fun t => Calm s t := by
  unfold execTwinJoinDone
  extract_lets t role s1 s2
  have h2 : Calm s s2 := calm_of_machine (by simp only [s2]; split <;> simp [s1])
  exact answers_done_calm (calm_ite (Calm.refl s) (calm_ite h2 (calm_ite (h2.rest (by simp)) (h2.trans (calm_setMode _ _ _)))))

/-! ### Boundary F -/

/-- A commit rotates the roles (R136). -/
theorem calm_commit (f : Sch → Sch) (s : State) (h1 : (f s.sch).present = s.sch.future) (h2 : (f s.sch).past = s.sch.present)
    (h3 : (f s.sch).future = s.sch.past) : Calm s (s.modSch f) := by
  refine ⟨rfl, fun h => ?_, id⟩
  have := commit_keeps_roles h
  unfold BankRoles State.modSch at *
  rw [h1, h2, h3]
  exact this

/-- A rollback exchanges Present and Past (R156). -/
theorem calm_rollback (s : State) : Calm s (s.modSch fun c => { c with present := c.past, past := c.present }) := by
  refine ⟨rfl, fun ⟨h1, h2, h3, h4, h5, h6⟩ => ?_, id⟩
  exact ⟨h2, h1, h3, h4.symm, h6, h5⟩

theorem calm_execCommitTakeEffect (s : State) : Answers (execCommitTakeEffect s) fun t => Calm s t := by
  unfold execCommitTakeEffect
  refine answers_done_calm ?_
  split
  · exact Calm.refl s
  · extract_lets old s1
    have h1 : Calm s s1 := by
      refine calm_ite (calm_of_machine (by simp)) (Calm.trans (calm_commit _ s ?_ ?_ ?_) (calm_of_machine (State.crossCommit_rest (by simp) old _)))
      all_goals rfl
    refine calm_ite (Calm.refl s) (Calm.trans (Calm.trans ?_ (calm_startService _)) (calm_of_machine (State.conjDecideAll_rest (by simp) _)))
    exact h1.rest (by simp)

theorem calm_execRollbackTakeEffect (s : State) : Answers (execRollbackTakeEffect s) fun t => Calm s t := by
  unfold execRollbackTakeEffect
  refine answers_done_calm ?_
  split
  · exact Calm.refl s
  · extract_lets old s1
    have h1 : Calm s s1 := (calm_rollback s).rest (by simp [s1])
    exact calm_ite (Calm.refl s) (h1.rest (by simp))

/-! ### Mailbox commands -/

theorem calm_mailboxRow (code : Nat) (f : Form) {body : Run} (h : RunKeeps Calm body) (r : MbReq) (s : State) :
    Answers (mailboxRow code f body r s) fun t => Calm s t :=
  (closed_calm machine).mailboxRow (by simp) (by simp) (by simp) code f h r s

theorem calm_request (code : Nat) {run : Run} (h : RunKeeps Calm run) (r : MbReq) (s : State) : Calm s (s.request code run r) :=
  (closed_calm machine).request (by simp) (by simp) (by simp) code h r s

theorem calm_execDevReset (r : MbReq) (txns : List WeirTxn) (s : State) : Answers (execDevReset r txns s) fun t => Calm s t :=
  answers_done_calm (calm_request _ ((closed_calm machine).devResetRun txns) r s)

theorem calm_execDevLcAdvance (r : MbReq) (burnOk : Bool) (s : State) : Answers (execDevLcAdvance r burnOk s) fun t => Calm s t :=
  answers_done_calm (calm_request _ ((closed_calm machine).spendNonce (by simp) ((closed_calm machine).runForm _ _ fun r s => calm_of_machine (by simp))) r s)

theorem calm_execDevDebugSet (r : MbReq) (s : State) : Answers (execDevDebugSet r s) fun t => Calm s t :=
  answers_done_calm ((closed_calm machine).ring (by simp) (by simp) _
    ((closed_calm machine).spendNonce (by simp) ((closed_calm machine).runForm _ _ fun r s => calm_of_machine (by simp))) r s)

theorem calm_execSchLoad (r : MbReq) (host : HostMem) (s : State) : Answers (execSchLoad r host s) fun t => Calm s t :=
  answers_done_calm (((closed_calm machine).ring (by simp) (by simp) _ ((closed_calm machine).runForm 0x0401 schLoadForm
    (body := schLoadBody host) fun r s => calm_of_machine (by simp)) r s).trans (calm_of_machine (State.rest_modMbx (by simp) _ _)))

/-! ### Frames, bus writes and scrubbing -/

theorem calm_execFrameBoundary (inp : FrameInput) (s : State) : Answers (execFrameBoundary inp s) fun t => Calm s t := by
  unfold execFrameBoundary
  refine answers_done_calm (calm_ite (calm_of_machine (by simp)) (Calm.trans ?_ (calm_nextFrame _ inp s)))
  exact calm_of_machine (by simp)

theorem calm_execRegisterWrite (m : BusMaster) (addr : Nat) (be : BitVec 4) (v : W32) (host : HostMem) (s : State) :
    Answers (execRegisterWrite m addr be v host s) fun t => Calm s t := answers_done_calm (calm_busWrite m addr be v host s)

theorem calm_execMbRequestWrite (mb off : Nat) (be : BitVec 4) (v : W32) (s : State) :
    Answers (execMbRequestWrite mb off be v s) fun t => Calm s t := answers_done_calm (calm_ite (Calm.refl s) (calm_busWrite ..))

theorem calm_execFutureWindowWriteLo (m : BusMaster) (idx : Nat) (be : BitVec 4) (v : W32) (s : State) :
    Answers (execFutureWindowWriteLo m idx be v s) fun t => Calm s t := answers_done_calm (calm_ite (Calm.refl s) (calm_busWrite ..))

theorem calm_execFutureWindowWriteHi (m : BusMaster) (idx : Nat) (be : BitVec 4) (v : W32) (s : State) :
    Answers (execFutureWindowWriteHi m idx be v s) fun t => Calm s t := answers_done_calm (calm_ite (Calm.refl s) (calm_busWrite ..))

theorem calm_execPhyCfgWrite (lane : Nat) (be : BitVec 4) (v : W32) (s : State) :
    Answers (execPhyCfgWrite lane be v s) fun t => Calm s t := answers_done_calm (calm_ite (Calm.refl s) (calm_busWrite ..))

theorem calm_execScrubStep (memory word : Nat) (mask : BitVec 72) (s : State) :
    Answers (execScrubStep memory word mask s) fun t => Calm s t := by
  unfold execScrubStep
  extract_lets stored found
  refine answers_done_calm (calm_ite (Calm.refl s) (calm_ite (calm_scrubFail memory word found s) ?_))
  split
  · exact calm_ite (Calm.refl s) (calm_of_machine (by simp))
  · exact calm_of_machine (by simp)
  · exact calm_scrubFail memory word found s

/-! ### All commands -/

/-- Every command answers, with a next state that keeps the queue and the invariants. -/
theorem exec_calm (c : Instr) (s : State) : Answers (exec c s) fun t => Calm s t := by
  cases c with
  | powerOn => exact calm_execPowerOn s
  | resetNAssert => exact calm_execResetNAssert s
  | resetRelease => exact calm_execResetRelease s
  | fuseLoadDone => exact calm_execFuseLoadDone s
  | pllLockTimeout island => exact calm_execPllLockTimeout island s
  | bringUpMarchDone first e => exact calm_execBringUpMarchDone first e s
  | flashBoot ucodeOk => exact calm_execFlashBoot ucodeOk s
  | bootTimeout => exact calm_execBootTimeout s
  | bootOk m => exact (execBootOk_rest (ps := machine) (by simp) m s).mono fun _ => calm_of_machine
  | coreRelease ppsEdge => exact calm_execCoreRelease ppsEdge s
  | ppsAlignTimeout => exact calm_execPpsAlignTimeout s
  | hostColdReset v => exact answers_done_calm (calm_rstCtrl v s)
  | hostWarmReset v => exact answers_done_calm (calm_rstCtrl v s)
  | functionResetRequest v txns => exact (execFunctionResetRequest_rest (ps := machine) (by simp) v txns s).mono fun _ => calm_of_machine
  | pendingResetApply f txns => exact (execPendingResetApply_rest (ps := machine) (by simp) f txns s).mono fun _ => calm_of_machine
  | functionResetRelease f => exact (execFunctionResetRelease_rest f s).mono fun _ => calm_of_machine
  | pcieFlr pf txns => exact (execPcieFlr_rest (ps := machine) (by simp) pf txns s).mono fun _ => calm_of_machine
  | perstNAssert txns => exact (execPerstNAssert_rest (ps := machine) (by simp) txns s).mono fun _ => calm_of_machine
  | critParityError unit word => exact calm_execCritParityError unit word s
  | ioHoldRelease => exact (execIoHoldRelease_rest (ps := machine) (by simp) s).mono fun _ => calm_of_machine
  | tamperAlarm src => exact (execTamperAlarm_rest src s).mono fun _ => calm_of_machine
  | wipeComplete firstDirty secondDirty => exact (execWipeComplete_rest (ps := machine) (by simp) firstDirty secondDirty s).mono fun _ => calm_of_machine
  | frameBoundary inp => exact calm_execFrameBoundary inp s
  | secondBoundary meas => exact (execSecondBoundary_rest (ps := machine) (by simp) meas s).mono fun _ => calm_of_machine
  | ppsEdge err => exact (execPpsEdge_rest (ps := machine) (by simp) err s).mono fun _ => calm_of_machine
  | ppsLoss => exact (execPpsLoss_rest (ps := machine) (by simp) s).mono fun _ => calm_of_machine
  | signalDetected lane => exact (execSignalDetected_rest (ps := machine) (by simp) lane s).mono fun _ => calm_of_machine
  | signalLost lane => exact (execSignalLost_rest (ps := machine) (by simp) lane s).mono fun _ => calm_of_machine
  | adaptConverged lane => exact (execAdaptConverged_rest (ps := machine) (by simp) lane s).mono fun _ => calm_of_machine
  | adaptTimeout lane => exact (execAdaptTimeout_rest (ps := machine) (by simp) lane s).mono fun _ => calm_of_machine
  | lineFrame lane f => exact (execLineFrame_rest (ps := machine) (by simp) lane f s).mono fun _ => calm_of_machine
  | huntAccept lane => exact (execHuntAccept_rest (ps := machine) (by simp) lane s).mono fun _ => calm_of_machine
  | huntTimeout lane => exact (execHuntTimeout_rest (ps := machine) (by simp) lane s).mono fun _ => calm_of_machine
  | dlofDeclare lane => exact (execDlofDeclare_rest (ps := machine) (by simp) lane s).mono fun _ => calm_of_machine
  | cdrLockLoss lane => exact (execCdrLockLoss_rest (ps := machine) (by simp) lane s).mono fun _ => calm_of_machine
  | burstDetected lane ucw frames => exact (execBurstDetected_rest (ps := machine) (by simp) lane ucw frames s).mono fun _ => calm_of_machine
  | laneTryWindowEnd lane => exact (execLaneTryWindowEnd_rest (ps := machine) (by simp) lane s).mono fun _ => calm_of_machine
  | deskewDone g delays => exact (execDeskewDone_rest (ps := machine) (by simp) g delays s).mono fun _ => calm_of_machine
  | osmcPdu g subtype rest => exact (execOsmcPdu_rest (ps := machine) (by simp) g subtype rest s).mono fun _ => calm_of_machine
  | osmcTimeout g => exact (execOsmcTimeout_rest (ps := machine) (by simp) g s).mono fun _ => calm_of_machine
  | osmcInfoTx g => exact (execOsmcInfoTx_rest (ps := machine) (by simp) g s).mono fun _ => calm_of_machine
  | tribOpen tnum => exact (execTribOpen_rest (ps := machine) (by simp) tnum s).mono fun _ => calm_of_machine
  | dfcmovfDeclare tnum => exact (execDfcmovfDeclare_rest (ps := machine) (by simp) tnum s).mono fun _ => calm_of_machine
  | dfcmovfClear tnum => exact (execDfcmovfClear_rest (ps := machine) (by simp) tnum s).mono fun _ => calm_of_machine
  | stitchFrame lane f => exact (execStitchFrame_rest (ps := machine) (by simp) lane f s).mono fun _ => calm_of_machine
  | stitchToken lane tok => exact (execStitchToken_rest (ps := machine) (by simp) lane tok s).mono fun _ => calm_of_machine
  | mirrorRecord word => exact (execMirrorRecord_rest (ps := machine) (by simp) word s).mono fun _ => calm_of_machine
  | commitNotice => exact (execCommitNotice_rest (ps := machine) (by simp) s).mono fun _ => calm_of_machine
  | domainReadiness => exact (execDomainReadiness_rest (ps := machine) (by simp) s).mono fun _ => calm_of_machine
  | domainVeto => exact (execDomainVeto_rest (ps := machine) (by simp) s).mono fun _ => calm_of_machine
  | commitDecision => exact (execCommitDecision_rest (ps := machine) (by simp) s).mono fun _ => calm_of_machine
  | commitTakeEffect => exact calm_execCommitTakeEffect s
  | rollbackTakeEffect => exact calm_execRollbackTakeEffect s
  | domainIdCheck => exact (execDomainIdCheck_rest (ps := machine) (by simp) s).mono fun _ => calm_of_machine
  | schLoadDone => exact (execSchLoadDone_rest (ps := machine) (by simp) s).mono fun _ => calm_of_machine
  | dmaSReadError => exact (execDmaSReadError_rest (ps := machine) (by simp) s).mono fun _ => calm_of_machine
  | bmeLost => exact (execBmeLost_rest (ps := machine) (by simp) s).mono fun _ => calm_of_machine
  | schCopyDone => exact (execSchCopyDone_rest (ps := machine) (by simp) s).mono fun _ => calm_of_machine
  | schCheckDone => exact (execSchCheckDone_rest (ps := machine) (by simp) s).mono fun _ => calm_of_machine
  | scrubStep memory word mask => exact calm_execScrubStep memory word mask s
  | marchStep mismatch => exact (execMarchStep_rest (ps := machine) (by simp) mismatch s).mono fun _ => calm_of_machine
  | pondPermanentFault phys => exact (execPondPermanentFault_rest (ps := machine) (by simp) phys s).mono fun _ => calm_of_machine
  | pondRepairMarchDone phys first second => exact (execPondRepairMarchDone_rest (ps := machine) (by simp) phys first second s).mono fun _ => calm_of_machine
  | diagMarchDone found => exact (execDiagMarchDone_rest found s).mono fun _ => calm_of_machine
  | engineFaultEvent e cause => exact (execEngineFaultEvent_rest (ps := machine) (by simp) e cause s).mono fun _ => calm_of_machine
  | engineRestart e => exact (execEngineRestart_rest (ps := machine) (by simp) e s).mono fun _ => calm_of_machine
  | engineSelfTestDone e pass => exact (execEngineSelfTestDone_rest (ps := machine) (by simp) e pass s).mono fun _ => calm_of_machine
  | engineWindowEnd e => exact (execEngineWindowEnd_rest (ps := machine) (by simp) e s).mono fun _ => calm_of_machine
  | harvestStart => exact (execHarvestStart_rest (ps := machine) (by simp) s).mono fun _ => calm_of_machine
  | harvestDone => exact (execHarvestDone_rest (ps := machine) (by simp) s).mono fun _ => calm_of_machine
  | harvestTruncate => exact (execHarvestTruncate_rest (ps := machine) (by simp) s).mono fun _ => calm_of_machine
  | holdOffExpire pg protect sd => exact (execHoldOffExpire_rest (ps := machine) (by simp) pg protect sd s).mono fun _ => calm_of_machine
  | wtrExpire pg => exact (execWtrExpire_rest (ps := machine) (by simp) pg s).mono fun _ => calm_of_machine
  | apsAccept pg v => exact (execApsAccept_rest (ps := machine) (by simp) pg v s).mono fun _ => calm_of_machine
  | fopNrTimeout pg => exact (execFopNrTimeout_rest (ps := machine) (by simp) pg s).mono fun _ => calm_of_machine
  | encryptBlockStart tnum => exact (execEncryptBlockStart_rest (ps := machine) (by simp) tnum s).mono fun _ => calm_of_machine
  | headerReceived tnum h => exact (execHeaderReceived_rest (ps := machine) (by simp) tnum h s).mono fun _ => calm_of_machine
  | tagCheck tnum tag missing => exact (execTagCheck_rest (ps := machine) (by simp) tnum tag missing s).mono fun _ => calm_of_machine
  | untrustClear tnum => exact (execUntrustClear_rest (ps := machine) (by simp) tnum s).mono fun _ => calm_of_machine
  | pipeMismatch cluster side pipe consecutive => exact (execPipeMismatch_rest (ps := machine) (by simp) cluster side pipe consecutive s).mono fun _ => calm_of_machine
  | pipeHandover cluster side tnum => exact (execPipeHandover_rest (ps := machine) (by simp) cluster side tnum s).mono fun _ => calm_of_machine
  | pipeSelfTestDone cluster side pipe pass => exact (execPipeSelfTestDone_rest (ps := machine) (by simp) cluster side pipe pass s).mono fun _ => calm_of_machine
  | spareKat cluster side pass => exact (execSpareKat_rest (ps := machine) (by simp) cluster side pass s).mono fun _ => calm_of_machine
  | candActivityLoss k => exact (execCandActivityLoss_rest (ps := machine) (by simp) k s).mono fun _ => calm_of_machine
  | candWtrExpire k => exact (execCandWtrExpire_rest (ps := machine) (by simp) k s).mono fun _ => calm_of_machine
  | qlTimeout k => exact (execQlTimeout_rest (ps := machine) (by simp) k s).mono fun _ => calm_of_machine
  | disputeCompare k l offI offJ => exact (execDisputeCompare_rest (ps := machine) (by simp) k l offI offJ s).mono fun _ => calm_of_machine
  | disputeClear k => exact (execDisputeClear_rest (ps := machine) (by simp) k s).mono fun _ => calm_of_machine
  | timTransitionEnd => exact (execTimTransitionEnd_rest (ps := machine) (by simp) s).mono fun _ => calm_of_machine
  | timLock => exact (execTimLock_rest (ps := machine) (by simp) s).mono fun _ => calm_of_machine
  | timLockLoss phaseNs => exact (execTimLockLoss_rest (ps := machine) (by simp) phaseNs s).mono fun _ => calm_of_machine
  | hoReady estimatePpt => exact (execHoReady_rest (ps := machine) (by simp) estimatePpt s).mono fun _ => calm_of_machine
  | holdoverLimit => exact (execHoldoverLimit_rest (ps := machine) (by simp) s).mono fun _ => calm_of_machine
  | tuPeriodicSwap => exact (execTuPeriodicSwap_rest (ps := machine) (by simp) s).mono fun _ => calm_of_machine
  | tuEdgeMissing => exact (execTuEdgeMissing_rest (ps := machine) (by simp) s).mono fun _ => calm_of_machine
  | heartbeatLoss pair unit partnerSees refereeSees => exact calm_execHeartbeatLoss pair unit partnerSees refereeSees s
  | unitReady pair unit => exact (execUnitReady_rest (ps := machine) (by simp) pair unit s).mono fun _ => calm_of_machine
  | resyncTimeout pair unit => exact (execResyncTimeout_rest (ps := machine) (by simp) pair unit s).mono fun _ => calm_of_machine
  | unitWindowEnd pair unit => exact (execUnitWindowEnd_rest (ps := machine) (by simp) pair unit s).mono fun _ => calm_of_machine
  | cpPeriodicSwap => exact (execCpPeriodicSwap_rest (ps := machine) (by simp) s).mono fun _ => calm_of_machine
  | journalRecord => exact (execJournalRecord_rest (ps := machine) (by simp) s).mono fun _ => calm_of_machine
  | twinHbLoss => exact (execTwinHbLoss_rest (ps := machine) (by simp) s).mono fun _ => calm_of_machine
  | twinActivate => exact (execTwinActivate_rest (ps := machine) (by simp) s).mono fun _ => calm_of_machine
  | twinStandbyTakeover => exact (execTwinStandbyTakeover_rest (ps := machine) (by simp) s).mono fun _ => calm_of_machine
  | twinJoinAligned partnerCfn => exact calm_execTwinJoinAligned partnerCfn s
  | twinJoinDone => exact calm_execTwinJoinDone s
  | twinHandover cause => exact (execTwinHandover_rest (ps := machine) (by simp) cause s).mono fun _ => calm_of_machine
  | conjPinEdge pin rising => exact (execConjPinEdge_rest (ps := machine) (by simp) pin rising s).mono fun _ => calm_of_machine
  | tempSample readings => exact (execTempSample_rest readings s).mono fun _ => calm_of_machine
  | avsTick counts => exact (execAvsTick_rest (ps := machine) (by simp) counts s).mono fun _ => calm_of_machine
  | avsPoll readVoutMv statusWord => exact (execAvsPoll_rest (ps := machine) (by simp) readVoutMv statusWord s).mono fun _ => calm_of_machine
  | pmbusRetry success => exact (execPmbusRetry_rest (ps := machine) (by simp) success s).mono fun _ => calm_of_machine
  | pmbusAlert statusWord => exact (execPmbusAlert_rest (ps := machine) (by simp) statusWord s).mono fun _ => calm_of_machine
  | islandGate bit => exact (execIslandGate_rest bit s).mono fun _ => calm_of_machine
  | resizeComplete ing eg cause => exact (execResizeComplete_rest (ps := machine) (by simp) ing eg cause s).mono fun _ => calm_of_machine
  | pondFlip => exact (execPondFlip_rest (ps := machine) (by simp) s).mono fun _ => calm_of_machine
  | pertCountdownEnd control => exact (execPertCountdownEnd_rest (ps := machine) (by simp) control s).mono fun _ => calm_of_machine
  | tagRecord t => exact (execTagRecord_rest (ps := machine) (by simp) t s).mono fun _ => calm_of_machine
  | perfSnapshotDone => exact (execPerfSnapshotDone_rest (ps := machine) (by simp) s).mono fun _ => calm_of_machine
  | jtagScan => exact (execJtagScan_rest (ps := machine) (by simp) s).mono fun _ => calm_of_machine
  | jtagDebugSet level => exact (execJtagDebugSet_rest level s).mono fun _ => calm_of_machine
  | jtagFuseProgram variant uniqueId kekSeed trim repairs => exact (execJtagFuseProgram_rest (ps := machine) (by simp) variant uniqueId kekSeed trim repairs s).mono fun _ => calm_of_machine
  | devResetStart => exact calm_execDevResetStart s
  | mailboxReopen mb => exact (execMailboxReopen_rest (ps := machine) (by simp) mb s).mono fun _ => calm_of_machine
  | msixUnmask => exact (execMsixUnmask_rest (ps := machine) (by simp) s).mono fun _ => calm_of_machine
  | intEoi v => exact answers_done_calm (calm_busWrite ..)
  | mbRequestWrite mb off be v => exact calm_execMbRequestWrite mb off be v s
  | mbEvConsWrite be v => exact answers_done_calm (calm_busWrite ..)
  | futureWindowWriteLo m idx be v => exact calm_execFutureWindowWriteLo m idx be v s
  | futureWindowWriteHi m idx be v => exact calm_execFutureWindowWriteHi m idx be v s
  | coherentRead m addr => exact (execCoherentRead_rest (ps := machine) (by simp) m addr s).mono fun _ => calm_of_machine
  | clearingRead m addr => exact (execClearingRead_rest (ps := machine) (by simp) m addr s).mono fun _ => calm_of_machine
  | aliasWrite addr be v => exact answers_done_calm (calm_busWrite ..)
  | aliasRead addr => exact (execAliasRead_rest (ps := machine) (by simp) addr s).mono fun _ => calm_of_machine
  | registerWrite m addr be v host => exact calm_execRegisterWrite m addr be v host s
  | busDecodeError m write target addr => exact (execBusDecodeError_rest (ps := machine) (by simp) m write target addr s).mono fun _ => calm_of_machine
  | remapWrite m v => exact (execRemapWrite_rest (ps := machine) (by simp) m v s).mono fun _ => calm_of_machine
  | phyCfgWrite lane be v => exact calm_execPhyCfgWrite lane be v s
  | pondMaintRead phys v cycle => exact (execPondMaintRead_rest (ps := machine) (by simp) phys v cycle s).mono fun _ => calm_of_machine
  | pondMaintWrite phys v cycle => exact (execPondMaintWrite_rest (ps := machine) (by simp) phys v cycle s).mono fun _ => calm_of_machine
  | keyDeskClaim => exact (execKeyDeskClaim_rest (ps := machine) (by simp) s).mono fun _ => calm_of_machine
  | keyDeskRelease => exact (execKeyDeskRelease_rest (ps := machine) (by simp) s).mono fun _ => calm_of_machine
  | deskLoad slot e => exact (execDeskLoad_rest (ps := machine) (by simp) slot e s).mono fun _ => calm_of_machine
  | deskActivate slot => exact (execDeskActivate_rest (ps := machine) (by simp) slot s).mono fun _ => calm_of_machine
  | deskEraseNext slot => exact (execDeskEraseNext_rest (ps := machine) (by simp) slot s).mono fun _ => calm_of_machine
  | deskEraseSlot slot => exact (execDeskEraseSlot_rest (ps := machine) (by simp) slot s).mono fun _ => calm_of_machine
  | keyDeskComplete => exact (execKeyDeskComplete_rest (ps := machine) (by simp) s).mono fun _ => calm_of_machine
  | perfFreeze freeze => exact (execPerfFreeze_rest (ps := machine) (by simp) freeze s).mono fun _ => calm_of_machine
  | perfSnapshot => exact (execPerfSnapshot_rest (ps := machine) (by simp) s).mono fun _ => calm_of_machine
  | perfClear => exact (execPerfClear_rest (ps := machine) (by simp) s).mono fun _ => calm_of_machine
  | tagBufferClear => exact (execTagBufferClear_rest (ps := machine) (by simp) s).mono fun _ => calm_of_machine
  | devInfo r => exact calm_mailboxRow _ _ (fun r s => calm_of_machine (by simp)) r s
  | devDecommission r burnOk => exact calm_mailboxRow _ _ (fun r s => calm_of_machine (by simp)) r s
  | devCpSwap r => exact calm_mailboxRow _ _ (fun r s => calm_of_machine (by simp)) r s
  | devReset r txns => exact calm_execDevReset r txns s
  | devLcChallenge r => exact calm_mailboxRow _ _ (fun r s => calm_of_machine (by simp)) r s
  | devLcAdvance r burnOk => exact calm_execDevLcAdvance r burnOk s
  | devDebugSet r => exact calm_execDevDebugSet r s
  | devRedCfg r => exact calm_mailboxRow _ _ (fun r s => calm_of_machine (by simp)) r s
  | devUnitStatus r => exact calm_mailboxRow _ _ (fun r s => calm_of_machine (by simp)) r s
  | devUnitReadmit r => exact calm_mailboxRow _ _ (fun r s => calm_of_machine (by simp)) r s
  | devGpioCfg r => exact calm_mailboxRow _ _ (fun r s => calm_of_machine (by simp)) r s
  | grpCreate r => exact calm_mailboxRow _ _ (fun r s => calm_of_machine (by simp)) r s
  | grpDelete r => exact calm_mailboxRow _ _ (fun r s => calm_of_machine (by simp)) r s
  | grpStatus r => exact calm_mailboxRow _ _ (fun r s => calm_of_machine (by simp)) r s
  | laneRetire r => exact calm_mailboxRow _ _ (fun r s => calm_of_machine (by simp)) r s
  | laneReadmit r => exact calm_mailboxRow _ _ (fun r s => calm_of_machine (by simp)) r s
  | grpSetOptions r => exact calm_mailboxRow _ _ (fun r s => calm_of_machine (by simp)) r s
  | trbStatus r => exact calm_mailboxRow _ _ (fun r s => calm_of_machine (by simp)) r s
  | trbResize r => exact calm_mailboxRow _ _ (fun r s => calm_of_machine (by simp)) r s
  | trbResizeAbort r => exact calm_mailboxRow _ _ (fun r s => calm_of_machine (by simp)) r s
  | schLoad r host => exact calm_execSchLoad r host s
  | schCopy r => exact calm_mailboxRow _ _ (fun r s => calm_of_machine (by simp)) r s
  | schPrepare r => exact calm_mailboxRow _ _ (fun r s => calm_of_machine (by simp)) r s
  | schUnprepare r => exact calm_mailboxRow _ _ (fun r s => calm_of_machine (by simp)) r s
  | schArm r => exact calm_mailboxRow _ _ (fun r s => calm_of_machine (by simp)) r s
  | schDisarm r => exact calm_mailboxRow _ _ (fun r s => calm_of_machine (by simp)) r s
  | schRollback r => exact calm_mailboxRow _ _ (fun r s => calm_of_machine (by simp)) r s
  | schStatus r => exact calm_mailboxRow _ _ (fun r s => calm_of_machine (by simp)) r s
  | conjNotice r => exact calm_mailboxRow _ _ (fun r s => calm_of_machine (by simp)) r s
  | conjCancel r => exact calm_mailboxRow _ _ (fun r s => calm_of_machine (by simp)) r s
  | conjPinCfg r => exact calm_mailboxRow _ _ (fun r s => calm_of_machine (by simp)) r s
  | conjStatus r => exact calm_mailboxRow _ _ (fun r s => calm_of_machine (by simp)) r s
  | epPlace r => exact calm_mailboxRow _ _ (fun r s => calm_of_machine (by simp)) r s
  | epConfig r => exact calm_mailboxRow _ _ (fun r s => calm_of_machine (by simp)) r s
  | epStatus r => exact calm_mailboxRow _ _ (fun r s => calm_of_machine (by simp)) r s
  | epHarvestCfg r => exact calm_mailboxRow _ _ (fun r s => calm_of_machine (by simp)) r s
  | engStatus r => exact calm_mailboxRow _ _ (fun r s => calm_of_machine (by simp)) r s
  | engReadmit r => exact calm_mailboxRow _ _ (fun r s => calm_of_machine (by simp)) r s
  | pgCommand r => exact calm_mailboxRow _ _ (fun r s => calm_of_machine (by simp)) r s
  | pgStatus r => exact calm_mailboxRow _ _ (fun r s => calm_of_machine (by simp)) r s
  | pgList r => exact calm_mailboxRow _ _ (fun r s => calm_of_machine (by simp)) r s
  | keyLock r => exact calm_mailboxRow _ _ (fun r s => calm_of_machine (by simp)) r s
  | keyLoad r e => exact calm_mailboxRow _ _ (fun r s => calm_of_machine (by simp)) r s
  | keyActivate r => exact calm_mailboxRow _ _ (fun r s => calm_of_machine (by simp)) r s
  | keyErase r => exact calm_mailboxRow _ _ (fun r s => calm_of_machine (by simp)) r s
  | keyStatus r => exact calm_mailboxRow _ _ (fun r s => calm_of_machine (by simp)) r s
  | keyPipeStatus r => exact calm_mailboxRow _ _ (fun r s => calm_of_machine (by simp)) r s
  | keyPipeReadmit r => exact calm_mailboxRow _ _ (fun r s => calm_of_machine (by simp)) r s
  | timCfg r => exact calm_mailboxRow _ _ (fun r s => calm_of_machine (by simp)) r s
  | timCandCfg r => exact calm_mailboxRow _ _ (fun r s => calm_of_machine (by simp)) r s
  | timSetQl r => exact calm_mailboxRow _ _ (fun r s => calm_of_machine (by simp)) r s
  | timStatus r => exact calm_mailboxRow _ _ (fun r s => calm_of_machine (by simp)) r s
  | timHistory r => exact calm_mailboxRow _ _ (fun r s => calm_of_machine (by simp)) r s
  | timSwap r => exact calm_mailboxRow _ _ (fun r s => calm_of_machine (by simp)) r s
  | pwrHold r => exact calm_mailboxRow _ _ (fun r s => calm_of_machine (by simp)) r s
  | pwrResume r => exact calm_mailboxRow _ _ (fun r s => calm_of_machine (by simp)) r s
  | pwrStatus r => exact calm_mailboxRow _ _ (fun r s => calm_of_machine (by simp)) r s
  | pwrGateUnused r => exact calm_mailboxRow _ _ calm_pwrGateUnusedBody r s
  | diagMarch r => exact calm_mailboxRow _ _ (fun r s => calm_of_machine (by simp)) r s
  | diagLog r => exact calm_mailboxRow _ _ (fun r s => calm_of_machine (by simp)) r s
  | diagPondSpare r => exact calm_mailboxRow _ _ (fun r s => calm_of_machine (by simp)) r s
  | diagPondRestore r => exact calm_mailboxRow _ _ (fun r s => calm_of_machine (by simp)) r s
  | diagMemStatus r => exact calm_mailboxRow _ _ (fun r s => calm_of_machine (by simp)) r s
  | diagPerfAccess r => exact calm_mailboxRow _ _ (fun r s => calm_of_machine (by simp)) r s
  | fwInfo r => exact calm_mailboxRow _ _ (fun r s => calm_of_machine (by simp)) r s
  | fwWrite r => exact calm_mailboxRow _ _ (fun r s => calm_of_machine (by simp)) r s
  | fwSelect r => exact calm_mailboxRow _ _ (fun r s => calm_of_machine (by simp)) r s
  | fwLiveUpdate r => exact calm_mailboxRow _ _ (fun r s => calm_of_machine (by simp)) r s
  | fwRecoverStart r => exact calm_mailboxRow _ _ (fun r s => calm_of_machine (by simp)) r s
  | twinJoin r => exact calm_mailboxRow _ _ (fun r s => calm_of_machine (by simp)) r s
  | twinLeave r => exact calm_mailboxRow _ _ (fun r s => calm_of_machine (by simp)) r s
  | twinStatus r => exact calm_mailboxRow _ _ (fun r s => calm_of_machine (by simp)) r s
  | twinCfg r => exact calm_mailboxRow _ _ (fun r s => calm_of_machine (by simp)) r s
  | twinYield r => exact calm_mailboxRow _ _ (fun r s => calm_of_machine (by simp)) r s
  | domCfg r => exact calm_mailboxRow _ _ (fun r s => calm_of_machine (by simp)) r s
  | domStatus r => exact calm_mailboxRow _ _ (fun r s => calm_of_machine (by simp)) r s
  | stcLaneSet r => exact calm_mailboxRow _ _ (fun r s => calm_of_machine (by simp)) r s
  | stcLaneRelease r => exact calm_mailboxRow _ _ (fun r s => calm_of_machine (by simp)) r s
  | quadrantFailure q => exact (execQuadrantFailure_rest (ps := machine) (by simp) q s).mono fun _ => calm_of_machine
  | jtagCpHalt unit halt => exact (execJtagCpHalt_rest (ps := machine) (by simp) unit halt s).mono fun _ => calm_of_machine
  | tamperConditionEnd e => exact (execTamperConditionEnd_rest (ps := machine) (by simp) e s).mono fun _ => calm_of_machine
  | powerDown => exact calm_execPowerDown s
  | elasticBufferRecentring cluster => exact (execElasticBufferRecentring_rest (ps := machine) (by simp) cluster s).mono fun _ => calm_of_machine
  | cpBankUncorrectableError unit => exact calm_execCpBankUncorrectableError unit s

end Sys2Proof.Machine

open Sys2Proof Sys2Proof.Machine

/-- Settles O1: both clauses are the two arms of `step`. -/
theorem stepRunsFrontCommand : Obligations.StepRunsFrontCommand := by
  unfold Obligations.StepRunsFrontCommand
  constructor
  · intro s c r h
    unfold step
    rw [h]
  · intro s h
    unfold step
    rw [h]

/-- Settles O2: every arm of the dispatcher ends in a next state. -/
theorem everyCommandAnswers : Obligations.EveryCommandAnswers := by
  unfold Obligations.EveryCommandAnswers
  exact fun c s => (exec_calm c s).mono fun _ _ => trivial

theorem exec_next_calm {c : Instr} {s t : State} (h : exec c s = .next t) : Calm s t := by
  obtain ⟨u, hu, hc⟩ := exec_calm c s
  cases hu.symm.trans h
  exact hc

/-- Settles O3: no function of the model writes the queue. -/
theorem commandsKeepQueue : Obligations.CommandsKeepQueue := by
  unfold Obligations.CommandsKeepQueue
  exact fun c s t h => (exec_next_calm h).1

/-- A step either idles or runs a command on a state that differs in its queue alone. -/
theorem step_keeps {P : State → Prop} (hq : ∀ s q, P s → P { s with pending := q }) (hc : ∀ s t, Calm s t → P s → P t) {s t : State}
    (hs : P s) (h : step s = .next t) : P t := by
  unfold step at h
  split at h
  · cases h
    exact hs
  · exact hc _ _ (exec_next_calm h) (hq s _ hs)

/-- Settles O4: only commits, rollbacks and resets write a role, the first two permute the roles and a reset gives each bank its own. -/
theorem stepKeepsBankRoles : Obligations.StepKeepsBankRoles := by
  unfold Obligations.StepKeepsBankRoles
  exact fun s t => step_keeps (fun _ _ h => h) fun _ _ h => h.2.1

/-- Settles O5: each change of the mode writes the power state that the new mode names. -/
theorem stepKeepsModePower : Obligations.StepKeepsModePower := by
  unfold Obligations.StepKeepsModePower
  exact fun s t => step_keeps (fun _ _ h => h) fun _ _ h => h.2.2

end

section
/-!
PROOFS. Frames: what `State.rest l` keeps is every part outside `l`.
-/

namespace Sys2Proof.Machine
variable {l : List Part} {s t : State}

theorem frameBut_of_rest (h : t.rest l = s.rest l) : FrameBut l s t := by
  intro p hp
  cases p
  case glb =>
    have hg : { t.glb with aPrev := false, msixHeld := false, msixSent := 0 } = { s.glb with aPrev := false, msixHeld := false, msixSent := 0 } := by
      simpa [State.rest, hp] using congrArg State.glb h
    show t.glb = { { s.glb with aPrev := false, msixHeld := false, msixSent := 0 } with
      aPrev := t.glb.aPrev, msixHeld := t.glb.msixHeld, msixSent := t.glb.msixSent }
    rw [← hg]
  case rst => simpa [Same, State.rest, hp] using congrArg State.rst h
  case lanes => simpa [Same, State.rest, hp] using congrArg State.lanes h
  case grps => simpa [Same, State.rest, hp] using congrArg State.grps h
  case sch => simpa [Same, State.rest, hp] using congrArg State.sch h
  case pnd => simpa [Same, State.rest, hp] using congrArg State.pnd h
  case dp => simpa [Same, State.rest, hp] using congrArg State.dp h
  case eng => simpa [Same, State.rest, hp] using congrArg State.eng h
  case prot => simpa [Same, State.rest, hp] using congrArg State.prot h
  case key => simpa [Same, State.rest, hp] using congrArg State.key h
  case tim => simpa [Same, State.rest, hp] using congrArg State.tim h
  case twin => simpa [Same, State.rest, hp] using congrArg State.twin h
  case mbx => simpa [Same, State.rest, hp] using congrArg State.mbx h
  case cps => simpa [Same, State.rest, hp] using congrArg State.cps h
  case bus => simpa [Same, State.rest, hp] using congrArg State.bus h
  case mem => simpa [Same, State.rest, hp] using congrArg State.mem h
  case pwr => simpa [Same, State.rest, hp] using congrArg State.pwr h
  case perf => simpa [Same, State.rest, hp] using congrArg State.perf h
  case pert => simpa [Same, State.rest, hp] using congrArg State.pert h
  case drawn => simpa [Same, State.rest, hp] using congrArg State.drawn h
  case pending => simpa [Same, State.rest] using congrArg State.pending h

theorem touches_of_rest {c : Instr} (h : ∀ s, Answers (exec c s) fun t => t.rest l = s.rest l) : Touches c l := by
  intro s t ht
  obtain ⟨u, hu, hr⟩ := h s
  cases hu.symm.trans ht
  exact frameBut_of_rest hr

/-- A question that changes nothing of the device changes nothing but its exchange and the record of an access in reset. -/
theorem touches_question {c : Instr} {code : Nat} {f : Form} {body : Run} {r : MbReq} (hc : ∀ s, exec c s = mailboxRow code f body r s)
    (hb : ∀ r s, (body r s).2.rest (exchangeParts ++ [.glb]) = s.rest (exchangeParts ++ [.glb])) : Touches c (exchangeParts ++ [.glb]) :=
  touches_of_rest fun s => by
    rw [hc]
    exact (closed_rest _).mailboxRow (by decide) (by decide) (by decide) code f hb r s

/-- A fault of a timing unit leaves the global block alone. -/
theorem State.unitFault_timing_rest {ps : List Part} (hp : [.tim, .mbx, .cps] ⊆ ps) (unit cause cover : Nat) (s : State) :
    (s.unitFault 0 unit cause cover).rest ps = s.rest ps := by
  simp only [List.cons_subset, List.nil_subset, and_true] at hp
  simp [State.unitFault, hp]

theorem State.tuLost_timing_rest {ps : List Part} (hp : [.tim, .mbx, .cps] ⊆ ps) (cause : Nat) (s : State) :
    (s.tuLost cause).rest ps = s.rest ps := by
  have hu := fun unit cause cover s => State.unitFault_timing_rest hp unit cause cover s
  simp only [List.cons_subset, List.nil_subset, and_true] at hp
  simp [State.tuLost, hp, hu]

theorem execTuEdgeMissing_timing_rest (s : State) :
    Answers (execTuEdgeMissing s) fun t => t.rest [.tim, .cps, .mbx] = s.rest [.tim, .cps, .mbx] := by
  unfold execTuEdgeMissing
  refine answers_done_rest ?_
  split
  · exact State.tuLost_timing_rest (by decide) 3 s
  · rfl

end Sys2Proof.Machine

open Sys2Proof Sys2Proof.Machine

/-- Settles O60: each command's frame lemma, at the parts it names. -/
theorem commandFrames : Obligations.CommandFrames := by
  unfold Obligations.CommandFrames
  refine ⟨fun r => ?_, fun n f => touches_of_rest (execLineFrame_rest (by decide) n f),
    fun n => touches_of_rest (execSignalDetected_rest (by decide) n),
    fun n => touches_of_rest (execSignalLost_rest (by decide) n),
    fun n => touches_of_rest (execAdaptConverged_rest (by decide) n),
    fun n => touches_of_rest (execAdaptTimeout_rest (by decide) n),
    fun n => touches_of_rest (execHuntAccept_rest (by decide) n),
    fun n => touches_of_rest (execHuntTimeout_rest (by decide) n),
    fun n => touches_of_rest (execDlofDeclare_rest (by decide) n),
    fun n => touches_of_rest (execCdrLockLoss_rest (by decide) n),
    fun n u w => touches_of_rest (execBurstDetected_rest (by decide) n u w),
    fun n => touches_of_rest (execLaneTryWindowEnd_rest (by decide) n),
    fun g l => touches_of_rest (execDeskewDone_rest (by decide) g l),
    fun g b p => touches_of_rest (execOsmcPdu_rest (by decide) g b p),
    fun g => touches_of_rest (execOsmcTimeout_rest (by decide) g),
    fun g => touches_of_rest (execOsmcInfoTx_rest (by decide) g),
    fun n => touches_of_rest (execTribOpen_rest (by decide) n),
    fun n => touches_of_rest (execDfcmovfDeclare_rest (by decide) n),
    fun n => touches_of_rest (execDfcmovfClear_rest (by decide) n),
    fun i e c => touches_of_rest (execResizeComplete_rest (by decide) i e c),
    touches_of_rest (execCommitNotice_rest (by decide)),
    touches_of_rest (execDomainReadiness_rest (by decide)),
    touches_of_rest (execDomainVeto_rest (by decide)),
    touches_of_rest (execCommitDecision_rest (by decide)),
    touches_of_rest (execDomainIdCheck_rest (by decide)),
    touches_of_rest (execSchCopyDone_rest (by decide)),
    touches_of_rest (execSchCheckDone_rest (by decide)),
    fun e c => touches_of_rest (execEngineFaultEvent_rest (by decide) e c),
    fun e => touches_of_rest (execEngineRestart_rest (by decide) e),
    fun e b => touches_of_rest (execEngineSelfTestDone_rest (by decide) e b),
    fun e => touches_of_rest (execEngineWindowEnd_rest (by decide) e),
    touches_of_rest (execHarvestStart_rest (by decide)),
    touches_of_rest (execHarvestDone_rest (by decide)),
    touches_of_rest (execHarvestTruncate_rest (by decide)),
    fun n a b => touches_of_rest (execHoldOffExpire_rest (by decide) n a b),
    fun n => touches_of_rest (execWtrExpire_rest (by decide) n),
    fun n v => touches_of_rest (execApsAccept_rest (by decide) n v),
    fun n => touches_of_rest (execFopNrTimeout_rest (by decide) n),
    fun n => touches_of_rest (execEncryptBlockStart_rest (by decide) n),
    fun n h => touches_of_rest (execHeaderReceived_rest (by decide) n h),
    fun n a m => touches_of_rest (execTagCheck_rest (by decide) n a m),
    fun n => touches_of_rest (execUntrustClear_rest (by decide) n),
    fun i => touches_of_rest (execCandActivityLoss_rest (by decide) i),
    fun i => touches_of_rest (execCandWtrExpire_rest (by decide) i),
    fun i => touches_of_rest (execQlTimeout_rest (by decide) i),
    fun i j x y => touches_of_rest (execDisputeCompare_rest (by decide) i j x y),
    fun i => touches_of_rest (execDisputeClear_rest (by decide) i),
    touches_of_rest (execTimTransitionEnd_rest (by decide)),
    touches_of_rest (execTimLock_rest (by decide)),
    fun x => touches_of_rest (execTimLockLoss_rest (by decide) x),
    fun x => touches_of_rest (execHoReady_rest (by decide) x),
    touches_of_rest (execHoldoverLimit_rest (by decide)),
    touches_of_rest (execTuPeriodicSwap_rest (by decide)),
    touches_of_rest (execTuEdgeMissing_timing_rest),
    touches_of_rest (execJournalRecord_rest (by decide)),
    touches_of_rest (execJtagScan_rest (by decide)),
    fun c => touches_of_rest (execPertCountdownEnd_rest (by decide) c),
    touches_of_rest (execPerfSnapshotDone_rest (by decide)),
    fun e => touches_of_rest (execTagRecord_rest (by decide) e),
    fun l => touches_of_rest (execAvsTick_rest (by decide) l),
    fun v w => touches_of_rest (execAvsPoll_rest (by decide) v w),
    fun b => touches_of_rest (execPmbusRetry_rest (by decide) b),
    fun w => touches_of_rest (execPmbusAlert_rest (by decide) w),
    fun p r => touches_of_rest (execConjPinEdge_rest (by decide) p r)⟩
  refine ⟨?_, ?_, ?_, ?_, ?_, ?_, ?_, ?_, ?_, ?_, ?_, ?_, ?_, ?_, ?_, ?_, ?_, ?_⟩
  all_goals exact touches_question (fun _ => rfl) (by simp)

end

section
/-!
PROOFS. The reset state, and a step that leaves the debug level above what the life cycle allows.
-/

namespace Sys2Proof.Machine

/-- A pond's role register in the reset state is that of a pond as it powers on. -/
theorem peek_reset_pond (p : Nat) (hp : p < 132) : State.reset.peek (0x400000 + 0x1000 * p) = BitVec.ofNat 32 ((pond0 p).regs 0) := by
  have ha : ∀ k, k ≤ 0x400000 → ¬ 0x400000 + 0x1000 * p < k := by omega
  have h2 : (0x400000 + 0x1000 * p) % 0x1000 = 0 := by omega
  have h3 : 0x400000 ≤ 0x400000 + 0x1000 * p ∧ 0x400000 + 0x1000 * p < 0x484000 := by omega
  unfold State.peek
  simp [ha, h2, h3]
  rfl

/-- The crossbar's map register of logical pond `n` in the reset state. -/
theorem peek_reset_map (n : Nat) (hn : n < 128) : State.reset.peek (0x490000 + 4 * n) = BitVec.ofNat 32 (State.reset.pnd.phys n) := by
  have ha : ∀ k, k ≤ 0x490000 → ¬ 0x490000 + 4 * n < k := by omega
  have h2 : 4 * n < 0x200 := by omega
  have h3 : 0x490000 + 4 * n < 0x4A0000 := by omega
  unfold State.peek Pnd.xbarRead
  simp [ha, h2, h3]

theorem regs_pond0_home (p : Nat) (hp : p < 128) : (pond0 p).regs 0 = p * 2 ^ 23 := by
  unfold pond0 Pond.regs
  rw [if_pos rfl, if_pos hp]
  show 0 * 2 ^ 30 + p * 2 ^ 23 + 0 * 2 ^ 19 + 0 * 2 ^ 18 + 0 * 2 ^ 17 = p * 2 ^ 23
  omega

theorem regs_pond0_spare (p : Nat) (hp : 128 ≤ p) : (pond0 p).regs 0 = 2 ^ 31 := by
  unfold pond0 Pond.regs
  rw [if_pos rfl, if_neg (Nat.not_lt.mpr hp)]
  rfl

/-- A device at fuse load whose fuses are Operational and whose debug level is still that of a blank one. -/
def fuseLoadAtDebug3 : State :=
  { State.reset with
    rst := { State.reset.rst with phase := .fuseLoad, lc := .blank, dbgLevel := 3, fuse0 := { bitO := 7 } }
    pending := [.fuseLoadDone] }

theorem fuseLoadAtDebug3_crc : fuseLoadAtDebug3.rst.fuse0.crcOk = true := by decide +kernel

theorem step_fuseLoadAtDebug3 : Answers (step fuseLoadAtDebug3) fun t => t.rst.lc = .operational ∧ t.rst.dbgLevel = 3 := by
  have hs : step fuseLoadAtDebug3 = execFuseLoadDone { fuseLoadAtDebug3 with pending := [] } := rfl
  rw [hs]
  unfold execFuseLoadDone
  have h1 : (fuseLoadAtDebug3.rst.phase != .fuseLoad) = false := rfl
  have h2 : (fuseLoadAtDebug3.rst.fuse0.blank && fuseLoadAtDebug3.rst.fuse1.blank) = false := by decide +kernel
  simp only [answers_done, h1, h2, fuseLoadAtDebug3_crc, Bool.false_eq_true, if_false, if_true, State.settle_rst]
  constructor <;> rfl

end Sys2Proof.Machine

open Sys2Proof Sys2Proof.Machine

/-- Refutes O6: a fuse load that finds Operational fuses takes their state with a debug level of 3, which Operational does not allow. -/
theorem not_stepKeepsDebugAllowed : ¬ Obligations.StepKeepsDebugAllowed := by
  unfold Obligations.StepKeepsDebugAllowed
  intro h
  obtain ⟨t, ht, hlc, hd⟩ := step_fuseLoadAtDebug3
  have hb : DebugAllowed t := h _ t (by unfold DebugAllowed; decide) ht
  unfold DebugAllowed at hb
  rw [hlc, hd] at hb
  exact absurd hb (by decide)

/-- Settles O7: the registers of the ponds and of the crossbar's map by their formulas, the others by evaluation. -/
theorem resetState : Obligations.ResetState := by
  unfold Obligations.ResetState
  refine ⟨by unfold BankRoles; decide, by unfold ModePower; decide, by unfold DebugAllowed; decide, rfl, ?_⟩
  refine ⟨by decide, by decide, by decide, by decide, by decide, by decide, by decide, by decide, by decide, by decide, by decide, by decide,
    by decide, by decide, by decide, by decide, by decide, by decide, ?_, ?_, ?_⟩
  · intro p hp
    rw [peek_reset_pond p (by omega), regs_pond0_home p hp]
  · intro p hp hp'
    rw [peek_reset_pond p hp', regs_pond0_spare p hp]
    rfl
  · intro n hn
    rw [peek_reset_map n hn]
    rfl

end

section
/-!
PROOFS. What a mailbox command leaves when its mailbox is ready and its request admitted.
-/

namespace Sys2Proof.Machine

/-- The state after a command that gave `p`: its journal entries, its response and the interrupt outputs. -/
def State.replied (code : Nat) (r : MbReq) (p : Ans × State) : State :=
  ((p.2.note (p.2.journalOf code r p.1)).answer code r p.1).settle

variable {code : Nat} {f : Form} {body : Run} {r : MbReq} {s : State}

/-- A command of a ready mailbox runs its body on the filled state and is answered at once. -/
theorem answers_mailboxRow {a : Ans} {u : State} {P : State → Prop} (h : MbReady r s) (ha : Admitted code f r s) (hc : code ≠ 0x0104)
    (hb : body r (s.filled code r) = (a, u)) (hp : P (State.replied code r (a, u))) : Answers (mailboxRow code f body r s) P := by
  rw [mailboxRow_ready h ha hc, hb]
  exact (answers_next _ P).mpr hp

theorem answered_replied (p : Ans × State) : Answered code r p.1.status p.1.payload (State.replied code r p) := answered_answer code r p.1 _

section
variable (p : Ans × State)

@[simp] theorem replied_rst : (State.replied code r p).rst = p.2.rst := rfl
@[simp] theorem replied_lanes : (State.replied code r p).lanes = p.2.lanes := rfl
@[simp] theorem replied_grps : (State.replied code r p).grps = p.2.grps := rfl
@[simp] theorem replied_sch : (State.replied code r p).sch = p.2.sch := rfl
@[simp] theorem replied_pnd : (State.replied code r p).pnd = p.2.pnd := rfl
@[simp] theorem replied_dp : (State.replied code r p).dp = p.2.dp := rfl
@[simp] theorem replied_eng : (State.replied code r p).eng = p.2.eng := rfl
@[simp] theorem replied_prot : (State.replied code r p).prot = p.2.prot := rfl
@[simp] theorem replied_key : (State.replied code r p).key = p.2.key := rfl
@[simp] theorem replied_tim : (State.replied code r p).tim = p.2.tim := rfl
@[simp] theorem replied_twin : (State.replied code r p).twin = p.2.twin := rfl
@[simp] theorem replied_cps : (State.replied code r p).cps = p.2.cps := rfl
@[simp] theorem replied_bus : (State.replied code r p).bus = p.2.bus := rfl
@[simp] theorem replied_mem : (State.replied code r p).mem = p.2.mem := rfl
@[simp] theorem replied_pwr : (State.replied code r p).pwr = p.2.pwr := rfl
@[simp] theorem replied_perf : (State.replied code r p).perf = p.2.perf := rfl
@[simp] theorem replied_pert : (State.replied code r p).pert = p.2.pert := rfl
@[simp] theorem replied_drawn : (State.replied code r p).drawn = p.2.drawn := rfl

/-- Of the global block only the interrupt outputs follow. -/
theorem replied_glb : (State.replied code r p).glb =
    { p.2.glb with
      aPrev := (State.replied code r p).glb.aPrev, msixHeld := (State.replied code r p).glb.msixHeld
      msixSent := (State.replied code r p).glb.msixSent } :=
  State.settle_glb _

@[simp] theorem replied_remap : (State.replied code r p).glb.remap = p.2.glb.remap := by rw [replied_glb]
@[simp] theorem replied_triggers : (State.replied code r p).glb.triggers = p.2.glb.triggers := by rw [replied_glb]
@[simp] theorem replied_mode : (State.replied code r p).glb.mode = p.2.glb.mode := by rw [replied_glb]
@[simp] theorem replied_power : (State.replied code r p).glb.power = p.2.glb.power := by rw [replied_glb]

@[simp] theorem replied_rest {l : List Part} (h : .mbx ∈ l) : (State.replied code r p).rest l = p.2.rest l := by
  simp [State.replied, h]

@[simp] theorem replied_lane (n : Nat) : (State.replied code r p).lane n = p.2.lane n := rfl
@[simp] theorem replied_grp (n : Nat) : (State.replied code r p).grp n = p.2.grp n := rfl

end

@[simp] theorem State.rest_filled {l : List Part} (h : .mbx ∈ l) (h' : .perf ∈ l) : (s.filled code r).rest l = s.rest l := by
  simp [State.filled, h, h']

/-- The frame of a reply: what the command's own effect changed besides the exchange. -/
theorem frameBut_replied {l : List Part} {a : Ans} {u : State} (h : u.rest (exchangeParts ++ l) = (s.filled code r).rest (exchangeParts ++ l)) :
    FrameBut (exchangeParts ++ l) s (State.replied code r (a, u)) :=
  frameBut_of_rest (by rw [replied_rest _ (by simp [exchangeParts]), h, State.rest_filled (by simp [exchangeParts]) (by simp [exchangeParts])])

theorem State.modGrp_grp_same (g : Nat) (f : Grp → Grp) (s : State) : (s.modGrp g f).grp g = (s.grp g).map f := tfind_tupd_same _ _ _

theorem State.modGrp_grp_ne (g : Nat) {k : Nat} (h : k ≠ g) (f : Grp → Grp) (s : State) : (s.modGrp g f).grp k = s.grp k :=
  tfind_tupd_ne _ h _

/-- The frame of a reply, by the frame of its body. -/
theorem frameBut_body {l : List Part} {a : Ans} {u : State} (hb : body r (s.filled code r) = (a, u))
    (h : (body r (s.filled code r)).2.rest (exchangeParts ++ l) = (s.filled code r).rest (exchangeParts ++ l)) :
    FrameBut (exchangeParts ++ l) s (State.replied code r (a, u)) := by
  rw [hb] at h
  exact frameBut_replied h

@[simp] theorem filled_lane (n : Nat) : (s.filled code r).lane n = s.lane n := by simp [State.lane]
@[simp] theorem filled_grp (n : Nat) : (s.filled code r).grp n = s.grp n := by simp [State.grp]
@[simp] theorem tick_filled : (s.filled code r).tick = s.tick := filled_tick code r s
@[simp] theorem filled_recCfn : (s.filled code r).recCfn = s.recCfn := by simp [State.recCfn]
@[simp] theorem filled_cfn : (s.filled code r).cfn = s.cfn := by simp [State.cfn]
@[simp] theorem filled_presentBank : (s.filled code r).presentBank = s.presentBank := by simp [State.presentBank]
@[simp] theorem filled_futureBank : (s.filled code r).futureBank = s.futureBank := by simp [State.futureBank]
@[simp] theorem filled_pastBank : (s.filled code r).pastBank = s.pastBank := by simp [State.pastBank]
@[simp] theorem filled_accepted : (s.filled code r).accepted = s.accepted := by simp [State.accepted]
@[simp] theorem filled_pond (n : Nat) : (s.filled code r).pond n = s.pond n := by simp [State.pond]

/-- A command that answers and changes nothing touches the exchange alone. -/
theorem frameBut_exchange {a : Ans} : FrameBut exchangeParts s (State.replied code r (a, s.filled code r)) :=
  frameBut_of_rest (by simp [exchangeParts])

/-- A question that is answered with OK and `n` bytes. -/
theorem reports_replied {l : List Part} {a : Ans} {n : Nat} (h0 : a.status = 0) (hn : a.payload.length = n) :
    Reports code r n l s (State.replied code r (a, s.filled code r)) := by
  refine ⟨a.payload, ?_, hn, frameBut_replied rfl⟩
  rw [← h0]
  exact answered_replied (a, s.filled code r)

/-- A command whose body only answers, with OK and `n` bytes. -/
theorem reports_mailboxRow {n : Nat} {l : List Part} (h : MbReady r s) (ha : Admitted code f r s) (hc : code ≠ 0x0104)
    (hs : (body r (s.filled code r)).2 = s.filled code r) (h0 : (body r (s.filled code r)).1.status = 0)
    (hn : (body r (s.filled code r)).1.payload.length = n) : Answers (mailboxRow code f body r s) fun t => Reports code r n l s t :=
  answers_mailboxRow h ha hc (a := (body r (s.filled code r)).1) (u := s.filled code r) (Prod.ext rfl hs) (reports_replied h0 hn)

/-- A doorbell of a ready mailbox is taken at once. -/
theorem ring_ready {run : Run} (h : MbReady r s) : s.ring code run r = (s.rung code r).exchange code run r := by
  obtain ⟨h1, h2, h3, h4, h5, h6, h7⟩ := h
  have hn : ¬ (s.box r.mb).state = .busy ∧ ¬ (s.box r.mb).state = .closed := by rcases h4 with h | h <;> rw [h] <;> simp
  have h8 : ¬ r.mb = 7 := by omega
  have hs : (s.rung code r).cpServes = true := by
    rw [← h5]
    unfold State.cpServes
    rw [State.rung_serving, State.rung_rst, State.rung_cps]
  have hw : (s.rung code r).mbx.waiting.any (Waiting.ripe (s.rung code r).tick) = false := by
    rw [State.rung_waiting]
    exact h7
  unfold State.ring
  simp [h8, hn, h6, hs, hw]

theorem exchange_bus {run : Run} : (s.exchange code run r).bus = (run r s).2.bus := by
  unfold State.exchange
  dsimp only
  split <;> rfl

/-- A form that names no object lets its body run where the request has the form. -/
theorem runForm_of_check (hp : s.rst.phase = .started) (hc : f.check r = none) (ho : f.object r s = true) (hd : s.denies r code = false) :
    runForm code f body r s = body r s := by
  unfold runForm
  simp [hp, hc, ho, hd]

end Sys2Proof.Machine
end

section
/-!
PROOFS. Facts of lists and tables that several commands share.
-/

namespace Sys2Proof.Machine

/-- Changing the entries of distinct keys, one after another. -/
theorem tget_foldl_tmod {α : Type} [DecidableEq α] (d : α) (f : α → α) (ns : List Nat) (hn : ns.Nodup) (t : Tbl α) (k : Nat) :
    tget d (ns.foldl (fun t n => tmod d t n f) t) k = if k ∈ ns then f (tget d t k) else tget d t k := by
  induction ns generalizing t with
  | nil => simp
  | cons n ns ih =>
    obtain ⟨hn', hs⟩ := List.nodup_cons.mp hn
    rw [List.foldl_cons, ih hs]
    by_cases h : k = n
    · subst h
      simp [hn', tget_tmod_same]
    · simp [h, tget_tmod_ne d t h]

theorem nodup_block (g n : Nat) : ((List.range n).map (g + ·)).Nodup :=
  List.nodup_range.map fun _ _ h => Nat.add_left_cancel h

theorem mem_block (g n k : Nat) : k ∈ (List.range n).map (g + ·) ↔ g ≤ k ∧ k < g + n := by
  simp only [List.mem_map, List.mem_range]
  constructor
  · rintro ⟨i, hi, rfl⟩
    omega
  · rintro ⟨h1, h2⟩
    exact ⟨k - g, by omega, by omega⟩

theorem flatMap_leBytes_length {α : Type} (l : List α) (n : Nat) (f : α → Nat) : (l.flatMap fun x => leBytes n (f x)).length = n * l.length := by
  induction l with
  | nil => rfl
  | cons x l ih => simp [leBytes_length, ih, Nat.mul_add, Nat.add_comm]

/-- What an event that leaves `u` answers. -/
theorem answers_event {c : Instr} {s u : State} {P : State → Prop} (h : exec c s = done u) (hp : P u.settle) : Answers (exec c s) P := by
  rw [h]
  exact (answers_done u P).mpr hp

/-- The frame of an event, by what its command changes. -/
theorem frameBut_done {l : List Part} {s u : State} (h : u.rest l = s.rest l) : FrameBut l s u.settle :=
  frameBut_of_rest ((State.rest_settle u).trans h)

@[simp] theorem settle_lane (s : State) (n : Nat) : s.settle.lane n = s.lane n := rfl
@[simp] theorem settle_grp (s : State) (n : Nat) : s.settle.grp n = s.grp n := rfl
@[simp] theorem settle_pond (s : State) (n : Nat) : s.settle.pond n = s.pond n := rfl
@[simp] theorem settle_box (s : State) (n : Nat) : s.settle.box n = s.box n := rfl

theorem cfnBytes_length (c : Cfn) : (cfnBytes c).length = 8 := leBytes_length ..

theorem le_padTo_length (n : Nat) (l : List Byte) : n ≤ (padTo n l).length := by
  simp [padTo]
  omega

end Sys2Proof.Machine
end

section
/-!
PROOFS. A DEV_RESET that is not answered: another one with the same sequence number waits for its function's release.
-/

namespace Sys2Proof.Machine

/-- DEV_RESET of kind 3 (a cold reset). -/
def coldResetRequest : MbReq := { mb := 5, seq := 5, flags := 0, status := 0, length := 4, payload := [3, 0, 0x6E, 0x6E] }

/-- MB5 ready, with an answer to the same mailbox and sequence number still owed to an earlier DEV_RESET. -/
def answerOwed : State :=
  ((State.reset.modRst fun x => { x with
    phase := .started, inReset := 0, variant := 1, funcAnswer := [⟨24, coldResetRequest.mb, coldResetRequest.seq, false⟩] }).modMbx fun m =>
      { m with serving := true }).modBox 5 fun b => { b with state := .idle }

theorem answerOwed_ready : MbReady coldResetRequest answerOwed ∧ Admitted 0x0104 devResetForm coldResetRequest answerOwed := by
  unfold Admitted MbReady; decide +zetaReduce

/-- The mailbox stays BUSY, for the response is held back for the earlier command's release (R403). -/
theorem answerOwed_busy : Answers (exec (.devReset coldResetRequest []) answerOwed) fun t => (t.box 5).state = .busy :=
  ⟨_, rfl, by decide⟩

end Sys2Proof.Machine

open Sys2Proof Sys2Proof.Machine

/-- Refutes O48: a cold reset asked for in a mailbox to which an answer of the same sequence number is owed gets no response. -/
theorem not_deviceCommands : ¬ Obligations.DeviceCommands := by
  unfold Obligations.DeviceCommands
  intro h
  obtain ⟨-, -, -, hreset, -⟩ := h
  obtain ⟨t, ht, ha, -⟩ := hreset coldResetRequest answerOwed [] answerOwed_ready.1 answerOwed_ready.2 (by decide)
  obtain ⟨u, hu, hb⟩ := answerOwed_busy
  cases hu.symm.trans ht
  exact absurd (ha.1.symm.trans hb) (by decide)

end

section
/-!
PROOFS. Groups and lanes by command.
-/

namespace Sys2Proof.Machine

/-- What GRP_CREATE leaves: the group, and its lanes started. -/
def grpCreated (r : MbReq) (s : State) : State :=
  let ns := (List.range (r.u8 1)).map (r.u8 0 + ·)
  let x := newGroup r s.tick
  let s := s.ungate (ns.foldl (fun m n => m ||| laneIslands n) 0)
  State.modSch (Sch.streamsChanged (groupStreams (r.u8 0) x))
    { s with grps := tins s.grps (r.u8 0) x, lanes := ns.foldl (fun t n => tmod {} t n (Lane.start .line x.rate s.tick)) s.lanes }

theorem grpCreateBody_free (r : MbReq) (s : State) (hl : ∀ i, i < r.u8 1 → (s.lane (r.u8 0 + i)).role = .off) (hu : s.pnd.unusable = []) :
    grpCreateBody r s = (.ok, grpCreated r s) := by
  unfold grpCreateBody
  rw [if_neg]
  · rfl
  · simpa [hu] using hl

theorem grpCreated_lane (r : MbReq) (s : State) (k : Nat) : (grpCreated r s).lane k =
    if r.u8 0 ≤ k ∧ k < r.u8 0 + r.u8 1 then Lane.start .line (newGroup r s.tick).rate s.tick (s.lane k) else s.lane k := by
  have := tget_foldl_tmod {} (Lane.start .line (newGroup r s.tick).rate s.tick) _ (nodup_block (r.u8 0) (r.u8 1)) s.lanes k
  simp only [mem_block] at this
  exact this

theorem grpCreated_grp (r : MbReq) (s : State) : (grpCreated r s).grp (r.u8 0) = some (newGroup r s.tick) := tfind_tins_same _ _ _

theorem grpCreate_replies (r : MbReq) (s : State) (h : MbReady r s) (ha : Admitted 0x0201 grpCreateForm r s)
    (hl : ∀ i, i < r.u8 1 → (s.lane (r.u8 0 + i)).role = .off) (hu : s.pnd.unusable = []) : Answers (exec (.grpCreate r) s) fun t =>
      Answered 0x0201 r 0 [] t ∧ t.grp (r.u8 0) = some (newGroup r s.tick) ∧
      (∀ i, i < r.u8 1 → (t.lane (r.u8 0 + i)).role = .line ∧ (t.lane (r.u8 0 + i)).state = .waitSignal) ∧
      (∀ k, k < r.u8 0 ∨ r.u8 0 + r.u8 1 ≤ k → t.lane k = s.lane k) ∧ FrameBut (exchangeParts ++ [.grps, .lanes, .sch, .pwr]) s t := by
  have hb := grpCreateBody_free r (s.filled 0x0201 r) (by simpa using hl) (by simpa using hu)
  refine answers_mailboxRow h ha (by decide) hb ⟨answered_replied _, ?_, fun i hi => ?_, fun k hk => ?_, frameBut_body hb (by simp [exchangeParts])⟩
  · simp [grpCreated_grp]
  · rw [replied_lane, grpCreated_lane, if_pos (by omega)]
    exact ⟨rfl, rfl⟩
  · rw [replied_lane, grpCreated_lane, if_neg (by omega), filled_lane]

/-- What GRP_DELETE leaves: no group, and its lanes off. -/
def grpDeleted (r : MbReq) (x : Grp) (s : State) : State :=
  State.modSch (Sch.streamsChanged (groupStreams (r.u8 0) x))
    { s with grps := tdel s.grps (r.u8 0), lanes := (List.range x.lanes).foldl (fun t i => tmod {} t (r.u8 0 + i) Lane.toOff) s.lanes }

theorem grpDeleteBody_unnamed (r : MbReq) (s : State) (x : Grp) (hx : s.grp (r.u8 0) = some x)
    (hn : ∀ k ∈ groupStreams (r.u8 0) x, s.presentBank.names k = false ∧ s.futureBank.names k = false) :
    grpDeleteBody r s = (.ok, grpDeleted r x s) := by
  unfold grpDeleteBody
  simp only [hx]
  rw [if_neg]
  · rfl
  · simpa using hn

theorem grpDeleted_lane (r : MbReq) (x : Grp) (s : State) (k : Nat) : (grpDeleted r x s).lane k =
    if r.u8 0 ≤ k ∧ k < r.u8 0 + x.lanes then (s.lane k).toOff else s.lane k := by
  have := tget_foldl_tmod {} Lane.toOff _ (nodup_block (r.u8 0) x.lanes) s.lanes k
  simp only [mem_block, List.foldl_map] at this
  exact this

theorem grpDeleted_grp (r : MbReq) (x : Grp) (s : State) : (grpDeleted r x s).grp (r.u8 0) = none := tfind_tdel_same _ _

theorem grpDelete_replies (r : MbReq) (s : State) (x : Grp) (h : MbReady r s) (ha : Admitted 0x0202 grpDeleteForm r s) (hx : s.grp (r.u8 0) = some x)
    (hn : ∀ k ∈ groupStreams (r.u8 0) x, s.presentBank.names k = false ∧ s.futureBank.names k = false) : Answers (exec (.grpDelete r) s) fun t =>
      Answered 0x0202 r 0 [] t ∧ t.grp (r.u8 0) = none ∧ (∀ i, i < x.lanes → (t.lane (r.u8 0 + i)).role = .off) ∧
      (∀ k, k < r.u8 0 ∨ r.u8 0 + x.lanes ≤ k → t.lane k = s.lane k) ∧ FrameBut (exchangeParts ++ [.grps, .lanes, .sch]) s t := by
  have hb := grpDeleteBody_unnamed r (s.filled 0x0202 r) x (by simpa using hx) (by simpa using hn)
  refine answers_mailboxRow h ha (by decide) hb ⟨answered_replied _, ?_, fun i hi => ?_, fun k hk => ?_, frameBut_body hb (by simp [exchangeParts])⟩
  · simp [grpDeleted_grp]
  · rw [replied_lane, grpDeleted_lane, if_pos (by omega)]
    rfl
  · rw [replied_lane, grpDeleted_lane, if_neg (by omega), filled_lane]

theorem grpStatus_reports (r : MbReq) (s : State) (x : Grp) (h : MbReady r s) (ha : Admitted 0x0203 grpStatusForm r s)
    (hx : s.grp (r.u8 0) = some x) (hl : x.lanes ≤ 16) : Answers (exec (.grpStatus r) s) fun t => Reports 0x0203 r 80 [] s t := by
  have hp (f : Nat → Nat) : (padTo 64 ((List.range x.lanes).flatMap fun i => leBytes 4 (f i))).length = 64 :=
    padTo_length (by rw [flatMap_leBytes_length, List.length_range]; omega)
  refine reports_mailboxRow h ha (by decide) ?_ ?_ ?_ <;> simp [grpStatusBody, hx, hp, leBytes_length]

theorem laneRetire_replies (r : MbReq) (s : State) (h : MbReady r s) (ha : Admitted 0x0204 laneRetireForm r s)
    (hl : (s.lane (r.u8 0)).role = .line) (hr : (s.lane (r.u8 0)).retired = false) (hr' : (s.lane (r.u8 0)).retiring = false) :
    Answers (exec (.laneRetire r) s) fun t =>
      Answered 0x0204 r 0 [] t ∧ t.lane (r.u8 0) = { s.lane (r.u8 0) with pend := some (.toRetired s.glb.cfn) } ∧ OnlyLane (r.u8 0) s t ∧
      FrameBut (exchangeParts ++ [.lanes]) s t := by
  have hb : laneRetireBody r (s.filled 0x0204 r) = (.ok, (s.filled 0x0204 r).modLane (r.u8 0) fun l =>
      if l.retiring then l else { l with pend := some (.toRetired (s.filled 0x0204 r).cfn) }) := by
    simp [laneRetireBody, hl, hr]
  refine answers_mailboxRow h ha (by decide) hb ⟨answered_replied _, ?_, fun k hk => ?_, frameBut_body hb (by simp [exchangeParts])⟩
  · simp [State.modLane_lane_same, hr', State.cfn]
  · simp [State.lane, tget_tmod_ne _ _ hk]

theorem laneReadmit_replies (r : MbReq) (s : State) (h : MbReady r s) (ha : Admitted 0x0205 laneReadmitForm r s)
    (hr : (s.lane (r.u8 0)).retired = true) : Answers (exec (.laneReadmit r) s) fun t =>
      Answered 0x0205 r 0 [] t ∧ t.lane (r.u8 0) = { s.lane (r.u8 0) with pend := some .readmit } ∧ OnlyLane (r.u8 0) s t ∧
      FrameBut (exchangeParts ++ [.lanes, .cps]) s t := by
  have hb : laneReadmitBody r (s.filled 0x0205 r) = (.ok, ((s.filled 0x0205 r).modLane (r.u8 0) fun l =>
      { l with pend := some .readmit }).unitRecord 6 5 (r.u8 0) 8 0 0xFFFF) := by
    simp [laneReadmitBody, hr]
  refine answers_mailboxRow h ha (by decide) hb ⟨answered_replied _, ?_, fun k hk => ?_, frameBut_body hb (by simp [exchangeParts])⟩
  · simp [State.lane, tget_tmod_same]
  · simp [State.lane, tget_tmod_ne _ _ hk]

theorem grpSetOptions_replies (r : MbReq) (s : State) (x : Grp) (h : MbReady r s) (ha : Admitted 0x0206 grpSetOptionsForm r s)
    (hx : s.grp (r.u8 0) = some x) : Answers (exec (.grpSetOptions r) s) fun t =>
      Answered 0x0206 r 0 [] t ∧
      t.grp (r.u8 0) = some { x with pendOpts := some (bitOf (r.u8 1) 0, bitOf (r.u8 1) 1, orDefault (r.u16 2) 128, orDefault (r.u32 4) 64) } ∧
      (∀ k, k ≠ r.u8 0 → t.grp k = s.grp k) ∧ FrameBut (exchangeParts ++ [.grps]) s t := by
  have hb : grpSetOptionsBody r (s.filled 0x0206 r) = (.ok, (s.filled 0x0206 r).modGrp (r.u8 0) fun g => { g with
      pendOpts := some (bitOf (r.u8 1) 0, bitOf (r.u8 1) 1, orDefault (r.u16 2) 128, orDefault (r.u32 4) 64) }) := by
    simp [grpSetOptionsBody, hx]
  refine answers_mailboxRow h ha (by decide) hb ⟨answered_replied _, ?_, fun k hk => ?_, frameBut_body hb (by simp [exchangeParts])⟩
  · rw [replied_grp, State.modGrp_grp_same, filled_grp, hx]
    rfl
  · rw [replied_grp, State.modGrp_grp_ne _ hk, filled_grp]

end Sys2Proof.Machine

open Sys2Proof Sys2Proof.Machine

/-- Settles O49: one lemma for each command. -/
theorem groupCommands : Obligations.GroupCommands := by
  unfold Obligations.GroupCommands
  exact ⟨grpCreate_replies, grpDelete_replies, grpStatus_reports, laneRetire_replies, laneReadmit_replies, grpSetOptions_replies⟩

end

section
/-!
PROOFS. Tributaries by command.
-/

namespace Sys2Proof.Machine

theorem maintBytes_length (t : Tbl W32) : (maintBytes t).length = 16 := by
  rw [maintBytes, flatMap_leBytes_length, List.length_range]

theorem CtxCfg.record_length (dir t : Nat) (c : CtxCfg) : (c.record dir t).length = 64 := by simp [CtxCfg.record, leBytes_length]

theorem trbStatus_reports (r : MbReq) (s : State) (h : MbReady r s) (ha : Admitted 0x0301 trbStatusForm r s) :
    Answers (exec (.trbStatus r) s) fun t => Reports 0x0301 r 96 [] s t := by
  refine reports_mailboxRow h ha (by decide) rfl rfl ?_
  unfold trbStatusBody
  by_cases hd : r.u8 0 = 0 <;> simp [hd, CtxCfg.record_length, maintBytes_length, leBytes_length]

theorem trbResize_replies (r : MbReq) (s : State) (h : MbReady r s) (ha : Admitted 0x0302 trbResizeForm r s)
    (hi : (tget ({} : CtxCfg) s.presentBank.ing (r.u16 0)).type = 7) (he : (tget ({} : CtxCfg) s.presentBank.eg (r.u16 2)).type = 7)
    (hi' : (tget ({} : CtxCfg) s.presentBank.ing (r.u16 0)).resize ≠ 0) (he' : (tget ({} : CtxCfg) s.presentBank.eg (r.u16 2)).resize ≠ 0)
    (hr : s.dp.running (r.u16 0) (r.u16 2) = none) : Answers (exec (.trbResize r) s) fun t =>
      Answered 0x0302 r 1 (cfnBytes s.recCfn) t ∧ t.dp = { s.dp with resizes := s.dp.resizes ++ [⟨r.u16 0, r.u16 2, 1, r.mb, r.seq⟩] } ∧
      FrameBut (exchangeParts ++ [.dp]) s t := by
  have hb : trbResizeBody r (s.filled 0x0302 r) = (s.accepted, (s.filled 0x0302 r).modDp fun d =>
      { d with resizes := d.resizes ++ [⟨r.u16 0, r.u16 2, 1, r.mb, r.seq⟩] }) := by
    unfold trbResizeBody
    simp only [filled_presentBank, filled_accepted, filled_dp, hi, he, hi', he', hr]
    rfl
  exact answers_mailboxRow h ha (by decide) hb ⟨answered_replied _, by simp, frameBut_body hb (by simp [exchangeParts])⟩

/-- A resize that ends is no longer running. -/
theorem Dp.running_endResize (d : Dp) (ing eg : Nat) : (d.endResize ing eg).running ing eg = none := by
  simp only [Dp.running, Dp.endResize, List.find?_eq_none, List.mem_filter]
  rintro z ⟨-, hz⟩ h
  simp [h] at hz

theorem finishResize_running (ing eg cause : Nat) (s : State) : (s.finishResize ing eg cause).dp.running ing eg = none := by
  unfold State.finishResize
  split
  next h => exact h
  next => simpa using Dp.running_endResize s.dp ing eg

theorem trbResizeAbort_replies (r : MbReq) (s : State) (z : Resize) (h : MbReady r s) (ha : Admitted 0x0303 trbResizeAbortForm r s)
    (hr : s.dp.running (r.u16 0) (r.u16 2) = some z) : Answers (exec (.trbResizeAbort r) s) fun t =>
      Answered 0x0303 r 1 (cfnBytes s.recCfn) t ∧ t.dp.running (r.u16 0) (r.u16 2) = none ∧ FrameBut (exchangeParts ++ [.dp]) s t := by
  have hb : trbResizeAbortBody r (s.filled 0x0303 r) =
      (s.accepted, ((s.filled 0x0303 r).finishResize (r.u16 0) (r.u16 2) 3).complete r.origin 0x0303 0 0 []) := by
    simp [trbResizeAbortBody, hr]
  exact answers_mailboxRow h ha (by decide) hb ⟨answered_replied _, by simp [finishResize_running], frameBut_body hb (by simp [exchangeParts])⟩

end Sys2Proof.Machine

open Sys2Proof Sys2Proof.Machine

/-- Settles O50: one lemma for each command. -/
theorem tributaryCommands : Obligations.TributaryCommands := by
  unfold Obligations.TributaryCommands
  exact ⟨trbStatus_reports, trbResize_replies, trbResizeAbort_replies⟩

end

section
/-!
PROOFS. A schedule load while a destructive march runs on the staging memory.
-/

namespace Sys2Proof.Machine

/-- An image of schedule ID 9 with one empty key section. -/
def emptyImage : List Byte :=
  leBytes 4 0x53474C53 ++ [1, 0, 0, 1] ++ leBytes 8 9 ++ List.replicate 10 0 ++ [1] ++ List.replicate 5 0 ++ leBytes 8 320 ++
  List.replicate 212 0 ++ leBytes 4 0xb86d7648 ++ leBytes 4 0x59454B43 ++ [1, 0, 0, 0] ++ leBytes 8 320 ++ List.replicate 48 0

/-- SCH_LOAD of the first descriptor. -/
def loadRequest : MbReq := { mb := 5, seq := 5, flags := 0, status := 0, length := 4, payload := [0, 0, 1, 0] }

/-- MB5 ready, the image's descriptor written, and a destructive march of the staging memory running. -/
def stagingMarch : State :=
  (((((State.reset.modRst fun x => { x with phase := .started, inReset := 0, variant := 1 }).modMbx fun m =>
    { m with serving := true }).modBox 5 fun b => { b with state := .idle }).modGlb fun g => { g with bme := true }).modSch fun c =>
      { c with descs := [(0, 4096), (2, 320), (3, 1)] }).modMem fun m => { m with marches := [{ memory := 2, destr := true, mb := 0, seq := 0 }] }

theorem stagingMarch_ready : MbReady loadRequest stagingMarch ∧ Admitted 0x0401 schLoadForm loadRequest stagingMarch := by
  unfold Admitted MbReady; decide +zetaReduce

/-- The CRC-32C register after the bytes of `l`. -/
def crcAfter (c : Nat) (l : List Byte) : Nat :=
  l.foldl (fun c b => ([0, 1, 2, 3, 4, 5, 6, 7] : List Nat).foldl
    (fun c _ => if c.testBit 0 then (c / 2) ^^^ 0x82F6_3B78 else c / 2) (c ^^^ b.toNat)) c

theorem crcAfter_append (c : Nat) (l m : List Byte) : crcAfter c (l ++ m) = crcAfter (crcAfter c l) m := List.foldl_append ..

theorem crc32c_eq (l : List Byte) : crc32c l = crcAfter 0xFFFFFFFF l ^^^ 0xFFFFFFFF := rfl

/-- The header of the image but for its CRC, in pieces that the kernel evaluates. -/
theorem emptyImage_slice : slice emptyImage 0 0xFC =
    slice emptyImage 0 0x54 ++ (slice emptyImage 0x54 0x54 ++ slice emptyImage 0xA8 0x54) := by decide +kernel

theorem emptyImage_crc : crc32c (slice emptyImage 0 0xFC) = 0xb86d7648 := by
  have h1 : crcAfter 0xFFFFFFFF (slice emptyImage 0 0x54) = 3606541866 := by decide +kernel
  have h2 : crcAfter 3606541866 (slice emptyImage 0x54 0x54) = 3889289802 := by decide +kernel
  have h3 : crcAfter 3889289802 (slice emptyImage 0xA8 0x54) = 1200785847 := by decide +kernel
  rw [crc32c_eq, emptyImage_slice, crcAfter_append, crcAfter_append, h1, h2, h3]
  decide

theorem emptyImage_headerOk : headerOk emptyImage = true := by
  have h : leAt emptyImage 0xFC 4 = 0xb86d7648 := by decide +kernel
  have h' : (leAt emptyImage 0 4 = 0x53474C53 && leAt emptyImage 4 1 = 1 && leAt emptyImage 6 2 = 0x100 && leAt emptyImage 0x19 1 ≤ 1 &&
    leAt emptyImage 0x1B 5 = 0 && allZero (slice emptyImage 0x30 16) && allZero (slice emptyImage 0x60 156)) = true := by decide +kernel
  unfold headerOk
  rw [emptyImage_crc, h, h']
  decide

/-- The load's first step accepts the image, whose section table holds one empty section. -/
theorem step1_emptyImage (s : State) (h : s.twin.index = 0) (total : Nat) (ht : 320 ≤ total) (stop : Bool) :
    step1 s { data := emptyImage, total := total, stop := stop } = none := by
  have h1 : emptyImage.length = 320 := by decide +kernel
  have h2 : (imgSize emptyImage, leAt emptyImage 0x18 1, imgId emptyImage, imgDelta emptyImage, leAt emptyImage 0x1A 1, leAt emptyImage 0x10 8) =
    (320, 0, 9, false, 1, 0) := by decide +kernel
  have h3 : (tableErr 320 288 [] (imgSections emptyImage)).isNone = true := by decide +kernel
  have h4 : ((imgSections emptyImage).any fun e => e.ty = tyCKEY && e.count > 0) = false := by decide +kernel
  simp only [Prod.mk.injEq] at h2
  obtain ⟨hs, hd, hi, hx, hn, hf⟩ := h2
  unfold step1
  simp [h1, hs, hd, hi, hx, hn, hf, h, h4, emptyImage_headerOk, Option.isNone_iff_eq_none.mp h3, ht]

theorem stagingMarch_delivery : deliver stagingMarch.sch.descs [(4096, emptyImage)] 0 1 = { data := emptyImage, total := 320, stop := true } := by
  have h1 : (deliver stagingMarch.sch.descs [(4096, emptyImage)] 0 1).data = emptyImage := by decide +kernel
  have h2 : (deliver stagingMarch.sch.descs [(4096, emptyImage)] 0 1).total = 320 := by decide +kernel
  have h3 : (deliver stagingMarch.sch.descs [(4096, emptyImage)] 0 1).stop = true := by decide +kernel
  have h4 : (deliver stagingMarch.sch.descs [(4096, emptyImage)] 0 1).fail = false := by decide +kernel
  cases h : deliver stagingMarch.sch.descs [(4096, emptyImage)] 0 1
  simp_all

/-- The load's body records an access to the staging memory that it cannot have (R379). -/
theorem schLoadBody_marched (s : State) (h1 : s.glb.bme = true) (h2 : s.futureBusy = false) (h3 : s.twin.index = 0)
    (h4 : s.sch.descs = stagingMarch.sch.descs) (h5 : s.stagingMarched = true) (h6 : s.bus.errInfo = 0) :
    (schLoadBody [(4096, emptyImage)] loadRequest s).2.bus.errInfo.getLsbD 31 = true := by
  have hd : deliver s.sch.descs [(4096, emptyImage)] (loadRequest.u16 0) (loadRequest.u16 2) = { data := emptyImage, total := 320, stop := true } := by
    rw [h4]
    exact stagingMarch_delivery
  have hs := step1_emptyImage s h3 320 le_rfl true
  have h31 : ¬ s.bus.errInfo.getLsbD 31 = true := by rw [h6]; decide
  unfold schLoadBody
  simp only [h1, h2, hd, hs, h5, Bool.not_true, Bool.false_eq_true, if_false, if_true, State.decodeError, h31, State.modSch_bus, State.modBus_bus]
  decide

theorem stagingMarch_load : Answers (exec (.schLoad loadRequest [(4096, emptyImage)]) stagingMarch) fun t => t.bus.errInfo.getLsbD 31 = true := by
  refine (answers_done _ _).mpr ?_
  have hr := ring_ready (code := 0x0401) (run := runForm 0x0401 schLoadForm (schLoadBody [(4096, emptyImage)])) stagingMarch_ready.1
  rw [hr, State.settle_bus, State.modMbx_bus, exchange_bus, runForm_of_check rfl rfl rfl rfl]
  exact schLoadBody_marched _ rfl rfl rfl rfl rfl rfl

end Sys2Proof.Machine

open Sys2Proof Sys2Proof.Machine

/-- Refutes O51: a load during a destructive march of the staging memory records a decode error besides. -/
theorem not_scheduleCommands : ¬ Obligations.ScheduleCommands := by
  unfold Obligations.ScheduleCommands
  intro h
  have hs : step1 stagingMarch (deliver stagingMarch.sch.descs [(4096, emptyImage)] 0 1) = none := by
    rw [stagingMarch_delivery]
    exact step1_emptyImage _ rfl 320 le_rfl true
  obtain ⟨t, ht, -, -, -, -, -, -, -, hf⟩ :=
    h.1 loadRequest [(4096, emptyImage)] stagingMarch stagingMarch_ready.1 stagingMarch_ready.2 rfl rfl hs
  obtain ⟨u, hu, hb⟩ := stagingMarch_load
  cases hu.symm.trans ht
  rw [hf .bus (by decide)] at hb
  exact absurd hb (by decide)

end

section
/-!
PROOFS. Conjugation by command, and the rate-notice pins.
-/

namespace Sys2Proof.Machine

/-- A notice for a group that has none. -/
theorem setNotice_first {g : Nat} {n : Notice} {s : State} {x : Grp} (hx : s.grp g = some x) (hn : x.notice = none) :
    s.setNotice g n = s.modGrp g fun r => { r with notice := some n } := by
  unfold State.setNotice
  simp [hx, hn]

theorem conjNotice_replies (r : MbReq) (s : State) (x : Grp) (i : Nat) (h : MbReady r s) (ha : Admitted 0x0501 conjNoticeForm r s)
    (hx : s.grp (r.u8 0) = some x) (hd : x.distributed = false) (hn : x.notice = none) (hm : s.noticeMode = true)
    (h2 : 2 ≤ (r.cfn 8 - s.glb.cfn).toNat) (h47 : (r.cfn 8 - s.glb.cfn).toNat < 2 ^ 47)
    (hi : (s.para (r.u8 0)).bind (·.keyed (r.u16 2)) = some i) : Answers (exec (.conjNotice r) s) fun t =>
      Answered 0x0501 r 1 (cfnBytes s.recCfn) t ∧
      t.grp (r.u8 0) = some { x with notice := some (Notice.of (r.cfn 8) i (r.u16 2) false r.mb r.seq) } ∧ FrameBut (exchangeParts ++ [.grps]) s t := by
  let f := s.filled 0x0501 r
  have hmode : s.glb.mode ≠ .mateFollow := by
    intro h
    simp [State.noticeMode, h] at hm
  have hm' : f.noticeMode = true := by simpa [f, State.noticeMode] using hm
  have hi' : (f.para (r.u8 0)).bind (·.keyed (r.u16 2)) = some i := by simpa [f, State.para] using hi
  have hx' : f.grp (r.u8 0) = some x := by simpa [f] using hx
  have hc : f.cfn = s.glb.cfn := filled_cfn
  have hb : conjNoticeBody r f = (s.accepted, f.modGrp (r.u8 0) fun g =>
      { g with notice := some (Notice.of (r.cfn 8) i (r.u16 2) false r.mb r.seq) }) := by
    unfold conjNoticeBody
    rw [if_neg (by simpa [f] using hmode), if_neg (by simp [hx', hd]), if_neg (by simp only [hm', hc, Bool.not_true, Bool.false_or, Bool.or_eq_true, decide_eq_true_eq]; omega), hi', setNotice_first hx' hn]
    simp [f]
  refine answers_mailboxRow h ha (by decide) hb ⟨answered_replied _, ?_, frameBut_body hb ?_⟩
  · simp [State.modGrp_grp_same, hx']
  · simp [exchangeParts]

theorem conjEvent_grp (code b6 : Nat) (n : Option Notice) (g old new m : Nat) (s : State) (k : Nat) :
    (s.conjEvent code b6 n g old new m).grp k = s.grp k := rfl

theorem conjCancel_replies (r : MbReq) (s : State) (x : Grp) (n : Notice) (h : MbReady r s) (ha : Admitted 0x0502 conjCancelForm r s)
    (hx : s.grp (r.u8 0) = some x) (hd : x.distributed = false) (hn : x.notice = some n) (_ : s.glb.mode ≠ .mateFollow) :
    Answers (exec (.conjCancel r) s) fun t =>
      Answered 0x0502 r 0 [] t ∧ t.grp (r.u8 0) = some { x with notice := none } ∧ FrameBut (exchangeParts ++ [.grps, .drawn]) s t := by
  have hx' : (s.filled 0x0502 r).grp (r.u8 0) = some x := by simpa using hx
  have hb : ∃ u, conjCancelBody r (s.filled 0x0502 r) = (.ok, u) ∧ u.grp (r.u8 0) = some { x with notice := none } := by
    unfold conjCancelBody
    simp only [hx', hd, hn, Option.isNone_some, Bool.false_eq_true, if_false]
    refine ⟨_, rfl, ?_⟩
    rw [conjEvent_grp, State.modGrp_grp_same]
    simp [State.grp] at hx' ⊢
    simp [hx']
  obtain ⟨u, hb, hu⟩ := hb
  exact answers_mailboxRow h ha (by decide) hb ⟨answered_replied _, hu, frameBut_body hb (by simp [exchangeParts])⟩

theorem conjPinCfg_replies (r : MbReq) (s : State) (h : MbReady r s) (ha : Admitted 0x0503 conjPinCfgForm r s) (hb : s.pwr.binds = [])
    (hf : tget 0 s.pwr.gpioFn (r.u8 0) = 0) (ht : (r.u8 0, false) ∉ s.pwr.pinsTaken) (hm : r.u8 2 ≠ 0) : Answers (exec (.conjPinCfg r) s) fun t =>
      Answered 0x0503 r 0 [] t ∧ tfind t.pwr.binds (r.u8 0) = some (r.u8 1, r.u8 2, r.u8 3, decide (r.u8 4 = 1)) ∧
      FrameBut (exchangeParts ++ [.pwr]) s t := by
  have hb : ∃ u, conjPinCfgBody r (s.filled 0x0503 r) = (.ok, u) ∧
      u.pwr.binds = tins [] (r.u8 0) (r.u8 1, r.u8 2, r.u8 3, decide (r.u8 4 = 1)) := by
    unfold conjPinCfgBody
    simp [hb, hf, ht, hm, tfind_nil]
  obtain ⟨u, hb, hu⟩ := hb
  refine answers_mailboxRow h ha (by decide) hb ⟨answered_replied _, ?_, frameBut_body hb (by simp [exchangeParts])⟩
  simp [hu, tfind_tins_same]

theorem conjStatus_replies (r : MbReq) (s : State) (h : MbReady r s) (ha : Admitted 0x0504 conjStatusForm r s) :
    Answers (exec (.conjStatus r) s) fun t => ∃ p, Answered 0x0504 r 0 p t ∧ 784 ≤ p.length ∧ FrameBut exchangeParts s t := by
  obtain ⟨x, hx⟩ := Option.isSome_iff_exists.mp ha.2.1
  have hb : ∃ p, conjStatusBody r (s.filled 0x0504 r) = (⟨0, p⟩, s.filled 0x0504 r) ∧ 784 ≤ p.length := by
    unfold conjStatusBody
    simp only [hx]
    refine ⟨_, rfl, ?_⟩
    have h512 := le_padTo_length 512
    have h256 := le_padTo_length 256 (x.hist.flatMap ConjHist.bytes)
    simp only [List.length_append, leBytes_length, cfnBytes_length, List.length_cons, List.length_nil]
    have := h512 (((((s.filled 0x0504 r).para (r.u8 0)).map (·.conjs.flatMap Conj.bytes)).getD []))
    omega
  obtain ⟨p, hb, hp⟩ := hb
  exact answers_mailboxRow h ha (by decide) hb ⟨p, answered_replied _, hp, frameBut_exchange⟩

theorem conjPinEdge_notice (s : State) (p g i : Nat) (r : Grp) (q : Para) (hp : tfind s.pwr.binds p = some (g, 1, i, false))
    (hrel : s.glb.released = true) (hr : s.grp g = some r) (hn : r.notice = none) (hd : r.distributed = false) (hq : s.para g = some q)
    (hm : s.noticeMode = true) (hi : i < q.conjs.length) : Answers (exec (.conjPinEdge p true) s) fun t =>
      t.grp g = some { r with notice := some (Notice.of (cfnAdd s.glb.cfn 2) i (q.mAt i) true 0xFF 0) } ∧ FrameBut [.grps] s t := by
  have he : execConjPinEdge p true s = done (s.setNotice g (Notice.of (cfnAdd s.cfn 2) i (q.mAt i) true 0xFF 0)) := by
    simp [execConjPinEdge, hp, hrel, hr, hd, hq, hm, hi]
  rw [setNotice_first hr hn] at he
  refine answers_event he ⟨?_, frameBut_done (by simp)⟩
  rw [settle_grp, State.modGrp_grp_same, hr]
  rfl

theorem conjPinEdge_ignored (s : State) (p g i : Nat) (r : Grp) (hp : tfind s.pwr.binds p = some (g, 1, i, false))
    (hrel : s.glb.released = true) (hr : s.grp g = some r) (hm : s.noticeMode = false) :
    Answers (exec (.conjPinEdge p true) s) fun t => t.grp g = some (r.conjFlag 0) ∧ FrameBut [.grps] s t := by
  have he : execConjPinEdge p true s = done (s.modGrp g (Grp.conjFlag 0)) := by
    cases hq : s.para g <;> simp [execConjPinEdge, hp, hrel, hr, hm, hq]
  refine answers_event he ⟨?_, frameBut_done (by simp)⟩
  rw [settle_grp, State.modGrp_grp_same, hr]
  rfl

theorem conjPinEdge_other (s : State) (p g m i : Nat) (r : Grp) (hp : tfind s.pwr.binds p = some (g, m, i, false)) (_ : s.grp g = some r) :
    Answers (exec (.conjPinEdge p false) s) fun t => FrameBut [] s t := by
  refine (answers_done _ _).mpr ?_
  simp only [hp]
  exact FrameBut.settle _ _

end Sys2Proof.Machine

open Sys2Proof Sys2Proof.Machine

/-- Settles O52: one lemma for each command and for each case of a pin's edge. -/
theorem conjugationCommands : Obligations.ConjugationCommands := by
  unfold Obligations.ConjugationCommands
  exact ⟨conjNotice_replies, conjCancel_replies, conjPinCfg_replies, conjStatus_replies, conjPinEdge_notice, conjPinEdge_ignored,
    conjPinEdge_other⟩

end

section
/-!
PROOFS. The filled state as an update of the mailboxes and the counters.
-/

namespace Sys2Proof.Machine

/-- What reads neither the mailboxes nor the counters reads the same of the filled state as before. -/
theorem exists_filled (code : Nat) (r : MbReq) (s : State) : ∃ m p, s.filled code r = { s with mbx := m, perf := p } := by
  unfold State.filled State.rung State.modBox State.modMbx
  exact ⟨_, _, rfl⟩

/-- Records of one size, one after another. -/
theorem length_flatMap_const {α : Type} (l : List α) {f : α → List Byte} {n : Nat} (h : ∀ x, (f x).length = n) :
    (l.flatMap f).length = n * l.length := by
  induction l with
  | nil => rfl
  | cons x l ih => simp [h, ih, Nat.mul_add, Nat.add_comm]

theorem Tim.modCand_cand_same (i : Nat) (f : Cand → Cand) (t : Tim) : (t.modCand i f).cand i = f (t.cand i) := tget_tmod_same ..

theorem Tim.modCand_cand_ne (i : Nat) {k : Nat} (h : k ≠ i) (f : Cand → Cand) (t : Tim) : (t.modCand i f).cand k = t.cand k :=
  tget_tmod_ne _ _ h _

theorem getLsbD_bit {w i j : Nat} : (BitVec.ofNat w (2 ^ i)).getLsbD j = (decide (j < w) && decide (i = j)) := by
  rw [BitVec.getLsbD_ofNat, Nat.testBit_two_pow]

theorem getLsbD_setBit_false_self {w : Nat} (v : BitVec w) (i : Nat) : (setBit v i false).getLsbD i = false := by
  simp only [setBit, Bool.false_eq_true, if_false, BitVec.getLsbD_and, BitVec.getLsbD_not, getLsbD_bit]
  by_cases h : i < w <;> simp [h]

theorem getLsbD_setBit_ne {w : Nat} (v : BitVec w) {i j : Nat} (h : j ≠ i) (b : Bool) : (setBit v i b).getLsbD j = v.getLsbD j := by
  cases b
  · simp only [setBit, Bool.false_eq_true, if_false, BitVec.getLsbD_and, BitVec.getLsbD_not, getLsbD_bit, h.symm, decide_false, Bool.and_false,
      Bool.not_false, Bool.and_true]
    by_cases hj : j < w
    · simp [hj]
    · simp [BitVec.getLsbD_of_ge v _ (Nat.le_of_not_lt hj)]
  · simp only [setBit, if_true, BitVec.getLsbD_or, getLsbD_bit, h.symm, decide_false, Bool.and_false, Bool.or_false]

/-- For PCIe the lower half of the register fabric, but for the key desk, is one target (R351). -/
theorem decode_fabric {a : Nat} (h : a < 0x1000000) (hk : a < 0xB0000 ∨ 0xC0000 ≤ a) (s : State) : s.decode .pcie a = (6, a) := by
  unfold State.decode fabricTarget
  rw [if_pos rfl, if_neg (by grind), if_neg (by grind), if_neg (by grind), if_neg (by grind), if_neg (by grind)]

/-- Outside the broadcast windows an address names one register (R353). -/
theorem aliasOf_none {a : Nat} (h : a < 0x200000 ∨ 0x22A000 ≤ a) : aliasOf a = none := by
  unfold aliasOf
  rw [if_neg (by grind), if_neg (by grind), if_neg (by grind)]

/-- A full-word write by PCIe of a register that no reset or gating hides is the register's own write and one grant (R5, R351, R356). -/
theorem busWrite_low {a : Nat} (ha : a % 4 = 0) (h : a < 0x1000000) (hk : a < 0xB0000 ∨ 0xC0000 ≤ a) (hl : a < 0x200000 ∨ 0x22A000 ≤ a) {s : State}
    (hs : s.rst.phase ≠ .inReset) (hr : s.unreachable a = none) (v : W32) :
    s.busWrite .pcie a 0xF v [] = (s.poke .pcie a v []).count (560 + busIndex .pcie) 1 := by
  have ht : s.targetWrite .pcie 6 a 0xF v [] = s.fabricWrite .pcie a 0xF v [] := by simp [State.targetWrite]
  rw [busWrite_aligned ha]
  unfold State.writeOne
  simp only [decode_fabric h hk, held_of_not_inReset hs, granted_fabric_write (.inl rfl), Bool.false_eq_true, if_false, Bool.not_true, ht,
    fabricWrite_reachable h (aliasOf_none hl) hr]

/-! The interrupt outputs are the only fields of the global block that follow a command (R360). -/

@[simp] theorem settle_mode (s : State) : s.settle.glb.mode = s.glb.mode := by rw [State.settle_glb]
@[simp] theorem settle_power (s : State) : s.settle.glb.power = s.glb.power := by rw [State.settle_glb]
@[simp] theorem settle_remap (s : State) : s.settle.glb.remap = s.glb.remap := by rw [State.settle_glb]
@[simp] theorem settle_released (s : State) : s.settle.glb.released = s.glb.released := by rw [State.settle_glb]
@[simp] theorem settle_cfn (s : State) : s.settle.glb.cfn = s.glb.cfn := by rw [State.settle_glb]
@[simp] theorem settle_tick (s : State) : s.settle.glb.tick = s.glb.tick := by rw [State.settle_glb]
@[simp] theorem settle_sec (s : State) : s.settle.glb.sec = s.glb.sec := by rw [State.settle_glb]
@[simp] theorem settle_secDue (s : State) : s.settle.glb.secDue = s.glb.secDue := by rw [State.settle_glb]
@[simp] theorem settle_triggers (s : State) : s.settle.glb.triggers = s.glb.triggers := by rw [State.settle_glb]
@[simp] theorem settle_intSticky (s : State) : s.settle.glb.intSticky = s.glb.intSticky := by rw [State.settle_glb]
@[simp] theorem settle_ppsSticky (s : State) : s.settle.glb.ppsSticky = s.glb.ppsSticky := by rw [State.settle_glb]
@[simp] theorem settle_ppsAligned (s : State) : s.settle.glb.ppsAligned = s.glb.ppsAligned := by rw [State.settle_glb]
@[simp] theorem settle_ppsCorr (s : State) : s.settle.glb.ppsCorr = s.glb.ppsCorr := by rw [State.settle_glb]
@[simp] theorem settle_ppsJudge (s : State) : s.settle.glb.ppsJudge = s.glb.ppsJudge := by rw [State.settle_glb]
@[simp] theorem settle_intEnable (s : State) : s.settle.glb.intEnable = s.glb.intEnable := by rw [State.settle_glb]
@[simp] theorem settle_accErrAddr (s : State) : s.settle.glb.accErrAddr = s.glb.accErrAddr := by rw [State.settle_glb]
@[simp] theorem settle_accErrInfo (s : State) : s.settle.glb.accErrInfo = s.glb.accErrInfo := by rw [State.settle_glb]
@[simp] theorem settle_bme (s : State) : s.settle.glb.bme = s.glb.bme := by rw [State.settle_glb]
@[simp] theorem settle_dmaSticky (s : State) : s.settle.glb.dmaSticky = s.glb.dmaSticky := by rw [State.settle_glb]
@[simp] theorem settle_quadFail (s : State) : s.settle.glb.quadFail = s.glb.quadFail := by rw [State.settle_glb]

end Sys2Proof.Machine
end

section
/-!
PROOFS. An EP_PLACE that finds no place on an empty schedule: a context may be wider than the traffic one engine can carry.
-/

namespace Sys2Proof.Machine

/-- EP_PLACE of one monitoring function at ingress context 0, on any island. -/
def placeRequest : MbReq :=
  { mb := 5, seq := 5, flags := 0, status := 0, length := 24
    payload := [1, 0, 0, 0, 0, 0, 0, 0, 0x20, 0, 0, 0, 2, 0, 0, 0, 0, 0, 0, 0, 0, 0, 0, 0] }

/-- MB5 ready, and context 0 of the Present bank with four million columns. -/
def wideContext : State :=
  (((State.reset.modRst fun x => { x with phase := .started, inReset := 0, variant := 1 }).modMbx fun m =>
    { m with serving := true }).modBox 5 fun b => { b with state := .idle }).modSch fun c =>
      { c with bank0 := { ing := [(0, { n := 4000000 })] } }

theorem wideContext_ready : MbReady placeRequest wideContext ∧ Admitted 0x0601 epPlaceForm placeRequest wideContext := by
  unfold Admitted MbReady; decide +zetaReduce

/-- No engine has headroom for a request that costs more than an engine can carry (R219). -/
theorem placeOne_costly (s : State) (free : Nat) (p : Placed) (q : List Byte) (h : 9728 < s.placeCost (leAt q 0 2) (slice q 4 8)) :
    s.placeOne free p q = none := by
  simp only [State.placeOne, List.findSome?_eq_none_iff]
  intro e _
  have : s.headroom p e (s.placeCost (leAt q 0 2) (slice q 4 8)) = false := by
    simp only [State.headroom, Bool.and_eq_false_iff, decide_eq_false_iff_not]
    omega
  rw [if_pos (by simp [this])]

theorem wideContext_placeAll (free : Nat) : wideContext.placeAll free (placeRequests placeRequest) = none := by
  have hp : placeRequests placeRequest = [placeRequest.bytes 8 16] := rfl
  have hc : 9728 < wideContext.placeCost (leAt (placeRequest.bytes 8 16) 0 2) (slice (placeRequest.bytes 8 16) 4 8) := by decide +kernel
  simp [State.placeAll, hp, placeOne_costly _ free [] _ hc]

theorem take_trange {α : Type} (d : α) (t : Tbl α) (base m n : Nat) : (trange d t base (m + n)).take m = trange d t base m := by
  simp [trange, ← List.map_take, List.take_range]

/-- The header of a response is the message header of its status. -/
theorem Answered.header {code st : Nat} {r : MbReq} {p : List Byte} {t : State} (h : Answered code r st p t) :
    trange 0 (t.box r.mb).resp 0 16 = msgHeader code r.seq p.length 0 st := by
  have hl : (msgHeader code r.seq p.length 0 st).length = 16 := by simp [msgHeader, leBytes_length]
  rw [← take_trange 0 _ 0 16 p.length, h.2.2, List.take_left' hl]

end Sys2Proof.Machine

open Sys2Proof Sys2Proof.Machine

/-- Refutes O53: one request of a context of four million columns finds no place on an empty schedule with every engine in service. -/
theorem not_endpointCommands : ¬ Obligations.EndpointCommands := by
  unfold Obligations.EndpointCommands
  intro h
  obtain ⟨-, hnone, hempty, -⟩ := h
  obtain ⟨hr, ha⟩ := wideContext_ready
  obtain ⟨t, ht, hs, -⟩ := hnone placeRequest wideContext hr ha (wideContext_placeAll _)
  obtain ⟨u, hu, p, hs', -⟩ := hempty placeRequest wideContext hr ha rfl rfl rfl
  cases hu.symm.trans ht
  exact absurd (hs'.header.symm.trans hs.header) (by simp [msgHeader, leBytes])

end

section
/-!
PROOFS. Protection groups by command.
-/

namespace Sys2Proof.Machine

theorem filled_topNow (code : Nat) (r : MbReq) (s : State) (n : Nat) : (s.filled code r).topNow n = s.topNow n := by
  obtain ⟨m, p, h⟩ := exists_filled code r s
  rw [h]
  rfl

theorem pgCommand_replies (r : MbReq) (s : State) (x : PgRun) (h : MbReady r s) (ha : Admitted 0x0701 pgCommandForm r s)
    (hm : s.glb.mode ≠ .mateFollow) (hx : tfind s.prot (r.u16 0) = some x) (hf : x.freeze = false ∨ r.u8 2 = 7)
    (hp : cmdPriority (r.u8 2) ≤ s.topNow (r.u16 0)) (h5 : r.u8 2 ≠ 5) : Answers (exec (.pgCommand r) s) fun t =>
      Answered 0x0701 r 0 [] t ∧ tfind t.prot (r.u16 0) = some { x with cmds := x.cmds ++ [r.u8 2] } ∧
      (∀ k, k ≠ r.u16 0 → tfind t.prot k = tfind s.prot k) ∧ FrameBut (exchangeParts ++ [.prot]) s t := by
  have hr : (s.filled 0x0701 r).pgRun (r.u16 0) = x := by simp [State.pgRun, hx]
  have hfr : ¬ (x.freeze && r.u8 2 != 7) = true := by rcases hf with hf | hf <;> simp [hf]
  have hb : pgCommandBody r (s.filled 0x0701 r) = (.ok, (s.filled 0x0701 r).modPg (r.u16 0) fun x => { x with cmds := x.cmds ++ [r.u8 2] }) := by
    unfold pgCommandBody
    simp only [filled_glb, filled_topNow, hr]
    rw [if_neg hm, if_neg hfr, if_neg (by omega), if_neg (by simp [h5])]
  refine answers_mailboxRow h ha (by decide) hb ⟨answered_replied _, ?_, fun k hk => ?_, frameBut_body hb (by simp [exchangeParts])⟩
  · simp [State.modPg, tfind_tupd_same, hx]
  · simp [State.modPg, tfind_tupd_ne, hk]

theorem pgCommand_refuses (r : MbReq) (s : State) (x : PgRun) (h : MbReady r s) (ha : Admitted 0x0701 pgCommandForm r s)
    (hm : s.glb.mode ≠ .mateFollow) (_ : tfind s.prot (r.u16 0) = some x) (hp : s.topNow (r.u16 0) < cmdPriority (r.u8 2)) :
    Answers (exec (.pgCommand r) s) fun t => Answered 0x0701 r 0x8003 [] t ∧ FrameBut exchangeParts s t := by
  have hb : pgCommandBody r (s.filled 0x0701 r) = (.badState, s.filled 0x0701 r) := by
    unfold pgCommandBody
    simp [filled_topNow, hm, hp]
  exact answers_mailboxRow h ha (by decide) hb ⟨answered_replied _, frameBut_exchange⟩

theorem pgStatus_reports (r : MbReq) (s : State) (h : MbReady r s) (ha : Admitted 0x0702 pgStatusForm r s) :
    Answers (exec (.pgStatus r) s) fun t => Reports 0x0702 r 43 [] s t :=
  reports_mailboxRow h ha (by decide) rfl rfl (by simp [pgStatusBody, leBytes_length, cfnBytes_length])

theorem pgList_empty (r : MbReq) (s : State) (h : MbReady r s) (ha : Admitted 0x0703 pgListForm r s) (hp : s.prot = []) :
    Answers (exec (.pgList r) s) fun t => Answered 0x0703 r 0 [0, 0, 0xFF, 0xFF] t ∧ FrameBut exchangeParts s t := by
  have hb : pgListBody r (s.filled 0x0703 r) = (⟨0, [0, 0, 0xFF, 0xFF]⟩, s.filled 0x0703 r) := by
    unfold pgListBody
    simp [hp, leBytes]
  exact answers_mailboxRow h ha (by decide) hb ⟨answered_replied _, frameBut_exchange⟩

end Sys2Proof.Machine

open Sys2Proof Sys2Proof.Machine

/-- Settles O54: one lemma for each clause. -/
theorem protectionCommands : Obligations.ProtectionCommands := by
  unfold Obligations.ProtectionCommands
  exact ⟨pgCommand_replies, pgCommand_refuses, pgStatus_reports, pgList_empty⟩

end

section
/-!
PROOFS. Keys by command.
-/

namespace Sys2Proof.Machine

theorem deskOwner_ne_zero (mb : Nat) : deskOwner mb ≠ 0 := by
  unfold deskOwner
  split <;> decide

theorem Key.modSlot_slot_same (n : Nat) (f : Slot → Slot) (k : Key) : (k.modSlot n f).slot n = f (k.slot n) := tget_tmod_same ..

theorem Key.modSlot_slot_ne (n : Nat) {m : Nat} (h : m ≠ n) (f : Slot → Slot) (k : Key) : (k.modSlot n f).slot m = k.slot m :=
  tget_tmod_ne _ _ h _

theorem keyLock_claims (r : MbReq) (s : State) (h : MbReady r s) (ha : Admitted 0x0801 keyLockForm r s) (h1 : r.u8 0 = 1) (ho : s.key.owner = 0) :
    Answers (exec (.keyLock r) s) fun t =>
      Answered 0x0801 r 0 [] t ∧ t.key = { s.key with owner := deskOwner r.mb } ∧ FrameBut (exchangeParts ++ [.key]) s t := by
  have hb : keyLockBody r (s.filled 0x0801 r) = (.ok, (s.filled 0x0801 r).modKey (Key.claim (deskOwner r.mb))) := by
    simp [keyLockBody, h1, ho, (deskOwner_ne_zero r.mb).symm]
  exact answers_mailboxRow h ha (by decide) hb ⟨answered_replied _, by simp [Key.claim, ho], frameBut_body hb (by simp [exchangeParts])⟩

theorem keyLock_releases (r : MbReq) (s : State) (h : MbReady r s) (ha : Admitted 0x0801 keyLockForm r s) (h1 : r.u8 0 = 2)
    (ho : s.key.owner = deskOwner r.mb) : Answers (exec (.keyLock r) s) fun t =>
      Answered 0x0801 r 0 [] t ∧ t.key = { s.key with owner := 0 } ∧ FrameBut (exchangeParts ++ [.key]) s t := by
  have hb : keyLockBody r (s.filled 0x0801 r) = (.ok, (s.filled 0x0801 r).modKey fun k => { k with owner := 0 }) := by
    simp [keyLockBody, h1, ho]
  exact answers_mailboxRow h ha (by decide) hb ⟨answered_replied _, by simp, frameBut_body hb (by simp [exchangeParts])⟩

/-- Without an unwrap fault both runs of the unwrapping agree. -/
theorem unwrap_clean (x : Rst) (l : List Byte) : x.unwrap l {} ≠ none := by
  unfold Rst.unwrap
  split <;> simp

theorem keyLoadBody_unwrapBad {e : FetchErrors} {r : MbReq} {s : State} (hu : s.rst.unwrap (r.bytes 8 48) e = some none) :
    keyLoadBody e r s = (.denied, s) := by simp [keyLoadBody, hu]

theorem keyLoadBody_unwrapped {e : FetchErrors} {r : MbReq} {s : State} {i : Bool} {x : Half} (hbl : s.key.blocked = false)
    (hc : s.loadsClosed = false) (ho : s.key.owner = deskOwner r.mb) (hi : (s.key.slot (r.u16 0)).loadHalf = some i)
    (hu : s.rst.unwrap (r.bytes 8 48) e = some (some x)) : keyLoadBody e r s =
      (⟨0, [BitVec.ofNat 8 (b2n i)]⟩, s.modKey (Key.modSlot (r.u16 0) fun z => { z with loadPend := some (i, x) })) := by
  simp [keyLoadBody, hu, hbl, hc, ho, hi]

theorem keyLoad_replies (r : MbReq) (s : State) (i : Bool) (h : MbReady r s) (ha : Admitted 0x0802 keyLoadForm r s)
    (hbl : s.key.blocked = false) (hc : s.loadsClosed = false) (ho : s.key.owner = deskOwner r.mb)
    (hi : (s.key.slot (r.u16 0)).loadHalf = some i) : Answers (exec (.keyLoad r {}) s) fun t =>
      (∀ h, s.rst.unwrap (r.bytes 8 48) {} = some (some h) → Answered 0x0802 r 0 [BitVec.ofNat 8 (b2n i)] t ∧
        t.key.slot (r.u16 0) = { s.key.slot (r.u16 0) with loadPend := some (i, h) }) ∧
      (s.rst.unwrap (r.bytes 8 48) {} = some none → Answered 0x0802 r 0x8005 [] t ∧ t.key = s.key) ∧
      (∀ k, k ≠ r.u16 0 → t.key.slot k = s.key.slot k) ∧ FrameBut (exchangeParts ++ [.key]) s t := by
  have hc' : (s.filled 0x0802 r).loadsClosed = false := by simpa [State.loadsClosed] using hc
  cases hu : s.rst.unwrap (r.bytes 8 48) {} with
  | none => exact absurd hu (unwrap_clean _ _)
  | some o =>
    cases o with
    | none =>
      have hb : keyLoadBody {} r (s.filled 0x0802 r) = (.denied, s.filled 0x0802 r) := keyLoadBody_unwrapBad (by simpa using hu)
      exact answers_mailboxRow h ha (by decide) hb
        ⟨by simp, fun _ => ⟨answered_replied _, by simp⟩, by simp, frameBut_body hb (by simp [exchangeParts])⟩
    | some x =>
      have hb : keyLoadBody {} r (s.filled 0x0802 r) = (⟨0, [BitVec.ofNat 8 (b2n i)]⟩,
          (s.filled 0x0802 r).modKey (Key.modSlot (r.u16 0) fun z => { z with loadPend := some (i, x) })) :=
        keyLoadBody_unwrapped (by simpa using hbl) hc' (by simpa using ho) (by simpa using hi) (by simpa using hu)
      refine answers_mailboxRow h ha (by decide) hb ⟨?_, by simp, fun k hk => ?_, frameBut_body hb (by simp [exchangeParts])⟩
      · rintro _ ⟨⟩
        exact ⟨answered_replied _, by simp [Key.modSlot_slot_same]⟩
      · simp [Key.modSlot_slot_ne _ hk]

theorem keyLoad_faults (r : MbReq) (s : State) (e : FetchErrors) (i : Bool) (h : MbReady r s) (ha : Admitted 0x0802 keyLoadForm r s)
    (hbl : s.key.blocked = false) (hc : s.loadsClosed = false) (ho : s.key.owner = deskOwner r.mb)
    (_ : (s.key.slot (r.u16 0)).loadHalf = some i) (hu : s.rst.unwrap (r.bytes 8 48) e = none) : Answers (exec (.keyLoad r e) s) fun t =>
      Answered 0x0802 r 0x8006 [] t ∧ t.key = { s.key with faults := satAdd s.key.faults 1 } ∧ FrameBut (exchangeParts ++ [.key]) s t := by
  have hc' : (s.filled 0x0802 r).loadsClosed = false := by simpa [State.loadsClosed] using hc
  have hb : keyLoadBody e r (s.filled 0x0802 r) = (.busy, (s.filled 0x0802 r).unwrapFault (r.u16 0)) := by
    simp [keyLoadBody, hu, hbl, hc', ho]
  exact answers_mailboxRow h ha (by decide) hb
    ⟨answered_replied _, by simp [State.unwrapFault], frameBut_body hb (by simp [exchangeParts])⟩

theorem keyLoad_blocked (r : MbReq) (s : State) (e : FetchErrors) (h : MbReady r s) (ha : Admitted 0x0802 keyLoadForm r s)
    (hbl : s.key.blocked = true) : Answers (exec (.keyLoad r e) s) fun t => Answered 0x0802 r 0x8005 [] t ∧ FrameBut exchangeParts s t := by
  have hb : keyLoadBody e r (s.filled 0x0802 r) = (.denied, s.filled 0x0802 r) := by simp [keyLoadBody, hbl]
  exact answers_mailboxRow h ha (by decide) hb ⟨answered_replied _, frameBut_exchange⟩

theorem activate_alone {s : State} (hl : s.twin.role ≠ .leader) (n : Nat) :
    s.activate n = s.modKey (Key.modSlot n fun x => { x with actPend := some (cfnAdd s.tick 1) }) := by
  unfold State.activate
  simp only [hl, if_false]
  rfl

theorem keyActivate_replies (r : MbReq) (s : State) (h : MbReady r s) (ha : Admitted 0x0803 keyActivateForm r s)
    (ho : s.key.owner = deskOwner r.mb) (hn : s.activateBad (r.u16 0) = false) (hl : s.twin.role ≠ .leader) :
    Answers (exec (.keyActivate r) s) fun t =>
      Answered 0x0803 r 0 [] t ∧ t.key.slot (r.u16 0) = { s.key.slot (r.u16 0) with actPend := some (cfnAdd s.tick 1) } ∧
      FrameBut (exchangeParts ++ [.key]) s t := by
  have hn' : (s.filled 0x0803 r).activateBad (r.u16 0) = false := by simpa [State.activateBad] using hn
  have hb : keyActivateBody r (s.filled 0x0803 r) = (.ok, (s.filled 0x0803 r).modKey
      (Key.modSlot (r.u16 0) fun x => { x with actPend := some (cfnAdd s.tick 1) })) := by
    simp [keyActivateBody, ho, hn', activate_alone, hl]
  exact answers_mailboxRow h ha (by decide) hb
    ⟨answered_replied _, by simp [Key.modSlot_slot_same], frameBut_replied (by simp [exchangeParts])⟩

theorem keyErase_replies (r : MbReq) (s : State) (h : MbReady r s) (ha : Admitted 0x0804 keyEraseForm r s)
    (ho : s.key.owner = deskOwner r.mb) : Answers (exec (.keyErase r) s) fun t =>
      Answered 0x0804 r 0 [] t ∧ t.key.slot (r.u16 0) = (s.key.slot (r.u16 0)).erase (decide (r.u8 2 = 2)) ∧
      (∀ k, k ≠ r.u16 0 → t.key.slot k = s.key.slot k) ∧ FrameBut (exchangeParts ++ [.key]) s t := by
  have hb : keyEraseBody r (s.filled 0x0804 r) =
      (.ok, (s.filled 0x0804 r).modKey (Key.modSlot (r.u16 0) (Slot.erase (r.u8 2 = 2)))) := by
    simp [keyEraseBody, ho]
  exact answers_mailboxRow h ha (by decide) hb ⟨answered_replied _, by simp [Key.modSlot_slot_same],
    fun k hk => by simp [Key.modSlot_slot_ne _ hk], frameBut_body hb (by simp [exchangeParts])⟩

theorem Half.bytes_length (x : Half) : x.bytes.length = 16 := rfl

theorem keyStatus_reports (r : MbReq) (s : State) (h : MbReady r s) (ha : Admitted 0x0805 keyStatusForm r s) (hb : s.key.binds = []) :
    Answers (exec (.keyStatus r) s) fun t => Reports 0x0805 r 56 [] s t :=
  reports_mailboxRow h ha (by decide) rfl rfl (by simp [keyStatusBody, hb, Half.bytes_length, padTo, leBytes_length])

theorem Key.pipeRecord_length (tick : Cfn) (k : Key) (p : Nat) : (k.pipeRecord tick p).length = 16 := by
  simp [Key.pipeRecord, padTo, leBytes_length]

theorem keyPipeStatus_reports (r : MbReq) (s : State) (h : MbReady r s) (ha : Admitted 0x0806 keyPipeStatusForm r s) :
    Answers (exec (.keyPipeStatus r) s) fun t => Reports 0x0806 r 288 [] s t :=
  reports_mailboxRow h ha (by decide) rfl rfl (by simp [keyPipeStatusBody, List.length_flatMap, Key.pipeRecord_length])

theorem keyPipeReadmit_replies (r : MbReq) (s : State) (h : MbReady r s) (ha : Admitted 0x0807 keyPipeReadmitForm r s)
    (hp : (s.key.pipe (pipeKey (r.u8 0) (r.u8 1) (r.u8 2))).state = 1) : Answers (exec (.keyPipeReadmit r) s) fun t =>
      Answered 0x0807 r 0 [] t ∧
      t.key.pipe (pipeKey (r.u8 0) (r.u8 1) (r.u8 2)) =
        { s.key.pipe (pipeKey (r.u8 0) (r.u8 1) (r.u8 2)) with state := 2, since := s.tick, events := 0, window := none } ∧
      FrameBut (exchangeParts ++ [.key, .cps]) s t := by
  let p := pipeKey (r.u8 0) (r.u8 1) (r.u8 2)
  have hb : keyPipeReadmitBody r (s.filled 0x0807 r) = (.ok, ((s.filled 0x0807 r).modKey
      (Key.modPipe p fun q => { q with state := 2, since := s.tick, events := 0, window := none })).unitRecord 3 5 p 8 0 0xFFFF) := by
    simp [keyPipeReadmitBody, hp, p]
  refine answers_mailboxRow h ha (by decide) hb ⟨answered_replied _, ?_, frameBut_body hb (by simp [exchangeParts])⟩
  simp [State.unitRecord, Key.modPipe, Key.pipe, tget_tmod_same, p]

end Sys2Proof.Machine

open Sys2Proof Sys2Proof.Machine

/-- Settles O55: one lemma for each clause. -/
theorem keyCommands : Obligations.KeyCommands := by
  unfold Obligations.KeyCommands
  exact ⟨keyLock_claims, keyLock_releases, keyLoad_replies, keyLoad_faults, keyLoad_blocked, keyActivate_replies, keyErase_replies,
    keyStatus_reports, keyPipeStatus_reports, keyPipeReadmit_replies⟩

end

section
/-!
PROOFS. Timing by command.
-/

namespace Sys2Proof.Machine

theorem timCfg_replies (r : MbReq) (s : State) (h : MbReady r s) (ha : Admitted 0x0901 timCfgForm r s) :
    Answers (exec (.timCfg r) s) fun t =>
      Answered 0x0901 r 0 [] t ∧ t.tim = { s.tim with cfgPend := s.tim.cfgPend ++ [r] } ∧ FrameBut (exchangeParts ++ [.tim]) s t := by
  have hb : timCfgBody r (s.filled 0x0901 r) = (.ok, (s.filled 0x0901 r).modTim fun t => { t with cfgPend := t.cfgPend ++ [r] }) := rfl
  exact answers_mailboxRow h ha (by decide) hb ⟨answered_replied _, by simp, frameBut_body hb (by simp [exchangeParts])⟩

theorem timCandCfg_replies (r : MbReq) (s : State) (h : MbReady r s) (ha : Admitted 0x0902 timCandCfgForm r s)
    (hl : r.u8 0 < 8 ∨ (s.lane ((r.u8 0 - 8) / 2 * 8 + r.u8 4)).role = .line) : Answers (exec (.timCandCfg r) s) fun t =>
      Answered 0x0902 r 0 [] t ∧ tfind t.tim.candPend (r.u8 0) = some r ∧ t.tim.cands = s.tim.cands ∧ FrameBut (exchangeParts ++ [.tim]) s t := by
  have hc : ¬ (8 ≤ r.u8 0 && ((s.filled 0x0902 r).lane ((r.u8 0 - 8) / 2 * 8 + r.u8 4)).role != .line) = true := by
    rcases hl with hl | hl <;> simp [hl]
  have hb : timCandCfgBody r (s.filled 0x0902 r) =
      (.ok, (s.filled 0x0902 r).modTim fun t => { t with candPend := tins t.candPend (r.u8 0) r }) := if_neg hc
  exact answers_mailboxRow h ha (by decide) hb
    ⟨answered_replied _, by simp [tfind_tins_same], by simp, frameBut_body hb (by simp [exchangeParts])⟩

theorem Cand.setQl_ql (q : BitVec 4) (c : Cand) : (c.setQl q).ql = q := by
  unfold Cand.setQl
  split
  next h => exact h
  next => rfl

theorem Tim.refreshQl_cand (t : Tim) (k : Nat) : t.refreshQl.cand k = t.cand k := by
  unfold Tim.refreshQl
  split <;> rfl

theorem timSetQl_replies (r : MbReq) (s : State) (h : MbReady r s) (ha : Admitted 0x0903 timSetQlForm r s) :
    Answers (exec (.timSetQl r) s) fun t =>
      Answered 0x0903 r 0 [] t ∧ (t.tim.cand (r.u8 0)).ql = BitVec.ofNat 4 (r.u8 1) ∧ (t.tim.cand (r.u8 0)).qlAt = some s.tick ∧
      (∀ k, k ≠ r.u8 0 → t.tim.cand k = s.tim.cand k) ∧ FrameBut (exchangeParts ++ [.tim]) s t := by
  have hb : ∃ u, timSetQlBody r (s.filled 0x0903 r) = (.ok, u) ∧
      (∀ k, u.tim.cand k = (s.tim.modCand (r.u8 0) fun c =>
        { (c.setQl (BitVec.ofNat 4 (r.u8 1))) with qlAt := some s.tick, hostVal := some (BitVec.ofNat 4 (r.u8 1)) }).cand k) := by
    refine ⟨_, rfl, fun k => ?_⟩
    simp [Tim.refreshQl_cand]
  obtain ⟨u, hb, hu⟩ := hb
  refine answers_mailboxRow h ha (by decide) hb ⟨answered_replied _, ?_, ?_, fun k hk => ?_, frameBut_body hb (by simp [exchangeParts, timSetQlBody])⟩
  · simp [hu, Tim.modCand_cand_same, Cand.setQl_ql]
  · simp [hu, Tim.modCand_cand_same]
  · simp [hu, Tim.modCand_cand_ne _ hk]

theorem timStatus_reports (r : MbReq) (s : State) (h : MbReady r s) (ha : Admitted 0x0904 timStatusForm r s) :
    Answers (exec (.timStatus r) s) fun t => Reports 0x0904 r 348 [.drawn] s t := by
  have hb : ∃ p u, timStatusBody r (s.filled 0x0904 r) = (⟨0, p⟩, u) ∧ p.length = 348 := by
    refine ⟨_, _, rfl, ?_⟩
    simp [leBytes_length, List.length_flatMap]
  obtain ⟨p, u, hb, hp⟩ := hb
  exact answers_mailboxRow h ha (by decide) hb ⟨p, answered_replied _, hp, frameBut_body hb (by simp [exchangeParts, timStatusBody])⟩

theorem TimHist.bytes_length (x : TimHist) : x.bytes.length = 16 := rfl

theorem timHistory_reports (r : MbReq) (s : State) (h : MbReady r s) (ha : Admitted 0x0905 timHistoryForm r s) (hh : s.tim.hist.length ≤ 32) :
    Answers (exec (.timHistory r) s) fun t => Reports 0x0905 r 512 [] s t := by
  refine reports_mailboxRow h ha (by decide) rfl rfl ?_
  have hl : (s.tim.hist.flatMap TimHist.bytes).length ≤ 512 := by
    rw [length_flatMap_const _ TimHist.bytes_length]
    omega
  unfold timHistoryBody
  simpa using padTo_length hl

theorem timSwap_replies (r : MbReq) (s : State) (h : MbReady r s) (ha : Admitted 0x0906 timSwapForm r s) (hs : s.swapReady = true) :
    Answers (exec (.timSwap r) s) fun t =>
      Answered 0x0906 r 0 [] t ∧ t.tim = { s.tim with swapPend := true } ∧ FrameBut (exchangeParts ++ [.tim]) s t := by
  obtain ⟨h1, h2⟩ : s.tuAligned = true ∧ s.tim.swapOk = true := by simpa [State.swapReady] using hs
  have h1' : (s.filled 0x0906 r).tuAligned = true := by simpa [State.tuAligned] using h1
  have hb : timSwapBody r (s.filled 0x0906 r) = (.ok, (s.filled 0x0906 r).modTim fun t => { t with swapPend := true }) := by
    simp [timSwapBody, h1', h2]
  exact answers_mailboxRow h ha (by decide) hb ⟨answered_replied _, by simp, frameBut_body hb (by simp [exchangeParts])⟩

end Sys2Proof.Machine

open Sys2Proof Sys2Proof.Machine

/-- Settles O56: one lemma for each command. -/
theorem timingCommands : Obligations.TimingCommands := by
  unfold Obligations.TimingCommands
  exact ⟨timCfg_replies, timCandCfg_replies, timSetQl_replies, timStatus_reports, timHistory_reports, timSwap_replies⟩

end

section
/-!
PROOFS. A preserving march of the token RAM on a device that has none.
-/

namespace Sys2Proof.Machine

/-- DIAG_MARCH of memory 0x18, preserving. -/
def tokenMarchRequest : MbReq := { mb := 5, seq := 5, flags := 0, status := 0, length := 2, payload := [0x18, 0] }

/-- MB5 ready on a device of variant 2. -/
def variant2Ready : State :=
  ((State.reset.modRst fun x => { x with phase := .started, inReset := 0, variant := 2 }).modMbx fun m =>
    { m with serving := true }).modBox 5 fun b => { b with state := .idle }

theorem variant2Ready_ready : MbReady tokenMarchRequest variant2Ready ∧ Admitted 0x0B01 diagMarchForm tokenMarchRequest variant2Ready := by
  unfold Admitted MbReady; decide +zetaReduce

/-- A device of variant 2 refuses to march memory 0x18. -/
theorem diagMarchBody_variant2 {r : MbReq} {s : State} (hm : s.mem.marches = []) (h8 : r.u8 0 = 0x18) (hv : s.rst.variant = 2) :
    diagMarchBody r s = (.badState, s) := by
  simp [diagMarchBody, hm, h8, hv]

theorem variant2Ready_march : Answers (exec (.diagMarch tokenMarchRequest) variant2Ready) fun t => t.mem.marches = [] :=
  answers_mailboxRow variant2Ready_ready.1 variant2Ready_ready.2 (by decide)
    (diagMarchBody_variant2 rfl rfl rfl) rfl

end Sys2Proof.Machine

open Sys2Proof Sys2Proof.Machine

/-- Refutes O57: DIAG_MARCH of memory 0x18 on a device of variant 2 starts nothing. -/
theorem not_powerAndDiagnosticCommands : ¬ Obligations.PowerAndDiagnosticCommands := by
  unfold Obligations.PowerAndDiagnosticCommands
  intro h
  obtain ⟨-, -, -, -, -, -, hmarch, -⟩ := h
  obtain ⟨t, ht, -, hm, -⟩ := hmarch tokenMarchRequest variant2Ready variant2Ready_ready.1 variant2Ready_ready.2 rfl rfl
  obtain ⟨u, hu, hn⟩ := variant2Ready_march
  cases hu.symm.trans ht
  rw [hm] at hn
  exact absurd hn (by simp)

end

section
/-!
PROOFS. Firmware by command.
-/

namespace Sys2Proof.Machine

theorem fwInfo_reports (r : MbReq) (s : State) (h : MbReady r s) (ha : Admitted 0x0C01 fwInfoForm r s) :
    Answers (exec (.fwInfo r) s) fun t => Reports 0x0C01 r 44 [] s t :=
  reports_mailboxRow h ha (by decide) rfl rfl (by simp [fwInfoBody, leBytes_length])

theorem fwWrite_replies (r : MbReq) (s : State) (h : MbReady r s) (ha : Admitted 0x0C02 fwWriteForm r s) (h0 : r.u8 0 = 0) (h1 : r.u8 1 = 1)
    (hf : s.flashStuck = false) : Answers (exec (.fwWrite r) s) fun t =>
      Answered 0x0C02 r 0 [] t ∧ t.cps.slot0.valid = false ∧ t.cps.slot0.data = tover 0xFF (r.u32 4) (r.data.drop 8) [] ∧ t.cps.slot1 = s.cps.slot1 ∧
      FrameBut (exchangeParts ++ [.cps]) s t := by
  have hf' : (s.filled 0x0C02 r).flashStuck = false := by simpa [State.flashStuck] using hf
  have hb : fwWriteBody r (s.filled 0x0C02 r) =
      (.ok, (s.filled 0x0C02 r).modCps (Cps.modSlot 0 (FwSlot.write true (r.u32 4) (r.data.drop 8)))) := by
    simp [fwWriteBody, h0, h1, hf', bitOf, Nat.testBit]
  exact answers_mailboxRow h ha (by decide) hb ⟨answered_replied _, by simp [Cps.modSlot, FwSlot.write], by simp [Cps.modSlot, FwSlot.write],
    by simp [Cps.modSlot], frameBut_replied (by simp [exchangeParts])⟩

theorem fwSelect_replies (r : MbReq) (s : State) (h : MbReady r s) (ha : Admitted 0x0C03 fwSelectForm r s)
    (hv : (s.cps.image (r.u8 0)).valid = true) (hf : s.flashStuck = false) : Answers (exec (.fwSelect r) s) fun t =>
      Answered 0x0C03 r 0 [] t ∧ t.cps.bootPtr0 = r.u8 0 ∧ t.cps.bootPtr1 = r.u8 0 ∧ FrameBut (exchangeParts ++ [.cps]) s t := by
  have hf' : (s.filled 0x0C03 r).flashStuck = false := by simpa [State.flashStuck] using hf
  have hb : ∃ u, fwSelectBody r (s.filled 0x0C03 r) = (.ok, u) ∧ u.cps.bootPtr0 = r.u8 0 ∧ u.cps.bootPtr1 = r.u8 0 := by
    simp [fwSelectBody, hv, hf']
  obtain ⟨u, hb, h0, h1⟩ := hb
  exact answers_mailboxRow h ha (by decide) hb ⟨answered_replied _, h0, h1, frameBut_body hb (by simp [exchangeParts])⟩

theorem fwSelect_refuses (r : MbReq) (s : State) (h : MbReady r s) (ha : Admitted 0x0C03 fwSelectForm r s)
    (hv : (s.cps.image (r.u8 0)).valid = false) : Answers (exec (.fwSelect r) s) fun t =>
      Answered 0x0C03 r 0x8007 [] t ∧ t.cps.bootPtr0 = s.cps.bootPtr0 ∧ FrameBut exchangeParts s t := by
  have hb : fwSelectBody r (s.filled 0x0C03 r) = (.invalid, s.filled 0x0C03 r) := by simp [fwSelectBody, hv]
  exact answers_mailboxRow h ha (by decide) hb ⟨answered_replied _, by simp, frameBut_exchange⟩

theorem Cps.modUnit_unit_same (pair unit : Nat) (f : UnitRun → UnitRun) (c : Cps) : (c.modUnit pair unit f).unit pair unit = f (c.unit pair unit) := by
  unfold Cps.modUnit Cps.unit
  by_cases hp : pair = 0 <;> by_cases hu : unit = 0 <;> simp [hp, hu]

theorem Cps.modUnit_frame (pair unit : Nat) (f : UnitRun → UnitRun) (c : Cps) :
    (c.modUnit pair unit f).update = c.update ∧ (c.modUnit pair unit f).active = c.active := by
  unfold Cps.modUnit
  by_cases hp : pair = 0 <;> by_cases hu : unit = 0 <;> simp [hp, hu]

theorem fwLiveUpdate_replies (r : MbReq) (s : State) (h : MbReady r s) (ha : Admitted 0x0C04 fwLiveUpdateForm r s) (hn : s.cps.update = none)
    (hc : s.coverReady 1 = true) (hv : (s.cps.image (r.u8 0)).valid = true) (hu : (s.cps.image (r.u8 0)).ucodeId = s.eng.ucodeId)
    (hj : (s.cps.image (r.u8 0)).journal = s.cps.jVersion) : Answers (exec (.fwLiveUpdate r) s) fun t =>
      Answered 0x0C04 r 1 (cfnBytes s.recCfn) t ∧ t.cps.update = some (r.u8 0, r.mb, r.seq) ∧ (t.cps.unit 1 (s.standbyOf 1)).state = .resync ∧
      t.cps.active = s.cps.active ∧ t.glb.remap = (setBit s.glb.remap (s.standbyOf 1) false) ∧ FrameBut (exchangeParts ++ [.glb, .cps]) s t := by
  have hst : (s.filled 0x0C04 r).standbyOf 1 = s.standbyOf 1 := by simp [State.standbyOf, State.activeOf]
  have hc' : (s.filled 0x0C04 r).coverReady 1 = true := by simpa [State.coverReady, hst] using hc
  have hb : ∃ u, fwLiveUpdateBody r (s.filled 0x0C04 r) = (s.accepted, u) ∧ u.glb.remap = setBit s.glb.remap (s.standbyOf 1) false ∧
      u.cps = Cps.modUnit 1 (s.standbyOf 1) (fun u => { u with state := .resync, since := s.tick })
        { s.cps with update := some (r.u8 0, r.mb, r.seq), updated := false, checkpoint := false } := by
    simp [fwLiveUpdateBody, hn, hc', hv, hu, hj, hst, State.restartCp]
  obtain ⟨u, hb, hr, hcps⟩ := hb
  obtain ⟨hup, hact⟩ := Cps.modUnit_frame 1 (s.standbyOf 1) (fun u => { u with state := .resync, since := s.tick })
    { s.cps with update := some (r.u8 0, r.mb, r.seq), updated := false, checkpoint := false }
  exact answers_mailboxRow h ha (by decide) hb ⟨answered_replied _, by simp [hcps, hup], by simp [hcps, Cps.modUnit_unit_same], by simp [hcps, hact],
    by simp [hr], frameBut_body hb (by simp [exchangeParts])⟩

/-- A request of MB0 in Shallows that is taken runs at once (R405). -/
theorem request_shallows {code : Nat} {run : Run} {r : MbReq} {s : State} (hp : s.rst.phase = .shallows) (hm : r.mb = 0)
    (hi : s.inReset 7 = false) (hst : (s.box 0).state = .idle ∨ (s.box 0).state = .done) (hs : s.cpServes = true) (hd : s.pert.bellDelay 0 = 0)
    (hw : s.mbx.waiting.any (Waiting.ripe s.tick) = false) : s.request code run r = (s.filled code r).exchange code run r := by
  have hh : s.held = false := by simp [State.held, hp]
  have hn : ¬ (s.box 0).state = .busy ∧ ¬ (s.box 0).state = .closed := by rcases hst with h | h <;> rw [h] <;> simp
  have hs' := (filled_serves code r s).trans hs
  have hw' : (s.filled code r).mbx.waiting.any (Waiting.ripe (s.filled code r).tick) = false := by rw [filled_waiting, filled_tick, hw]
  unfold State.filled at hs' hw' ⊢
  rw [hm] at hs' hw' ⊢
  unfold State.request State.ring
  simp [hm, hh, hi, fill_state, hn, hd, hs', hw']

theorem fwRecoverStart_replies (r : MbReq) (s : State) (hm : r.mb = 0) (hp : s.rst.phase = .shallows) (hmode : s.glb.mode = .shallows)
    (hi : s.inReset 7 = false) (hst : (s.box 0).state = .idle ∨ (s.box 0).state = .done) (hs : s.cpServes = true) (hd : s.pert.bellDelay 0 = 0)
    (hw : s.mbx.waiting.any (Waiting.ripe s.tick) = false) (ha : Admitted 0x0C05 fwRecoverStartForm r s) :
    Answers (exec (.fwRecoverStart r) s) fun t =>
      Answered 0x0C05 r 0 [] t ∧ t.rst = { s.rst with count := 0, recoverSlot := some (r.u8 0), devReset := some 9 } ∧
      FrameBut (exchangeParts ++ [.rst]) s t := by
  obtain ⟨hc, ho, hden⟩ := ha
  have hb : runForm 0x0C05 fwRecoverStartForm fwRecoverStartBody r (s.filled 0x0C05 r) = (.ok, (s.filled 0x0C05 r).modRst fun x =>
      { x with count := 0, recoverSlot := some (r.u8 0), devReset := some 9 }) := by
    unfold runForm
    simp [hp, recoveryCodes, hc, ho, denies_filled, hden, fwRecoverStartBody, hmode]
  have he : exec (.fwRecoverStart r) s = .next (State.replied 0x0C05 r (.ok, (s.filled 0x0C05 r).modRst fun x =>
      { x with count := 0, recoverSlot := some (r.u8 0), devReset := some 9 })) := by
    change mailboxRow 0x0C05 fwRecoverStartForm fwRecoverStartBody r s = _
    unfold mailboxRow done
    rw [request_shallows hp hm hi hst hs hd hw]
    unfold State.exchange State.runJournalled
    rw [hb]
    rfl
  rw [he]
  exact (answers_next _ _).mpr ⟨answered_replied _, by simp, frameBut_replied (by simp [exchangeParts])⟩

end Sys2Proof.Machine

open Sys2Proof Sys2Proof.Machine

/-- Settles O58: one lemma for each clause. -/
theorem firmwareCommands : Obligations.FirmwareCommands := by
  unfold Obligations.FirmwareCommands
  exact ⟨fwInfo_reports, fwWrite_replies, fwSelect_replies, fwSelect_refuses, fwLiveUpdate_replies, fwRecoverStart_replies⟩

end

section
/-!
PROOFS. The twin, the domain and the stitch lanes by command.
-/

namespace Sys2Proof.Machine

theorem filled_stitchMask (code : Nat) (r : MbReq) (s : State) (m : BitVec 128) : (s.filled code r).stitchMask m = s.stitchMask m := by
  simp [State.stitchMask, State.stitch]

theorem filled_lockedStitch (code : Nat) (r : MbReq) (s : State) : (s.filled code r).lockedStitch = s.lockedStitch := by
  funext n
  simp [State.lockedStitch, State.stitch]

theorem Twin.drive_role (t : Twin) : t.drive.role = t.role := rfl

theorem setRole_role (x : TwinRole) (c : Nat) (s : State) : (s.setRole x c).twin.role = x := by
  simp [State.setRole, State.twinFlag, Twin.drive_role]

theorem twinJoin_replies (r : MbReq) (s : State) (n : Nat) (h : MbReady r s) (ha : Admitted 0x0D01 twinJoinForm r s) (hr : s.twin.role = .solo)
    (hj : s.twin.joinAs = 0) (hc : s.changePending = false) (hd : s.sch.dataEnable = false) (hn : n ∈ s.twinLanes) (hl : s.lockedStitch n = true) :
    Answers (exec (.twinJoin r) s) fun t =>
      Answered 0x0D01 r 1 (cfnBytes s.recCfn) t ∧ t.twin.role = .joining ∧ t.twin.joinAs = r.u8 0 ∧ t.twin.joinFrom = some r.origin ∧
      FrameBut (exchangeParts ++ [.twin, .glb]) s t := by
  let f := s.filled 0x0D01 r
  have hc' : f.changePending = false := by simpa [f, State.changePending] using hc
  have hl' : f.twinLanes.any f.lockedStitch = true := by
    simp only [f, State.twinLanes, filled_stitchMask, filled_twin, filled_lockedStitch]
    exact List.any_eq_true.mpr ⟨n, hn, hl⟩
  have hb : ∃ u, twinJoinBody r f = (s.accepted, u) ∧ u.twin.role = .joining ∧ u.twin.joinAs = r.u8 0 ∧ u.twin.joinFrom = some r.origin := by
    unfold twinJoinBody
    simp [f, hr, TwinRole.joins, Twin.joining, hj, hc', hl', hd, setRole_role]
  obtain ⟨u, hb, h1, h2, h3⟩ := hb
  exact answers_mailboxRow h ha (by decide) hb ⟨answered_replied _, h1, h2, h3, frameBut_body hb (by simp [exchangeParts])⟩

theorem twinLeave_replies (r : MbReq) (s : State) (h : MbReady r s) (ha : Admitted 0x0D02 twinLeaveForm r s) (hr : s.twin.role ≠ .solo)
    (hm : s.glb.mode ≠ .mateFollow) : Answers (exec (.twinLeave r) s) fun t =>
      Answered 0x0D02 r 0 [] t ∧ t.twin = { s.twin with leave := true } ∧ FrameBut (exchangeParts ++ [.twin]) s t := by
  have hb : twinLeaveBody r (s.filled 0x0D02 r) = (.ok, (s.filled 0x0D02 r).modTwin fun t => { t with leave := true }) := by
    simp [twinLeaveBody, hr, State.leaveMate, hm]
  exact answers_mailboxRow h ha (by decide) hb ⟨answered_replied _, by simp, frameBut_replied (by simp [exchangeParts])⟩

theorem RoleHist.bytes_length (x : RoleHist) : x.bytes.length = 16 := rfl

theorem twinStatus_reports (r : MbReq) (s : State) (h : MbReady r s) (ha : Admitted 0x0D03 twinStatusForm r s) (hh : s.twin.hist.length ≤ 16) :
    Answers (exec (.twinStatus r) s) fun t => Reports 0x0D03 r 264 [] s t := by
  refine reports_mailboxRow h ha (by decide) rfl rfl ?_
  have hl : (s.twin.hist.flatMap RoleHist.bytes).length ≤ 256 := by
    rw [length_flatMap_const _ RoleHist.bytes_length]
    omega
  simp [twinStatusBody, leBytes_length, padTo_length hl]

theorem twinCfg_replies (r : MbReq) (s : State) (h : MbReady r s) (ha : Admitted 0x0D04 twinCfgForm r s) (hr : s.twin.role = .solo) :
    Answers (exec (.twinCfg r) s) fun t =>
      Answered 0x0D04 r 0 [] t ∧ t.twin = { s.twin with
        twinLanes := BitVec.ofNat 128 (r.fld 0 16), seniorCfg := r.u8 16, seniorSet := true, hbLoss := r.u8 17
        fsyncUse := decide (r.u8 18 = 1), compPs := r.s32 20 } ∧
      FrameBut (exchangeParts ++ [.twin]) s t := by
  have hb : twinCfgBody r (s.filled 0x0D04 r) = (.ok, (s.filled 0x0D04 r).modTwin fun t => { t with
      twinLanes := BitVec.ofNat 128 (r.fld 0 16), seniorCfg := r.u8 16, seniorSet := true, hbLoss := r.u8 17
      fsyncUse := decide (r.u8 18 = 1), compPs := r.s32 20 }) := by
    simp [twinCfgBody, hr]
  exact answers_mailboxRow h ha (by decide) hb ⟨answered_replied _, by simp, frameBut_replied (by simp [exchangeParts])⟩

theorem twinYield_replies (r : MbReq) (s : State) (h : MbReady r s) (ha : Admitted 0x0D05 twinYieldForm r s) (hr : s.twin.role = .leader)
    (hy : s.twin.yielding = none) : Answers (exec (.twinYield r) s) fun t =>
      Answered 0x0D05 r 0 [] t ∧ t.twin = { s.twin with yielding := some (cfnAdd s.tick 1) } ∧ FrameBut (exchangeParts ++ [.twin]) s t := by
  have hb : twinYieldBody r (s.filled 0x0D05 r) = (.ok, (s.filled 0x0D05 r).modTwin fun t => { t with yielding := some (cfnAdd s.tick 1) }) := by
    simp [twinYieldBody, State.startYield, hr, hy]
  exact answers_mailboxRow h ha (by decide) hb ⟨answered_replied _, by simp, frameBut_replied (by simp [exchangeParts])⟩

theorem domCfg_replies (r : MbReq) (s : State) (h : MbReady r s) (ha : Admitted 0x0D10 domCfgForm r s) (hi : s.sch.armState = .idle)
    (hd : s.sch.dataEnable = false) : Answers (exec (.domCfg r) s) fun t =>
      Answered 0x0D10 r 0 [] t ∧ t.twin.index = BitVec.ofNat 6 (r.u8 0) ∧ t.twin.domLanes = BitVec.ofNat 128 (r.fld 8 16) ∧ t.twin.role = s.twin.role ∧
      FrameBut (exchangeParts ++ [.twin]) s t := by
  have hb : ∃ u, domCfgBody r (s.filled 0x0D10 r) = (.ok, u) ∧ u.twin.index = BitVec.ofNat 6 (r.u8 0) ∧
      u.twin.domLanes = BitVec.ofNat 128 (r.fld 8 16) ∧ u.twin.role = s.twin.role := by
    simp [domCfgBody, hi, hd]
  obtain ⟨u, hb, h1, h2, h3⟩ := hb
  exact answers_mailboxRow h ha (by decide) hb ⟨answered_replied _, h1, h2, h3, frameBut_body hb (by simp [exchangeParts])⟩

theorem domStatus_reports (r : MbReq) (s : State) (h : MbReady r s) (ha : Admitted 0x0D11 domStatusForm r s) :
    Answers (exec (.domStatus r) s) fun t => Reports 0x0D11 r (8 + 16 * s.domainLanes.length) [] s t := by
  refine reports_mailboxRow h ha (by decide) rfl rfl ?_
  have hl : (s.filled 0x0D11 r).domainLanes = s.domainLanes := by simp [State.domainLanes, filled_stitchMask]
  unfold domStatusBody
  simp only [hl, List.length_append]
  rw [length_flatMap_const (n := 16)]
  · rfl
  · intro n
    simp [leBytes_length, cfnBytes_length]

theorem laneMask_nodup (r : MbReq) : (laneMask r).Nodup := List.nodup_range.filter _

theorem ungate_tick (m : Nat) (s : State) : (s.ungate m).tick = s.tick := rfl

theorem ungate_lanes (m : Nat) (s : State) : (s.ungate m).lanes = s.lanes := rfl

theorem stcLaneSet_replies (r : MbReq) (s : State) (h : MbReady r s) (ha : Admitted 0x0D20 stcLaneSetForm r s)
    (hl : ∀ n ∈ laneMask r, (s.lane n).role ≠ .line) (hu : s.pnd.unusable = []) : Answers (exec (.stcLaneSet r) s) fun t =>
      Answered 0x0D20 r 0 [] t ∧ (∀ n ∈ laneMask r, (t.lane n).role = .stitch) ∧ (∀ n, n ∉ laneMask r → t.lane n = s.lane n) ∧
      FrameBut (exchangeParts ++ [.lanes, .sch, .pwr]) s t := by
  let new := (laneMask r).filter fun n => (s.lane n).role = .off
  have hn : ((laneMask r).any fun n => decide (((s.filled 0x0D20 r).lane n).role = .line) || (s.filled 0x0D20 r).pnd.unusable.contains n) = false := by
    simpa [hu] using hl
  have hb : ∃ u, stcLaneSetBody r (s.filled 0x0D20 r) = (.ok, u) ∧
      u.lanes = new.foldl (fun t n => tmod {} t n (Lane.start .stitch 2 s.tick)) s.lanes := by
    unfold stcLaneSetBody
    rw [if_neg (by rw [hn]; simp)]
    exact ⟨_, rfl, by simp [new, ungate_tick, ungate_lanes]⟩
  obtain ⟨u, hb, hlanes⟩ := hb
  have hlane (n : Nat) : u.lane n = if n ∈ new then Lane.start .stitch 2 s.tick (s.lane n) else s.lane n := by
    unfold State.lane
    rw [hlanes]
    exact tget_foldl_tmod _ _ _ ((laneMask_nodup r).filter _) _ _
  refine answers_mailboxRow h ha (by decide) hb ⟨answered_replied _, fun n hm => ?_, fun n hm => ?_, frameBut_body hb (by simp [exchangeParts])⟩
  · rw [replied_lane, hlane]
    split
    next => rfl
    next ho =>
      have hoff : (s.lane n).role ≠ .off := fun h => ho (List.mem_filter.mpr ⟨hm, by simpa using h⟩)
      cases hr : (s.lane n).role with
      | off => exact absurd hr hoff
      | line => exact absurd hr (hl n hm)
      | stitch => rfl
  · rw [replied_lane, hlane, if_neg fun h => hm (List.mem_filter.mp h).1]

/-- The lanes of `l` turned off. -/
def State.lanesOff (l : List Nat) (s : State) : State :=
  { s with lanes := l.foldl (fun t n => tmod {} t n Lane.toOff) s.lanes }.modSch (Sch.streamsChanged l)

theorem lanesOff_lane (l : List Nat) (hl : l.Nodup) (s : State) (n : Nat) :
    (s.lanesOff l).lane n = if n ∈ l then Lane.toOff (s.lane n) else s.lane n :=
  tget_foldl_tmod _ _ l hl _ n

theorem lanesOff_rest {ps : List Part} (h1 : .lanes ∈ ps) (h2 : .sch ∈ ps) (l : List Nat) (s : State) : (s.lanesOff l).rest ps = s.rest ps := by
  simp [State.lanesOff, h1, h2]

theorem Sch.streamsChanged_armed (l : List Nat) (c : Sch) : (c.streamsChanged l).armed = c.armed := by
  unfold Sch.streamsChanged
  split <;> rfl

theorem deferArmed_none {s : State} (h : s.sch.armed = none) (c : Nat) : s.deferArmed c = s := by
  simp [State.deferArmed, h]

theorem stcLaneReleaseBody_ok {r : MbReq} {s : State}
    (hl : ∀ n ∈ laneMask r, s.stitch n = true ∧ s.presentBank.names n = false ∧ s.futureBank.names n = false) (hd : s.sch.armed = none) :
    stcLaneReleaseBody r s = (.ok, s.lanesOff (laneMask r)) := by
  have hn : ((laneMask r).any fun n => !s.stitch n || s.presentBank.names n || s.futureBank.names n) = false := by
    rw [List.any_eq_false]
    intro n hm
    simp [hl n hm]
  have hv : (s.lanesOff (laneMask r)).deferArmed 5 = s.lanesOff (laneMask r) :=
    deferArmed_none ((Sch.streamsChanged_armed ..).trans hd) 5
  unfold stcLaneReleaseBody
  rw [if_neg (by rw [hn]; simp)]
  unfold State.lanesOff at hv ⊢
  simp only [hv, ite_self]

theorem stcLaneRelease_replies (r : MbReq) (s : State) (h : MbReady r s) (ha : Admitted 0x0D21 stcLaneReleaseForm r s)
    (hl : ∀ n ∈ laneMask r, s.stitch n = true ∧ s.presentBank.names n = false ∧ s.futureBank.names n = false) (hd : s.sch.armed = none) :
    Answers (exec (.stcLaneRelease r) s) fun t =>
      Answered 0x0D21 r 0 [] t ∧ (∀ n ∈ laneMask r, (t.lane n).role = .off) ∧ (∀ n, n ∉ laneMask r → t.lane n = s.lane n) ∧
      FrameBut (exchangeParts ++ [.lanes, .sch]) s t := by
  have hb : stcLaneReleaseBody r (s.filled 0x0D21 r) = (.ok, (s.filled 0x0D21 r).lanesOff (laneMask r)) :=
    stcLaneReleaseBody_ok (by simpa [State.stitch] using hl) (by simpa using hd)
  have hlane (n : Nat) : ((s.filled 0x0D21 r).lanesOff (laneMask r)).lane n = if n ∈ laneMask r then Lane.toOff (s.lane n) else s.lane n := by
    rw [lanesOff_lane _ (laneMask_nodup r), filled_lane]
  refine answers_mailboxRow h ha (by decide) hb ⟨answered_replied _, fun n hm => ?_, fun n hm => ?_, frameBut_replied ?_⟩
  · rw [replied_lane, hlane, if_pos hm]
    rfl
  · rw [replied_lane, hlane, if_neg hm]
  · exact lanesOff_rest (by simp [exchangeParts]) (by simp [exchangeParts]) _ _

end Sys2Proof.Machine

open Sys2Proof Sys2Proof.Machine

/-- Settles O59: one lemma for each command. -/
theorem twinCommands : Obligations.TwinCommands := by
  unfold Obligations.TwinCommands
  exact ⟨twinJoin_replies, twinLeave_replies, twinStatus_reports, twinCfg_replies, twinYield_replies, domCfg_replies, domStatus_reports,
    stcLaneSet_replies, stcLaneRelease_replies⟩

end

section
/-!
PROOFS. Reset sources.
-/

namespace Sys2Proof.Machine

/-- A reset is cold where it is asked for so, or where one begins while a cold reset is held. -/
def State.coldAt (cold : Bool) (s : State) : Bool := cold || (decide (s.rst.phase = .inReset) && s.rst.coldKind)

theorem assertReset_rst (cold : Bool) (src : Nat) (s : State) :
    (s.assertReset cold src).rst = s.rst.reset (s.coldAt cold) src s.glb.mode := rfl

theorem assertReset_tim (cold : Bool) (src : Nat) (s : State) : (s.assertReset cold src).tim = keep (s.coldAt cold) {} s.tim.rebase := rfl

theorem rstCtrl_cold {s : State} {v : W32} (hp : s.rst.powered = true) (hk : fld v.toNat 16 16 = 0x6E6E) (hc : v.getLsbD 1 = true) :
    s.rstCtrl v = s.assertReset true 2 := by
  simp [State.rstCtrl, hp, hk, hc]

theorem rstCtrl_warm {s : State} {v : W32} (hp : s.rst.powered = true) (hk : fld v.toNat 16 16 = 0x6E6E) (hc : v.getLsbD 1 = false)
    (hw : v.getLsbD 0 = true) : s.rstCtrl v = s.assertReset false 4 := by
  unfold State.rstCtrl
  rw [if_neg (by simp [hp, hk]), if_neg (by simp only [hc, Bool.false_eq_true, not_false_eq_true]), if_pos hw]

theorem powerOn_clears (s : State) : Answers (exec .powerOn s) fun t =>
    t.rst.phase = .inReset ∧ t.rst.coldKind = true ∧ t.rst.powered = true ∧ t.rst.lastSrc = 0 ∧ t.rst.count = 0 ∧ t.rst.failCause = 0 ∧
    t.sch = {} ∧ t.lanes = [] ∧ t.tim = {} ∧ t.mbx = {} ∧ t.key.slots = [] :=
  ⟨_, rfl, rfl, rfl, rfl, rfl, rfl, rfl, rfl, rfl, rfl, rfl, rfl⟩

theorem resetNAssert_clears (s : State) (hp : s.rst.powered = true) : Answers (exec .resetNAssert s) fun t =>
    t.rst.phase = .inReset ∧ t.rst.coldKind = true ∧ t.rst.lastSrc = 1 ∧ t.rst.count = s.rst.count ∧ t.rst.failCause = s.rst.failCause ∧
    t.rst.fuse0 = s.rst.fuse0 ∧ t.sch = {} ∧ t.lanes = [] ∧ t.tim = {} ∧ t.twin = {} ∧ t.mem = {} := by
  have he : execResetNAssert s = done (s.assertReset true 1) := by simp [execResetNAssert, hp]
  exact answers_event he ⟨rfl, rfl, rfl, rfl, rfl, rfl, rfl, rfl, rfl, rfl, rfl⟩

theorem hostColdReset_clears (s : State) (v : W32) (hp : s.rst.powered = true) (hk : fld v.toNat 16 16 = 0x6E6E) (hc : v.getLsbD 1 = true) :
    Answers (exec (.hostColdReset v) s) fun t =>
      t.rst.phase = .inReset ∧ t.rst.coldKind = true ∧ t.rst.lastSrc = 2 ∧ t.rst.count = s.rst.count ∧ t.sch = {} ∧ t.tim = {} :=
  answers_event (congrArg done (rstCtrl_cold hp hk hc)) ⟨rfl, rfl, rfl, rfl, rfl, rfl⟩

theorem hostWarmReset_keeps (s : State) (v : W32) (hp : s.rst.powered = true) (hph : s.rst.phase ≠ .inReset) (hk : fld v.toNat 16 16 = 0x6E6E)
    (hc : v.getLsbD 1 = false) (hw : v.getLsbD 0 = true) : Answers (exec (.hostWarmReset v) s) fun t =>
      t.rst.phase = .inReset ∧ t.rst.coldKind = false ∧ t.rst.lastSrc = 4 ∧ t.rst.count = s.rst.count ∧ t.rst.shadowOk = s.rst.shadowOk ∧
      t.rst.kek = s.rst.kek ∧ t.tim.state = s.tim.state ∧ t.tim.estimate = s.tim.estimate ∧ t.tim.selCtrl = s.tim.selCtrl ∧
      t.sch = {} ∧ t.lanes = [] ∧ t.twin = {} ∧ t.mem = {} ∧ t.key.slots = [] := by
  refine answers_event (congrArg done (rstCtrl_warm hp hk hc hw)) ?_
  have hcold : s.coldAt false = false := by simp [State.coldAt, hph]
  simp only [State.settle_rst, State.settle_tim, State.settle_sch, State.settle_lanes, State.settle_twin, State.settle_mem, State.settle_key,
    assertReset_rst, assertReset_tim, hcold, assertReset_sch, assertReset_lanes, assertReset_twin, assertReset_mem, assertReset_slots, and_true]
  exact ⟨rfl, rfl, rfl, rfl, rfl, rfl, rfl, rfl, rfl⟩

theorem devResetStart_cold (s : State) (h : s.rst.devReset = some 3) : Answers (exec .devResetStart s) fun t =>
    t.rst.lastSrc = 2 ∧ t.rst.phase = .inReset ∧ t.rst.coldKind = true := by
  have he : execDevResetStart s = done (s.assertReset true 2) := by simp [execDevResetStart, h]
  exact answers_event he ⟨rfl, rfl, rfl⟩

theorem devResetStart_warm (s : State) (h : s.rst.devReset = some 2) : Answers (exec .devResetStart s) fun t =>
    t.rst.lastSrc = 4 ∧ t.rst.phase = .inReset := by
  have he : execDevResetStart s = done (s.assertReset false 4) := by simp [execDevResetStart, h]
  exact answers_event he ⟨rfl, rfl⟩

theorem devResetStart_recovery (s : State) (h : s.rst.devReset = some 9) : Answers (exec .devResetStart s) fun t =>
    t.rst.lastSrc = 9 ∧ t.rst.phase = .inReset ∧ t.rst.recoverSlot = s.rst.recoverSlot := by
  have he : execDevResetStart s = done ((s.assertReset false 9).modRst fun r => { r with recoverSlot := s.rst.recoverSlot }) := by
    simp [execDevResetStart, h]
  exact answers_event he ⟨rfl, rfl, rfl⟩

/-- What is held in fuses and flash outlives the supply. -/
theorem powerDown_keeps (s : State) : Answers (exec .powerDown s) fun t =>
    t.rst.powered = false ∧ t.rst.ioHold = true ∧ t.rst.fuse0 = s.rst.fuse0 ∧ t.rst.fuse1 = s.rst.fuse1 ∧ t.cps.slot0 = s.cps.slot0 ∧
    t.cps.slot1 = s.cps.slot1 ∧ t.cps.bootPointer = s.cps.bootPointer ∧ t.lanes = [] ∧ t.sch = {} :=
  ⟨_, rfl, rfl, rfl, rfl, rfl, rfl, rfl, rfl, rfl, rfl⟩

end Sys2Proof.Machine

open Sys2Proof Sys2Proof.Machine

/-- Settles O8: one lemma for each source. -/
theorem resetSources : Obligations.ResetSources := by
  unfold Obligations.ResetSources
  exact ⟨powerOn_clears, resetNAssert_clears, hostColdReset_clears, hostWarmReset_keeps, devResetStart_cold, devResetStart_warm,
    devResetStart_recovery, powerDown_keeps⟩

end

section
/-!
PROOFS. Parity errors, tamper alarms and the output hold.
-/

namespace Sys2Proof.Machine

/-- A parity error recorded as `c` (R395). -/
def State.critRecorded (c : W32) (s : State) : State := (s.modRst fun r => { r with critInfo := c }).rstSticky 2

/-- The record of a parity error in word `w` of unit `u`. -/
def critInfoOf (u : Nat) (w : BitVec 28) : W32 := BitVec.ofNat 32 (u % 16 * 2 ^ 28 + w.toNat)

theorem critRecorded_phase (c : W32) (s : State) : (s.critRecorded c).rst.phase = s.rst.phase := rfl

theorem critRecorded_starting (c : W32) (s : State) : (s.critRecorded c).starting = s.starting := by
  simp only [State.starting, critRecorded_phase]

/-- Outside the start a fault's own reset keeps its source. -/
theorem faultReset_running (cold : Bool) (src : Nat) {s : State} (h : s.starting = false) :
    ∃ u : State, s.faultReset cold src = u.assertReset cold src := by
  unfold State.faultReset
  rw [if_neg (by simp [h])]
  split
  · exact ⟨_, rfl⟩
  · exact ⟨s, rfl⟩

theorem critParityError_shadow (s : State) (w : BitVec 28) (h : s.starting = false) : Answers (exec (.critParityError 0 w) s) fun t =>
    t.rst.phase = .inReset ∧ t.rst.lastSrc = 3 ∧ t.rst.coldKind = true := by
  have h' : ((s.critRecorded (critInfoOf 0 w)).modRst fun r => { r with shadowOk := false }).starting = false := h
  obtain ⟨u, hu⟩ := faultReset_running true 3 h'
  exact answers_event (congrArg done hu) ⟨rfl, rfl, rfl⟩

theorem critParityError_referee (s : State) (w : BitVec 28) : Answers (exec (.critParityError 1 w) s) fun t =>
    t.rst.count = 2 ∧ t.rst.sticky.getLsbD 2 = true ∧ t.rst.critInfo = BitVec.ofNat 32 (2 ^ 28 + w.toNat) ∧ t.rst.phase = s.rst.phase :=
  ⟨_, rfl, rfl, getLsbD_setBit_true_self _ (by decide), rfl, rfl⟩

theorem critParityError_unit (s : State) (w : BitVec 28) (u : Nat) (h2 : 2 ≤ u) (h7 : u ≤ 7) (h : s.starting = false) :
    Answers (exec (.critParityError u w) s) fun t => t.rst.phase = .inReset ∧ t.rst.lastSrc = 6 := by
  have h' : (s.critRecorded (critInfoOf u w)).starting = false := (critRecorded_starting _ s).trans h
  obtain ⟨v, hv⟩ := faultReset_running false 6 h'
  have he : execCritParityError u w s = done ((s.critRecorded (critInfoOf u w)).faultReset false 6) := by
    unfold execCritParityError
    dsimp only
    rw [if_neg (by omega), if_neg (by omega), if_pos h7]
    rfl
  exact answers_event (he.trans (congrArg done hv)) ⟨rfl, rfl⟩

theorem ioHoldRelease_releases (s : State) : Answers (exec .ioHoldRelease s) fun t =>
    t.rst = { s.rst with ioHold := false, ioRelease := true } ∧ FrameBut [.rst] s t :=
  answers_event rfl ⟨rfl, frameBut_done (by simp)⟩

theorem mem_addNew {α : Type} [DecidableEq α] (l : List α) (x : α) : x ∈ addNew l x := by
  unfold addNew
  split
  next h => simpa using h
  next => simp

theorem tamperAlarm_wipes (s : State) (hp : s.rst.phase ≠ .inReset) (hc : s.key.tamperCfg.getLsbD 3 = true) :
    Answers (exec (.tamperAlarm 0x0B) s) fun t =>
      0x0B ∈ t.key.tamperSet ∧ t.key.tamperSrc = 0x0B ∧ t.key.tamperEvt = true ∧ t.key.slots = [] ∧ t.key.failAll = true ∧ t.bus.secPad = [] := by
  have he : execTamperAlarm 0x0B s = done ((s.wipe.modKey fun k => { (k.flag 4) with
      tamperSet := addNew k.tamperSet 0x0B, tamperSrc := 0x0B, tamperEvt := true }).event 0x4804 0x0B []) := by
    have ha : (s.rst.phase != .inReset && (tamperGroup 0x0B).any fun g => s.key.tamperCfg.getLsbD g && (g != 1 || s.glb.released)) = true := by
      simp only [show tamperGroup 0x0B = some 3 from rfl, Option.any_some, hc]
      simp [hp]
    unfold execTamperAlarm State.tamper
    simp only [show (BitVec.toNat (0x0B : Byte)) = 0x0B from rfl, ha]
    rfl
  exact answers_event he ⟨mem_addNew _ _, rfl, rfl, rfl, rfl, rfl⟩

theorem wipeComplete_clean (s : State) (hw : s.key.wiping = true) (hb : s.key.wipeBad = false) :
    Answers (exec (.wipeComplete false false) s) fun t => t.key.wiping = false ∧ t.key.wipeBad = false := by
  have he : execWipeComplete false false s = done (s.modKey fun k => { k with wiping := false, wipeBad := k.wipeBad || (false && false) }) := by
    simp [execWipeComplete, hw]
  exact answers_event he ⟨rfl, by simp [hb]⟩

theorem wipeComplete_dirty (s : State) (hw : s.key.wiping = true) :
    Answers (exec (.wipeComplete true true) s) fun t => t.key.wipeBad = true ∧ t.key.wiping = false := by
  have he : execWipeComplete true true s =
      done ((s.modKey fun k => { k with wiping := false, wipeBad := k.wipeBad || (true && true) }).event 0x4804 0xFF []) := by
    simp [execWipeComplete, hw]
  exact answers_event he ⟨by simp, rfl⟩

theorem tamperConditionEnd_last (s : State) (src : Byte) (h : s.key.tamperSet = [src.toNat]) :
    Answers (exec (.tamperConditionEnd ⟨src, false⟩) s) fun t => t.key = { s.key with tamperSet := [] } ∧ FrameBut [.key] s t := by
  refine answers_event rfl ⟨?_, frameBut_done (by simp)⟩
  simp [h, without]

theorem tamperConditionEnd_other (s : State) (src : Byte) (n : Nat) (h : n ∈ s.key.tamperSet) (hn : n ≠ src.toNat) :
    Answers (exec (.tamperConditionEnd ⟨src, false⟩) s) fun t => t.key.tamperOn = true ∧ FrameBut [.key] s t := by
  refine answers_event rfl ⟨?_, frameBut_done (by simp)⟩
  have hm : n ∈ without s.key.tamperSet src.toNat := by simp [without, h, hn]
  simp [Key.tamperOn, List.ne_nil_of_mem hm]

theorem tamperConditionEnd_short (s : State) (src : Byte) : Answers (exec (.tamperConditionEnd ⟨src, true⟩) s) fun t =>
    t.perf = s.perf.count 766 1 ∧ FrameBut [.perf] s t :=
  answers_event rfl ⟨rfl, frameBut_done (by simp)⟩

end Sys2Proof.Machine

open Sys2Proof Sys2Proof.Machine

/-- Settles O9: one lemma for each event. -/
theorem parityTamperAndHold : Obligations.ParityTamperAndHold := by
  unfold Obligations.ParityTamperAndHold
  exact ⟨critParityError_shadow, critParityError_referee, critParityError_unit, ioHoldRelease_releases, tamperAlarm_wipes, wipeComplete_clean,
    wipeComplete_dirty, tamperConditionEnd_last, tamperConditionEnd_other, tamperConditionEnd_short⟩

end

section
/-!
PROOFS. The start sequence.
-/

namespace Sys2Proof.Machine

theorem setMode_rst (m : Mode) (n : Nat) (s : State) : (s.setMode m n).rst = s.rst := rfl

/-- Entering BRING_UP forgets only the mode the reset came from. -/
theorem enterBringUp_rst (s : State) : s.enterBringUp.rst = { s.rst with fromMode := none } := by
  unfold State.enterBringUp
  split <;> rfl

/-- With a device that is not decommissioned and fewer than three failed starts the loaded fuses lead into the march. -/
theorem afterFuses_march {s : State} (hl : s.rst.lc ≠ .decommissioned) (hc : s.rst.count < 3) :
    s.afterFuses.rst = { s.rst with fromMode := none, phase := .march } := by
  unfold State.afterFuses
  rw [if_neg hl, if_neg (by omega), State.modRst_rst, enterBringUp_rst]

theorem resetRelease_cold (s : State) (hp : s.rst.phase = .inReset) (hw : s.rst.powered = true) (hc : s.rst.coldKind = true) :
    Answers (exec .resetRelease s) fun t => t.rst.phase = .fuseLoad := by
  have he : ∃ u : State, execResetRelease s = done (u.modRst fun r => { r with phase := .fuseLoad }) := by
    exact ⟨if lcOf s.rst.fuse0 s.rst.fuse1 = .decommissioned then s else s.enterBringUp, by simp [execResetRelease, hp, hw, hc]⟩
  obtain ⟨u, he⟩ := he
  exact answers_event he rfl

theorem execResetRelease_warm {s : State} (hp : s.rst.phase = .inReset) (hw : s.rst.powered = true) (hc : s.rst.coldKind = false)
    (hs : s.rst.shadowOk = true) : execResetRelease s = done s.afterFuses := by
  simp [execResetRelease, hp, hw, hc, hs]

theorem resetRelease_warm (s : State) (hp : s.rst.phase = .inReset) (hw : s.rst.powered = true) (hc : s.rst.coldKind = false)
    (hs : s.rst.shadowOk = true) (hl : s.rst.lc ≠ .decommissioned) (hn : s.rst.count < 3) :
    Answers (exec .resetRelease s) fun t => t.rst.phase = .march ∧ t.rst.count = s.rst.count :=
  answers_event (execResetRelease_warm hp hw hc hs) (by simp [afterFuses_march hl hn])

theorem resetRelease_shallows (s : State) (hp : s.rst.phase = .inReset) (hw : s.rst.powered = true) (hc : s.rst.coldKind = false)
    (hs : s.rst.shadowOk = true) (hl : s.rst.lc ≠ .decommissioned) (hn : s.rst.count = 3) :
    Answers (exec .resetRelease s) fun t => t.rst.phase = .shallows ∧ t.glb.mode = .shallows ∧ t.glb.power = 3 := by
  have he : execResetRelease s = done s.restoreFrom.enterShallows := by
    rw [execResetRelease_warm hp hw hc hs]
    simp [State.afterFuses, hl, hn]
  exact answers_event he ⟨rfl, by simp [enterShallows_mode], by simp [enterShallows_mode]⟩

theorem fuseLoadDone_first (s : State) (hp : s.rst.phase = .fuseLoad) (hb : (s.rst.fuse0.blank && s.rst.fuse1.blank) = false)
    (h0 : s.rst.fuse0.crcOk = true) (hl : lcOf s.rst.fuse0 s.rst.fuse1 ≠ .decommissioned) (hn : s.rst.count < 3) :
    Answers (exec .fuseLoadDone s) fun t =>
      t.rst.phase = .march ∧ t.rst.fuseCopy = false ∧ t.rst.shadowOk = true ∧ t.rst.variant = s.rst.fuse0.variant ∧
      t.rst.lc = lcOf s.rst.fuse0 s.rst.fuse1 := by
  have he : execFuseLoadDone s = done (s.modRst (Rst.takeFuses false)).afterFuses := by
    unfold execFuseLoadDone
    rw [if_neg (by simp [hp]), if_neg (by simp [hb]), if_pos h0]
  have ha : (s.modRst (Rst.takeFuses false)).afterFuses.rst = { s.rst.takeFuses false with fromMode := none, phase := .march } :=
    afterFuses_march hl hn
  refine answers_event he ?_
  rw [State.settle_rst, ha]
  exact ⟨rfl, rfl, rfl, rfl, rfl⟩

theorem restoreFrom_rst (s : State) : s.restoreFrom.rst = s.rst := by
  unfold State.restoreFrom
  split <;> rfl

theorem fuseLoadDone_bad (s : State) (hp : s.rst.phase = .fuseLoad) (hb : (s.rst.fuse0.blank && s.rst.fuse1.blank) = false)
    (h0 : s.rst.fuse0.crcOk = false) (h1 : s.rst.fuse1.crcOk = false) : Answers (exec .fuseLoadDone s) fun t =>
      t.rst.phase = (if lcOf s.rst.fuse0 s.rst.fuse1 = .decommissioned then .decommission else .shallows) ∧
      t.rst.failCause = 4 ∧ t.rst.count = s.rst.count ∧ t.rst.shadowOk = false := by
  have hr : (s.modRst Rst.trimFail).restoreFrom.rst = s.rst.trimFail := restoreFrom_rst _
  have hd (u : State) : u.enterDecommission.rst =
      { u.rst with phase := .decommission, inReset := p3Reset, fromMode := none, funcAnswer := [] } := rfl
  have hs (u : State) : u.enterShallows.rst = { u.rst with phase := .shallows, inReset := p3Reset, fromMode := none } := rfl
  have he : execFuseLoadDone s = done (if lcOf s.rst.fuse0 s.rst.fuse1 = .decommissioned then (s.modRst Rst.trimFail).restoreFrom.enterDecommission
      else (s.modRst Rst.trimFail).restoreFrom.enterShallows) := by
    unfold execFuseLoadDone
    rw [if_neg (by simp [hp]), if_neg (by simp [hb]), if_neg (by simp [h0]), if_neg (by simp [h1])]
  refine answers_event he ?_
  rw [State.settle_rst]
  split
  · rw [hd, hr]
    exact ⟨rfl, rfl, rfl, rfl⟩
  · rw [hs, hr]
    exact ⟨rfl, rfl, rfl, rfl⟩

theorem bringUpMarchDone_clean (s : State) (w : _) (hp : s.rst.phase = .march) : Answers (exec (.bringUpMarchDone [] ⟨[], w⟩) s) fun t =>
    t.rst.phase = .romBoot ∧ t.rst.marchOk = true ∧ t.mem.wires = w := by
  have he : execBringUpMarchDone [] ⟨[], w⟩ s = done (((s.modBus Bus.zeroed).modMem fun x => { x with wires := w }).modRst fun r =>
      { r with marchOk := true, phase := .romBoot }) := by
    simp [execBringUpMarchDone, hp, State.noteMismatches]
  exact answers_event he ⟨rfl, rfl, rfl⟩

theorem flashBoot_copies (s : State) (k : Nat) (hp : s.rst.phase = .romBoot)
    (hk : s.cps.bootSlot (s.rst.recoverSlot.getD s.cps.bootPointer) = some k) : Answers (exec (.flashBoot true) s) fun t =>
      t.rst.phase = .nganas ∧ t.cps.running = k ∧ t.cps.version = (s.cps.image k).version ∧ t.eng.ucodeId = (s.cps.image k).ucodeId ∧
      (∀ q, q < 4 → tfind t.eng.istore q = some (s.cps.image k).ucodeId) ∧ t.bus = s.bus.copyCp (s.cps.image k) ∧ t.glb.remap = 3 := by
  have he : execFlashBoot true s = done (((((s.modCps fun c => { c with
      running := k, version := (s.cps.image k).version, jVersion := (s.cps.image k).journal }).modEng fun e => { e with
      ucodeId := (s.cps.image k).ucodeId, istore := (List.range 4).map fun q => (q, (s.cps.image k).ucodeId) }).modGlb fun g =>
        { g with remap := 3 }).modBus (Bus.copyCp (s.cps.image k))).modRst fun r => { r with phase := .nganas, recoverSlot := none }) := by
    simp [execFlashBoot, hp, hk]
  refine answers_event he ⟨rfl, rfl, rfl, rfl, fun q hq => ?_, by simp, by simp⟩
  interval_cases q <;> rfl

theorem bootPointer_first (c : Cps) (h : c.bootCrc0.toNat = pointerCrc c.bootPtr0) : c.bootPointer = c.bootPtr0 := if_pos h

theorem bootPointer_second (c : Cps) (h : c.bootCrc0.toNat ≠ pointerCrc c.bootPtr0) (h' : c.bootCrc1.toNat = pointerCrc c.bootPtr1) :
    c.bootPointer = c.bootPtr1 :=
  (if_neg h).trans (if_pos h')

theorem bootSlot_selected (c : Cps) (k : Nat) (h : (c.image k).valid = true) : c.bootSlot k = some k := if_pos h

theorem bootSlot_other (c : Cps) (k : Nat) (h : (c.image k).valid = false) (h' : (c.image (1 - k)).valid = true) :
    c.bootSlot k = some (1 - k) :=
  (if_neg (by simp [h])).trans (if_pos h')

theorem bootOk_taken (s : State) (m : BusMaster) (hm : m = .cpA ∨ m = .cpB) (hp : s.rst.phase = .nganas) (ho : s.rst.marchOk = true)
    (hd : s.rst.scanDirty = false) (ha : s.glb.alignAtStart = false) : Answers (exec (.bootOk m) s) fun t =>
      t.rst.bootOkSeen = true ∧ t.rst.count = 0 ∧ t.rst.phase = .releaseWait ∧ t.mbx.serving = true := by
  have he : execBootOk m s = done ((s.modRst fun r => { r with bootOkSeen := true, count := 0, phase := .releaseWait }).modMbx Mbx.openAll) := by
    simp [execBootOk, State.bootOk, hm, hp, ho, hd, ha]
  exact answers_event he ⟨rfl, rfl, rfl, rfl⟩

/-- What every release of the core sets, with or without a PPS edge. -/
theorem releaseCore_sets (a l : Bool) (s : State) :
    (s.releaseCore a l).rst.phase = .started ∧ (s.releaseCore a l).glb.released = true ∧ (s.releaseCore a l).glb.cfn = 0 ∧
    (s.releaseCore a l).glb.sec = 0 ∧ (s.releaseCore a l).glb.mode = .provisioning ∧
    (s.releaseCore a l).glb.power = Mode.power .provisioning (BitVec.ofNat 2 (b2n s.pwr.gateOn)) ∧
    (s.releaseCore a l).glb.ppsAligned = a ∧ (s.releaseCore a l).glb.ppsSticky = if l then s.glb.ppsSticky ||| 2 else s.glb.ppsSticky := by
  unfold State.releaseCore
  cases l <;> simp only [Bool.false_eq_true, if_true, if_false] <;> split <;> exact ⟨rfl, rfl, rfl, rfl, rfl, rfl, rfl, rfl⟩

theorem coreRelease_releases (s : State) (hp : s.rst.phase = .releaseWait) (hg : s.pwr.gateOn = false) :
    Answers (exec (.coreRelease false) s) fun t =>
      t.rst.phase = .started ∧ t.glb.released = true ∧ t.glb.cfn = 0 ∧ t.glb.sec = 0 ∧ t.glb.mode = .provisioning ∧ t.glb.power = 0 := by
  have he : execCoreRelease false s = done (s.releaseCore false false) := by simp [execCoreRelease, hp]
  obtain ⟨h1, h2, h3, h4, h5, h6, -⟩ := releaseCore_sets false false s
  rw [hg] at h6
  exact answers_event he ⟨h1, by simp [h2], by simp [h3], by simp [h4], by simp [h5], by simp [h6, Mode.power, b2n]⟩

theorem ppsAlignTimeout_releases (s : State) (hp : s.rst.phase = .ppsWait) : Answers (exec .ppsAlignTimeout s) fun t =>
    t.rst.phase = .started ∧ t.glb.released = true ∧ t.glb.cfn = 0 ∧ t.glb.ppsAligned = false ∧ t.glb.ppsSticky.getLsbD 1 = true := by
  have he : execPpsAlignTimeout s = done (s.releaseCore false true) := by simp [execPpsAlignTimeout, hp]
  obtain ⟨h1, h2, h3, -, -, -, h7, h8⟩ := releaseCore_sets false true s
  exact answers_event he ⟨h1, by simp [h2], by simp [h3], by simp [h7], by simp [h8]⟩

end Sys2Proof.Machine

open Sys2Proof Sys2Proof.Machine

/-- Settles O10: one lemma for each step of the sequence. -/
theorem startSequence : Obligations.StartSequence := by
  unfold Obligations.StartSequence
  exact ⟨resetRelease_cold, resetRelease_warm, resetRelease_shallows, fuseLoadDone_first, fuseLoadDone_bad, bringUpMarchDone_clean,
    flashBoot_copies, bootPointer_first, bootPointer_second, bootSlot_selected, bootSlot_other, bootOk_taken, coreRelease_releases,
    ppsAlignTimeout_releases⟩

end

section
/-!
PROOFS. Failed starts.
-/

namespace Sys2Proof.Machine

variable {s : State} {cause : Nat}

/-- The first two failed starts begin again through a warm reset (R393). -/
theorem startFail_again (h : s.rst.count < 2) : s.startFail cause = (s.modRst (Rst.fail cause)).assertReset false 5 := by
  have hc : ¬ (s.modRst (Rst.fail cause)).rst.count = 3 := by
    simp only [State.modRst_rst, Rst.fail]
    omega
  unfold State.startFail
  exact if_neg hc

/-- The third failed start enters `Shallows`. -/
theorem startFail_third (h : s.rst.count = 2) : s.startFail cause = (s.modRst (Rst.fail cause)).enterShallows := by
  have hc : (s.modRst (Rst.fail cause)).rst.count = 3 := by simp [Rst.fail, h]
  unfold State.startFail
  exact if_pos hc

theorem startFail_again_rst (h : s.rst.count < 2) : (s.startFail cause).rst.phase = .inReset ∧ (s.startFail cause).rst.count = s.rst.count + 1 ∧
    (s.startFail cause).rst.failCause = cause ∧ (s.startFail cause).rst.lastSrc = 5 := by
  have hm : min 3 (s.rst.count + 1) = s.rst.count + 1 := by omega
  rw [startFail_again h]
  exact ⟨rfl, hm, rfl, rfl⟩

theorem pllLockTimeout_again (s : State) (k : Nat) (h : s.starting = true) (hk : k < 44) (hc : s.rst.count < 2) :
    Answers (exec (.pllLockTimeout k) s) fun t =>
      t.rst.phase = .inReset ∧ t.rst.count = s.rst.count + 1 ∧ t.rst.failCause = 6 ∧ t.rst.lastSrc = 5 := by
  have he : execPllLockTimeout k s = done (s.startFail 6) := by simp [execPllLockTimeout, h, hk]
  exact answers_event he (startFail_again_rst hc)

theorem bootTimeout_again (s : State) (h : s.starting = true) (hc : s.rst.count < 2) : Answers (exec .bootTimeout s) fun t =>
    t.rst.phase = .inReset ∧ t.rst.count = s.rst.count + 1 ∧ t.rst.failCause = 1 ∧ t.rst.lastSrc = 5 := by
  have he : execBootTimeout s = done (s.startFail 1) := by simp [execBootTimeout, h]
  exact answers_event he (startFail_again_rst hc)

theorem bootTimeout_third (s : State) (h : s.starting = true) (hc : s.rst.count = 2) : Answers (exec .bootTimeout s) fun t =>
    t.rst.phase = .shallows ∧ t.rst.count = 3 ∧ t.rst.failCause = 1 ∧ t.glb.mode = .shallows ∧ t.glb.power = 3 := by
  have he : execBootTimeout s = done (s.modRst (Rst.fail 1)).enterShallows := by simp [execBootTimeout, h, startFail_third hc]
  have hn : (s.modRst (Rst.fail 1)).enterShallows.rst.count = 3 := by
    change min 3 (s.rst.count + 1) = 3
    omega
  exact answers_event he ⟨rfl, hn, rfl, by simp [enterShallows_mode], by simp [enterShallows_mode]⟩

end Sys2Proof.Machine

open Sys2Proof Sys2Proof.Machine

/-- Settles O11: one lemma for each clause. -/
theorem startFailures : Obligations.StartFailures := by
  unfold Obligations.StartFailures
  exact ⟨pllLockTimeout_again, bootTimeout_again, bootTimeout_third⟩

end

section
/-!
PROOFS. Function resets.
-/

namespace Sys2Proof.Machine

/-! ### What requesting a reset of a function does -/

theorem resetRuns_started {s : State} (h : s.rst.phase = .started) : s.resetRuns = false := by
  simp [State.resetRuns, h]

/-- Marking the member of a pair for resynchronisation does not reach the reset block. -/
theorem endUpdate_rst (status : Nat) (s : State) : (s.endUpdate status).rst = s.rst :=
  frameBut_of_rest (l := [.mbx, .cps]) (by simp) .rst (by decide)

/-- Asserting the reset of a function, once the transactions in flight are recorded. -/
def State.assertFuncCore (f : Nat) (s : State) : State :=
  let resync (pair unit : Nat) (s : State) : State := s.modCps (Cps.modUnit pair unit fun u =>
    if u.state = .retired then u else { u with state := .resync, since := s.tick })
  let s := if 7 ≤ f && f ≤ 14 then s.dropAnswers (f - 7) else s
  if f < 2 then
    let s := resync 1 f s
    if s.cps.update.isSome then s.endUpdate 0x8003 else s
  else if f = 15 || f = 16 then (resync 0 (f - 15) s).modTim fun t => { t with aligned := false, stbReady := false, stbEst := 0 }
  else s

/-- The transactions in flight are recorded in the reset, and the rest follows. -/
theorem assertFunc_eq (f : Nat) (txns : List WeirTxn) (s : State) : s.assertFunc f txns =
    ((txns.filter fun t => 1 ≤ t.kind && t.kind ≤ 5).foldl (fun s t => s.weirRecord f t)
      (s.modRst fun r => { r with inReset := setBit r.inReset f true, pend := setBit r.pend f false })).assertFuncCore f := rfl

theorem assertFuncCore_rst (f : Nat) (s : State) : ∃ a, (s.assertFuncCore f).rst = { s.rst with funcAnswer := a } := by
  unfold State.assertFuncCore
  dsimp only
  have hd : ∃ a, (if 7 ≤ f && f ≤ 14 then s.dropAnswers (f - 7) else s).rst = { s.rst with funcAnswer := a } := by
    split
    · exact ⟨_, rfl⟩
    · exact ⟨_, rfl⟩
  generalize (if 7 ≤ f && f ≤ 14 then s.dropAnswers (f - 7) else s) = u at hd ⊢
  split
  · split
    · rw [endUpdate_rst]
      exact hd
    · exact hd
  · split <;> exact hd

theorem assertFuncCore_rest {ps : List Part} (hp : [.rst, .tim, .mbx, .cps] ⊆ ps) (f : Nat) (s : State) :
    (s.assertFuncCore f).rest ps = s.rest ps := by
  simp only [List.cons_subset, List.nil_subset, and_true] at hp
  simp [State.assertFuncCore, hp]

/-- Without transactions in flight the reset block records the reset alone. -/
theorem assertFunc_rst (f : Nat) (s : State) : ∃ a, (s.assertFunc f []).rst =
    { s.rst with inReset := setBit s.rst.inReset f true, pend := setBit s.rst.pend f false, funcAnswer := a } := by
  obtain ⟨a, ha⟩ := assertFuncCore_rst f (s.modRst fun r => { r with inReset := setBit r.inReset f true, pend := setBit r.pend f false })
  rw [assertFunc_eq]
  exact ⟨a, ha⟩

/-! ### Requests -/

section
variable {s : State} {f : Nat} {txns : List WeirTxn}

theorem requestFunc_asserts (hp : s.rst.phase = .started) (hf : f < 44) (hr : s.funcRefused f = false) (hi : s.inReset f = false)
    (hc : s.clockRuns f = true) : s.requestFunc f txns = (false, s.assertFunc f txns) := by
  unfold State.requestFunc
  rw [if_neg (by simp [resetRuns_started hp, hf]), if_neg (by simp [hr]), if_neg (by simp [hi]), if_neg (by simp [hc])]

theorem requestFunc_waits (hp : s.rst.phase = .started) (hf : f < 44) (hr : s.funcRefused f = false) (hi : s.inReset f = false)
    (hc : s.clockRuns f = false) : s.requestFunc f txns =
      (false, ((s.modRst fun r => { r with pend := setBit r.pend f true }).rstSticky 0).count 765 1) := by
  unfold State.requestFunc
  rw [if_neg (by simp [resetRuns_started hp, hf]), if_neg (by simp [hr]), if_neg (by simp [hi]), if_pos (by simp [hc])]

theorem requestFunc_refuses (hp : s.rst.phase = .started) (hf : f < 44) (hr : s.funcRefused f = true) :
    s.requestFunc f txns = (true, s.rstSticky 1) := by
  unfold State.requestFunc
  rw [if_neg (by simp [resetRuns_started hp, hf]), if_pos hr]

end

/-- The state in which FUNC_RST names `v`'s function. -/
def State.funcNamed (v : W32) (s : State) : State := s.modRst fun r => { r with funcSel := BitVec.ofNat 6 v.toNat }

theorem funcCtrl_request {v : W32} (h : v.getLsbD 31 = true) (txns : List WeirTxn) (s : State) :
    s.funcCtrl v txns = ((s.funcNamed v).requestFunc (fld v.toNat 0 6) txns).2 := if_pos h

theorem functionResetRequest_asserts (s : State) (v : W32) (hv : v.getLsbD 31 = true) (hp : s.rst.phase = .started) (hf : fld v.toNat 0 6 < 44)
    (hr : s.funcRefused (fld v.toNat 0 6) = false) (hi : s.inReset (fld v.toNat 0 6) = false) (hc : s.clockRuns (fld v.toNat 0 6) = true) :
    Answers (exec (.functionResetRequest v []) s) fun t =>
      t.rst.inReset.getLsbD (fld v.toNat 0 6) = true ∧ t.rst.funcSel = BitVec.ofNat 6 v.toNat := by
  have he := funcCtrl_request hv [] s
  rw [requestFunc_asserts (s := s.funcNamed v) hp hf hr hi hc] at he
  obtain ⟨a, ha⟩ := assertFunc_rst (fld v.toNat 0 6) (s.funcNamed v)
  refine answers_event (congrArg done he) ?_
  rw [State.settle_rst, ha]
  exact ⟨getLsbD_setBit_true_self _ (by omega), rfl⟩

theorem functionResetRequest_waits (s : State) (v : W32) (hv : v.getLsbD 31 = true) (hp : s.rst.phase = .started) (hf : fld v.toNat 0 6 < 44)
    (hr : s.funcRefused (fld v.toNat 0 6) = false) (hi : s.inReset (fld v.toNat 0 6) = false) (hc : s.clockRuns (fld v.toNat 0 6) = false) :
    Answers (exec (.functionResetRequest v []) s) fun t =>
      t.rst.pend.getLsbD (fld v.toNat 0 6) = true ∧ t.rst.sticky.getLsbD 0 = true ∧ t.rst.inReset = s.rst.inReset := by
  have he := funcCtrl_request hv [] s
  rw [requestFunc_waits (s := s.funcNamed v) hp hf hr hi hc] at he
  exact answers_event (congrArg done he) ⟨getLsbD_setBit_true_self _ (by omega), getLsbD_setBit_true_self _ (by decide), rfl⟩

theorem functionResetRequest_refuses (s : State) (v : W32) (hv : v.getLsbD 31 = true) (hp : s.rst.phase = .started) (hf : fld v.toNat 0 6 < 44)
    (hr : s.funcRefused (fld v.toNat 0 6) = true) : Answers (exec (.functionResetRequest v []) s) fun t =>
      t.rst.sticky.getLsbD 1 = true ∧ t.rst.inReset = s.rst.inReset ∧ t.rst.pend = s.rst.pend := by
  have he := funcCtrl_request hv [] s
  rw [requestFunc_refuses (s := s.funcNamed v) hp hf hr] at he
  exact answers_event (congrArg done he) ⟨getLsbD_setBit_true_self _ (by decide), rfl, rfl⟩

theorem execPendingResetApply_runs {s : State} {f : Nat} (txns : List WeirTxn) (hf : f < 44) (hp : s.rst.pend.getLsbD f = true)
    (hc : s.clockRuns f = true) : execPendingResetApply f txns s = done (s.assertFunc f txns) := by
  unfold execPendingResetApply
  rw [if_pos (by simp only [hf, hp, hc, decide_true, Bool.and_self])]

theorem pendingResetApply_asserts (s : State) (f : Nat) (hf : f < 44) (hp : s.rst.pend.getLsbD f = true) (hc : s.clockRuns f = true) :
    Answers (exec (.pendingResetApply f []) s) fun t => t.rst.inReset.getLsbD f = true ∧ t.rst.pend.getLsbD f = false := by
  obtain ⟨a, ha⟩ := assertFunc_rst f s
  refine answers_event (execPendingResetApply_runs [] hf hp hc) ?_
  rw [State.settle_rst, ha]
  exact ⟨getLsbD_setBit_true_self _ (by omega), getLsbD_setBit_false_self _ _⟩

/-! ### Function resets of the host -/

/-- The PFs, the DMA channels, the debug port and the mailboxes always have their clock and may always be reset. -/
theorem requestFunc_host {s : State} {f : Nat} (h2 : 2 ≤ f) (hf : f < 15) (hp : s.rst.phase = .started) (hi : s.inReset f = false)
    (hs : s.rst.scanDirty = false) : s.requestFunc f [] = (false, s.assertFunc f []) := by
  have hr : s.funcRefused f = false := by
    simp only [State.funcRefused, hp, Bool.or_eq_false_iff, Bool.and_eq_false_iff, decide_eq_false_iff_not]
    exact ⟨⟨⟨by simp, .inl (by omega)⟩, .inl (by omega)⟩, .inl (by omega)⟩
  have hn : funcIsland f = none := by
    unfold funcIsland
    rw [if_pos (by omega)]
  exact requestFunc_asserts hp (by omega) hr hi (by simp [State.clockRuns, hn, hs])

/-- A reset of functions of the host, in a device where none of them is in reset, asserts each. -/
theorem requestFuncs_host (fs : List Nat) (hfs : ∀ f ∈ fs, 2 ≤ f ∧ f < 15) (hd : fs.Nodup) (s : State) (hp : s.rst.phase = .started)
    (hi : ∀ f ∈ fs, s.inReset f = false) (hs : s.rst.scanDirty = false) :
    (fs.foldl (fun s f => (s.requestFunc f []).2) s).rst.inReset = fs.foldl (fun v f => setBit v f true) s.rst.inReset := by
  induction fs generalizing s with
  | nil => rfl
  | cons f fs ih =>
    obtain ⟨hf, hfs⟩ := List.forall_mem_cons.mp hfs
    obtain ⟨hif, hi⟩ := List.forall_mem_cons.mp hi
    obtain ⟨hn, hd⟩ := List.nodup_cons.mp hd
    obtain ⟨a, ha⟩ := assertFunc_rst f s
    rw [List.foldl_cons, List.foldl_cons, requestFunc_host hf.1 hf.2 hp hif hs]
    refine (ih hfs hd (s.assertFunc f []) ?_ (fun g hg => ?_) ?_).trans ?_
    · rw [ha, hp]
    · have hgf : g ≠ f := fun h => hn (h ▸ hg)
      have hg := hi g hg
      unfold State.inReset at hg ⊢
      rw [ha]
      simpa only [getLsbD_setBit_ne _ hgf] using hg
    · rw [ha, hs]
    · rw [ha]

theorem requestFuncs_idle (fs : List Nat) (hfs : ∀ f ∈ fs, 2 ≤ f ∧ f < 15) (hd : fs.Nodup) (s : State) (hp : s.rst.phase = .started)
    (h0 : s.rst.inReset = 0) (h1 : s.rst.pend = 0) (hs : s.rst.scanDirty = false) :
    (s.requestFuncs fs []).rst.inReset = fs.foldl (fun v f => setBit v f true) 0 := by
  have h := requestFuncs_host fs hfs hd s hp (fun f _ => by simp [State.inReset, h0, h1]) hs
  rwa [h0] at h

theorem pcieFlr_asserts (s : State) (hp : s.rst.phase = .started) (h0 : s.rst.inReset = 0) (h1 : s.rst.pend = 0) (hs : s.rst.scanDirty = false) :
    Answers (exec (.pcieFlr 0 []) s) fun t => t.rst.inReset.getLsbD 2 = true := by
  refine answers_event (u := s.requestFuncs [2] []) rfl ?_
  rw [State.settle_rst, requestFuncs_idle [2] (by decide) (by decide) s hp h0 h1 hs]
  decide

theorem perstNAssert_asserts (s : State) (hp : s.rst.phase = .started) (h0 : s.rst.inReset = 0) (h1 : s.rst.pend = 0)
    (hs : s.rst.scanDirty = false) : Answers (exec (.perstNAssert []) s) fun t => t.rst.inReset = 0x7FBC := by
  refine answers_event (u := s.requestFuncs [2, 3, 4, 5, 7, 8, 9, 10, 11, 12, 13, 14] []) rfl ?_
  rw [State.settle_rst, requestFuncs_idle _ (by decide) (by decide) s hp h0 h1 hs]
  decide

/-! ### Releases -/

theorem inReset_ite {c : Prop} [Decidable c] {a b : State} {v : BitVec 64} (ha : a.rst.inReset = v) (hb : b.rst.inReset = v) :
    (if c then a else b).rst.inReset = v := by
  split
  · exact ha
  · exact hb

theorem funcEffect_inReset (f : Nat) (s : State) : (s.funcEffect f).rst.inReset = s.rst.inReset := by
  have hdma (a b : Bool) : (s.endDma a b).rst.inReset = s.rst.inReset :=
    congrArg Rst.inReset (frameBut_of_rest (l := [.glb, .sch, .eng, .mbx, .perf, .drawn]) (by simp) .rst (by decide))
  have hcluster (j : Nat) : (s.resetCluster j).rst.inReset = s.rst.inReset :=
    congrArg Rst.inReset (frameBut_of_rest (l := [.lanes, .grps, .sch, .twin, .mbx, .perf]) (by simp) .rst (by decide))
  have hcipher (i : Nat) (u : State) : (u.unstaleCipher i).rst.inReset = u.rst.inReset := by
    have h : ((u.modRst (Rst.unstale (20 + i))).restartBinds i).rst = (u.modRst (Rst.unstale (20 + i))).rst :=
      frameBut_of_rest (l := [.dp, .key]) (by simp) .rst (by decide)
    exact inReset_ite (by rw [h]; rfl) rfl
  unfold State.funcEffect
  refine inReset_ite rfl (inReset_ite rfl (inReset_ite ?_ (inReset_ite (hdma _ _) (inReset_ite (hdma _ _) (inReset_ite rfl (inReset_ite rfl
    (inReset_ite rfl (inReset_ite rfl (inReset_ite (hcipher _ _) (inReset_ite rfl (inReset_ite ?_ (inReset_ite rfl (inReset_ite rfl
    (inReset_ite rfl rfl))))))))))))))
  · exact hdma true true
  · exact hcluster _

/-- Answering a DEV_RESET changes of the reset block only what answers are owed. -/
theorem answerReset_inReset (f : Nat) (s : State) : (s.answerReset f).rst.inReset = s.rst.inReset := by
  unfold State.answerReset
  generalize (s.rst.funcAnswer.filter fun a => a.func = f && !a.drop) = l
  have h (u : State) : (l.foldl (fun s a =>
      s.answer 0x0104 ⟨a.mb, a.seq, BitVec.ofNat 32 (leNat (trange 0 (s.box a.mb).req 8 4)), 0, 0, []⟩ .ok) u).rst = u.rst := by
    induction l generalizing u with
    | nil => rfl
    | cons a l ih => exact (ih _).trans rfl
  rw [h]
  rfl

theorem functionResetRelease_releases (s : State) (f : Nat) (hf : f < 44) (hi : s.rst.inReset.getLsbD f = true) (hp : s.rst.phase = .started)
    (hc : s.clockRuns f = true) (hb : f = 17 → s.key.busy = none) :
    Answers (exec (.functionResetRelease f) s) fun t => t.rst.inReset.getLsbD f = false := by
  have hp3 : s.p3Holds f = false := by simp [State.p3Holds, hp]
  have he : execFunctionResetRelease f s =
      done (((s.modRst fun r => { r with inReset := setBit r.inReset f false }).funcEffect f).answerReset f) := by
    have h17 : (decide (f = 17) && s.key.busy.isSome) = false := by
      by_cases h : f = 17
      · simp [hb h]
      · simp [h]
    unfold execFunctionResetRelease
    rw [if_neg]
    simp only [hi, hp3, hc, h17, Bool.not_true, Bool.or_false, decide_eq_true_eq]
    omega
  refine answers_event he ?_
  rw [State.settle_rst, answerReset_inReset, funcEffect_inReset]
  exact getLsbD_setBit_false_self _ _

/-- The key store's reset is not released while the desk runs an operation. -/
theorem functionResetRelease_busy (s : State) (hb : s.key.busy.isSome = true) :
    Answers (exec (.functionResetRelease 17) s) fun t => FrameBut [] s t := by
  have he : execFunctionResetRelease 17 s = done s := by
    unfold execFunctionResetRelease
    rw [if_pos (by simp [hb])]
  exact answers_event he (frameBut_done rfl)

theorem mailboxReopen_opens (s : State) (n : Nat) (hn : n < 8) (hp : s.rst.phase = .started) (hst : (s.box n).state = .closed)
    (hs : s.cpServes = true) (hb : s.rst.bootOkSeen = true) (hi : s.inReset (7 + n) = false) :
    Answers (exec (.mailboxReopen n) s) fun t => (t.box n).state = .idle ∧ FrameBut [.mbx] s t := by
  have hsb : s.servesBox n = true := by simp [State.servesBox, hp, hn, hb]
  have he : execMailboxReopen n s = done (s.modBox n fun b => { b with state := .idle }) := by
    simp [execMailboxReopen, hst, hs, hsb, hi]
  exact answers_event he ⟨by rw [settle_box, State.modBox_box_same], frameBut_done (by simp)⟩

theorem rejectLoad_load (e : ImgErr) (s : State) : (s.rejectLoad e).sch.load = none := by
  unfold State.rejectLoad
  split
  next h => exact h
  next => rfl

/-- Ending a load and a harvest leaves DMA_STAT's loss bits and bus mastering. -/
theorem endDma_all (s : State) : (s.endDma true true).sch.load = none ∧ (s.endDma true true).glb.bme = s.glb.bme ∧
    (s.endDma true true).glb.dmaSticky = s.glb.dmaSticky := by
  have hg (e : ImgErr) : (s.rejectLoad e).glb = { s.glb with
      aPrev := (s.rejectLoad e).glb.aPrev, msixHeld := (s.rejectLoad e).glb.msixHeld, msixSent := (s.rejectLoad e).glb.msixSent } :=
    frameBut_of_rest (l := [.sch, .mbx, .perf, .drawn]) (by simp) .glb (by decide)
  have hl : (if true && s.sch.load.isSome then s.rejectLoad { reason := 2 } else s).sch.load = none ∧
      (if true && s.sch.load.isSome then s.rejectLoad { reason := 2 } else s).glb.bme = s.glb.bme ∧
      (if true && s.sch.load.isSome then s.rejectLoad { reason := 2 } else s).glb.dmaSticky = s.glb.dmaSticky := by
    split
    next => exact ⟨rejectLoad_load _ s, by rw [hg], by rw [hg]⟩
    next h => exact ⟨by simpa using h, rfl, rfl⟩
  unfold State.endDma
  dsimp only
  generalize (if true && s.sch.load.isSome then s.rejectLoad { reason := 2 } else s) = u at hl ⊢
  split
  · exact hl
  · exact hl

theorem bmeLost_ends (s : State) : Answers (exec .bmeLost s) fun t =>
    t.glb.bme = false ∧ (s.sch.load.isSome = true → t.glb.dmaSticky.getLsbD 1 = true ∧ t.sch.load = none) := by
  obtain ⟨h1, h2, h3⟩ := endDma_all (s.modGlb fun g => { g with
    bme := false, dmaSticky := if s.sch.load.isSome || s.eng.harvest.running then g.dmaSticky ||| 2 else g.dmaSticky })
  refine answers_event (u := s.loseBme) rfl ⟨?_, fun hl => ⟨?_, ?_⟩⟩
  · rw [settle_bme]
    exact h2
  · rw [settle_dmaSticky]
    refine (congrArg (BitVec.getLsbD · 1) h3).trans ?_
    simp [hl]
  · exact h1

/-! ### A read of PCIe in flight at the weir -/

/-- The first access error is recorded (R356). -/
theorem accErr_first {s : State} (h : s.glb.intSticky.getLsbD 27 = false) (a : Nat) (w : Bool) (c : Nat) : s.accErr a w c =
    (s.modGlb fun g => { g with accErrAddr := BitVec.ofNat 28 a, accErrInfo := BitVec.ofNat 32 (b2n w * 2 ^ 31 + c % 4 * 2 ^ 29) }).raise 27 := by
  unfold State.accErr
  simp only [h, Bool.false_eq_true, if_false]

/-- The error a closing weir records for a read of PCIe (R356, R399). -/
theorem weirError_read {f : Nat} (n a : Nat) (hf : f ≠ 3) (s : State) :
    s.weirError f ⟨1, 4, 6, n, a⟩ = (s.accErr a false 2).readAnswer .pcie (BitVec.allOnes 32) := by
  unfold State.weirError
  rw [if_neg hf, if_pos rfl]
  rfl

/-- The weir's record of a transaction, before the error of a PCIe access. -/
theorem weirRecord_pcie (f n a : Nat) (s : State) : ∃ u : State, s.weirRecord f ⟨1, 4, 6, n, a⟩ = u.weirError f ⟨1, 4, 6, n, a⟩ ∧
    u.glb = s.glb ∧ u.rst.weirCount = s.rst.weirCount + 1 := by
  refine ⟨_, rfl, ?_, ?_⟩ <;> split <;> rfl

/-- A read of PCIe that the weir closes on. -/
theorem weirRecord_read (f n a : Nat) (hf : f ≠ 3) (s : State) (h : s.glb.intSticky.getLsbD 27 = false) :
    tget 0 (s.weirRecord f ⟨1, 4, 6, n, a⟩).bus.readData 4 = 0xFFFFFFFF#32 ∧ (s.weirRecord f ⟨1, 4, 6, n, a⟩).glb.intSticky.getLsbD 27 = true ∧
    (s.weirRecord f ⟨1, 4, 6, n, a⟩).glb.accErrAddr = BitVec.ofNat 28 a ∧ (s.weirRecord f ⟨1, 4, 6, n, a⟩).glb.accErrInfo = 0x40000000 ∧
    (s.weirRecord f ⟨1, 4, 6, n, a⟩).rst.weirCount = s.rst.weirCount + 1 := by
  obtain ⟨u, hu, hg, hc⟩ := weirRecord_pcie f n a s
  have hinfo : BitVec.ofNat 32 (b2n false * 2 ^ 31 + 2 % 4 * 2 ^ 29) = 0x40000000#32 := by decide
  have hdata := tget_tput_same (0 : W32) u.bus.readData 4 (BitVec.allOnes 32)
  rw [hu, weirError_read n a hf, accErr_first (by rw [hg]; exact h)]
  exact ⟨hdata, getLsbD_setBit_true_self _ (by decide), rfl, hinfo, hc⟩

theorem pendingResetApply_weir (s : State) (f n a : Nat) (hf : f < 44) (h3 : f ≠ 3) (ha : a < 2 ^ 28) (hp : s.rst.pend.getLsbD f = true)
    (hc : s.clockRuns f = true) (h27 : s.glb.intSticky.getLsbD 27 = false) :
    Answers (exec (.pendingResetApply f [⟨1, 4, 6, n, a⟩]) s) fun t => tget 0 t.bus.readData 4 = 0xFFFFFFFF#32 ∧
      t.glb.intSticky.getLsbD 27 = true ∧ t.glb.accErrAddr.toNat = a ∧ t.glb.accErrInfo = 0x40000000 ∧ t.rst.weirCount = s.rst.weirCount + 1 := by
  let u := s.modRst fun r => { r with inReset := setBit r.inReset f true, pend := setBit r.pend f false }
  obtain ⟨h1, h2, h3, h4, h5⟩ := weirRecord_read f n a h3 u h27
  have hr : ((u.weirRecord f ⟨1, 4, 6, n, a⟩).assertFuncCore f).rest [.rst, .tim, .mbx, .cps] = (u.weirRecord f ⟨1, 4, 6, n, a⟩).rest [.rst, .tim, .mbx, .cps] :=
    assertFuncCore_rest (by simp) _ _
  have hbus : ((u.weirRecord f ⟨1, 4, 6, n, a⟩).assertFuncCore f).bus = (u.weirRecord f ⟨1, 4, 6, n, a⟩).bus := frameBut_of_rest hr .bus (by decide)
  have hglb := frameBut_of_rest hr .glb (by decide)
  obtain ⟨x, hrst⟩ := assertFuncCore_rst f (u.weirRecord f ⟨1, 4, 6, n, a⟩)
  have he : execPendingResetApply f [⟨1, 4, 6, n, a⟩] s = done ((u.weirRecord f ⟨1, 4, 6, n, a⟩).assertFuncCore f) :=
    execPendingResetApply_runs _ hf hp hc
  have haddr : (BitVec.ofNat 28 a).toNat = a := by rw [BitVec.toNat_ofNat, Nat.mod_eq_of_lt ha]
  simp only [Same] at hglb
  refine answers_event he ⟨?_, ?_, ?_, ?_, ?_⟩
  · rw [State.settle_bus, hbus, h1]
  · rw [settle_intSticky, hglb]
    exact h2
  · rw [settle_accErrAddr, hglb]
    exact (congrArg BitVec.toNat h3).trans haddr
  · rw [settle_accErrInfo, hglb]
    exact h4
  · rw [State.settle_rst, hrst]
    exact h5

end Sys2Proof.Machine

open Sys2Proof Sys2Proof.Machine

/-- Settles O12: one lemma for each clause. -/
theorem functionResets : Obligations.FunctionResets := by
  unfold Obligations.FunctionResets
  exact ⟨functionResetRequest_asserts, functionResetRequest_waits, functionResetRequest_refuses, pendingResetApply_asserts,
    functionResetRelease_releases, pcieFlr_asserts, perstNAssert_asserts, mailboxReopen_opens, bmeLost_ends, functionResetRelease_busy,
    pendingResetApply_weir⟩

end

section
/-!
PROOFS. A write of `BUS.QOS` in `Decommission`, where the fabric's blocks are in reset (R356, R410).
-/

namespace Sys2Proof.Machine

/-- A device in `Decommission`. -/
def decommissioned : State := State.reset.modRst fun x => { x with phase := .decommission }

theorem decommissioned_write (v : W32) : exec (.registerWrite .pcie 0x40010 0xF v []) decommissioned =
    done ((decommissioned.accErr 0x40010 true 1).count (560 + busIndex .pcie) 1) := by
  rw [exec_registerWrite_fabric (by decide) rfl rfl (granted_fabric_write (.inl rfl) _ _)]
  rfl

end Sys2Proof.Machine

open Sys2Proof Sys2Proof.Machine

/-- Refutes O13: in `Decommission` a write of `BUS.QOS` is answered with ACC_ERR. -/
theorem not_registerWrites : ¬ Obligations.RegisterWrites := by
  unfold Obligations.RegisterWrites
  intro h
  obtain ⟨-, -, -, hqos, -⟩ := h
  obtain ⟨t, ht, -, hf⟩ := hqos decommissioned 0 (by decide)
  rw [decommissioned_write] at ht
  cases ht
  have hg := congrArg (fun g : Glb => g.intSticky) (hf .glb (by decide))
  exact absurd hg (by decide)

end

section
/-!
PROOFS. Coherent reads and reads that clear.
-/

namespace Sys2Proof.Machine

/-- A read of a register of the lower fabric outside a reset. -/
theorem busRead_low {a : Nat} (ha : a % 4 = 0) (h : a < 0x1000000) (hk : a < 0xB0000 ∨ 0xC0000 ≤ a) {s : State} (hs : s.rst.phase ≠ .inReset) :
    s.busRead .pcie a = ((s.fabricRead .pcie a).2.count (560 + busIndex .pcie) 1).readAnswer .pcie (s.fabricRead .pcie a).1 :=
  busRead_fabric ha (decode_fabric h hk s) (held_of_not_inReset hs)

theorem unreachable_glb {a : Nat} (h : a < 0x10000) (s : State) : s.unreachable a = none := by
  simp [State.unreachable, h]

/-- A word of the global block as it reads. -/
theorem readWord_glb {a : Nat} (h : a < 0x10000) (m : BusMaster) (s : State) : s.readWord m a = (BitVec.ofNat 32 (s.glbRead a), s.clearRc a) := by
  have hp : s.peek a = BitVec.ofNat 32 (s.glbRead a) := by simp only [State.peek, h, if_true]
  unfold State.readWord
  rw [aliasOf_none (by omega), unreachable_glb h]
  dsimp only
  rw [if_neg (by simp; omega), if_neg (by simp; omega), hp]

section
variable {s : State} {a : Nat} {v : W32} {m : BusMaster}

/-- The word that an earlier read of its lower half latched is read as it was latched (R6). -/
theorem fabricRead_latched (hr : s.unreachable a = none) (ha : a < 0x90000) (hl : s.latched m a = some v) : s.fabricRead m a = (v, s) := by
  have h : ((s.unreachable a).isSome || (0x90000 ≤ a && a < 0xA0000 && !s.perfMay m 1)) = false := by
    simp only [hr, Option.isSome_none, Bool.false_or, Bool.and_eq_false_iff, decide_eq_false_iff_not]
    exact .inl (.inl (by omega))
  unfold State.fabricRead
  simp only [h, Bool.false_eq_true, if_false, hl]

/-- A lower half latches its upper word as it reads then (R6). -/
theorem fabricRead_wide (hr : s.unreachable a = none) (hw : wideLow a = true) (hl : s.latched m a = none) :
    s.fabricRead m a = ((s.readWord m a).1, (s.readWord m a).2.setLatch m (a + 4) (s.readWord m (a + 4)).1) := by
  unfold State.fabricRead
  simp only [hl, ite_self, hw, hr, Option.isNone_none, Bool.and_self, if_true]

theorem fabricRead_narrow (hw : wideLow a = false) (hl : s.latched m a = none) : s.fabricRead m a = s.readWord m a := by
  unfold State.fabricRead
  simp only [hl, ite_self, hw, Bool.false_and, Bool.false_eq_true, if_false]

end

theorem setLatch_latched (m : BusMaster) (a : Nat) (v : W32) (s : State) : (s.setLatch m a v).latched m a = some v := by
  simp [State.latched, State.setLatch, tget_tmod_same, tfind_tins_same]

theorem coherentRead_cfn (s : State) (hp : s.rst.phase ≠ .inReset) (hl : s.latched .pcie 0x08 = none) :
    Answers (exec (.coherentRead .pcie 0x08) s) fun t =>
      tget 0 t.bus.readData 4 = BitVec.ofNat 32 (s.glb.cfn.toNat % 2 ^ 32) ∧
      t.latched .pcie 0x0C = some (BitVec.ofNat 32 (s.glb.cfn.toNat / 2 ^ 32)) ∧ FrameBut [.bus, .perf] s t := by
  have hlo : s.readWord .pcie 0x08 = (BitVec.ofNat 32 (s.glb.cfn.toNat % 2 ^ 32), s) := readWord_glb (by decide) .pcie s
  have hhi : s.readWord .pcie 0x0C = (BitVec.ofNat 32 (s.glb.cfn.toNat / 2 ^ 32), s) := readWord_glb (by decide) .pcie s
  have he := busRead_low (a := 0x08) (by decide) (by decide) (by decide) hp
  rw [fabricRead_wide (unreachable_glb (by decide) s) (by decide) hl, hlo, hhi] at he
  refine answers_event (congrArg done he) ⟨settle_readAnswer_data .pcie _ _, ?_, frameBut_done (by simp [State.setLatch])⟩
  exact setLatch_latched .pcie 0x0C _ s

theorem coherentRead_latched (s : State) (v : W32) (hp : s.rst.phase ≠ .inReset) (hl : s.latched .pcie 0x0C = some v) :
    Answers (exec (.coherentRead .pcie 0x0C) s) fun t => tget 0 t.bus.readData 4 = v ∧ FrameBut [.bus, .perf] s t := by
  have he := busRead_low (a := 0x0C) (by decide) (by decide) (by decide) hp
  rw [fabricRead_latched (unreachable_glb (by decide) s) (by decide) hl] at he
  exact answers_event (congrArg done he) ⟨settle_readAnswer_data .pcie _ _, frameBut_done (by simp)⟩

theorem clearingRead_futWrRej (s : State) (hp : s.rst.phase ≠ .inReset) (hl : s.latched .pcie 0x138 = none) :
    Answers (exec (.clearingRead .pcie 0x138) s) fun t =>
      tget 0 t.bus.readData 4 = s.sch.futWrRej ∧ t.sch.futWrRej = 0 ∧ FrameBut [.bus, .perf, .sch] s t := by
  have hw : s.readWord .pcie 0x138 = (BitVec.ofNat 32 s.sch.futWrRej.toNat, s.modSch fun c => { c with futWrRej := 0 }) :=
    readWord_glb (by decide) .pcie s
  have he := busRead_low (a := 0x138) (by decide) (by decide) (by decide) hp
  rw [fabricRead_narrow (by decide) hl, hw, BitVec.ofNat_toNat, BitVec.setWidth_eq] at he
  exact answers_event (congrArg done he) ⟨settle_readAnswer_data .pcie _ _, rfl, frameBut_done (by simp)⟩

/-! ### The CE count of a pond -/

section
variable {a : Nat} (h0 : 0x400000 ≤ a) (h1 : a < 0x484000) (ho : a % 0x1000 = 0x20)
include h0 h1

theorem unreachable_pond {s : State} (hs : s.rst.phase = .started) : s.unreachable a = none := by
  unfold State.unreachable
  dsimp only
  iterate 12 rw [if_neg (by grind)]
  rw [if_pos (by grind), if_neg (by simp [State.coreDown, hs])]

include ho

theorem peek_pondCount (s : State) : s.peek a = (s.pond ((a - 0x400000) / 0x1000)).ceCnt := by
  unfold State.peek
  iterate 12 rw [if_neg (by grind)]
  rw [if_pos (by grind), ho]
  simp [Pond.regs]

theorem clearRc_pondCount (s : State) : s.clearRc a = s.modPond ((a - 0x400000) / 0x1000) fun x => { x with ceCnt := 0 } := by
  unfold State.clearRc
  rw [if_neg (by grind), if_neg (by grind), if_neg (by grind), if_pos (by grind)]

theorem readWord_pondCount {s : State} (hs : s.rst.phase = .started) (m : BusMaster) : s.readWord m a =
    ((s.pond ((a - 0x400000) / 0x1000)).ceCnt, s.modPond ((a - 0x400000) / 0x1000) fun x => { x with ceCnt := 0 }) := by
  unfold State.readWord
  rw [aliasOf_none (by omega), unreachable_pond h0 h1 hs]
  dsimp only
  rw [if_neg (by grind), if_neg (by grind), peek_pondCount h0 h1 ho, clearRc_pondCount h0 h1 ho]

theorem wideLow_pondCount : wideLow a = false := by
  simp [wideLow]
  omega

end

theorem clearingRead_pond (s : State) (p : Nat) (h : p < 132) (hp : s.rst.phase = .started)
    (hl : s.latched .pcie (0x400020 + 0x1000 * p) = none) : Answers (exec (.clearingRead .pcie (0x400020 + 0x1000 * p)) s) fun t =>
      tget 0 t.bus.readData 4 = (s.pond p).ceCnt ∧ (t.pond p).ceCnt = 0 ∧ FrameBut [.bus, .perf, .pnd] s t := by
  have hd : (0x400020 + 0x1000 * p - 0x400000) / 0x1000 = p := by omega
  generalize ha : 0x400020 + 0x1000 * p = a at hl hd ⊢
  have he := busRead_low (a := a) (by omega) (by omega) (by omega) (s := s) (by simp [hp])
  rw [fabricRead_narrow (wideLow_pondCount (by omega) (by omega) (by omega)) hl,
    readWord_pondCount (by omega) (by omega) (by omega) hp, hd] at he
  refine answers_event (congrArg done he) ⟨settle_readAnswer_data .pcie _ _, ?_, frameBut_done (by simp)⟩
  exact congrArg Pond.ceCnt (State.modPond_pond_same ..)

end Sys2Proof.Machine

open Sys2Proof Sys2Proof.Machine

/-- Settles O15: one lemma for each clause. -/
theorem registerReads : Obligations.RegisterReads := by
  unfold Obligations.RegisterReads
  exact ⟨coherentRead_cfn, coherentRead_latched, clearingRead_futWrRej, clearingRead_pond⟩

end

section
/-!
PROOFS. A write through a broadcast window.
-/

namespace Sys2Proof.Machine

theorem aliasOf_all (o : Nat) (h : o < 0x2000) : aliasOf (0x200000 + o) = some ((List.range 128).map (0 + ·), o) := by
  have hm : (0x200000 + o) % 0x2000 = o := by omega
  unfold aliasOf
  rw [if_pos (by grind), hm]

theorem aliasOf_cluster (j o : Nat) (hj : j < 16) (h : o < 0x2000) :
    aliasOf (0x202000 + 0x2000 * j + o) = some ((List.range 8).map (8 * j + ·), o) := by
  have hm : (0x202000 + 0x2000 * j + o) % 0x2000 = o := by omega
  have hd : (0x202000 + 0x2000 * j + o - 0x202000) / 0x2000 * 8 = 8 * j := by omega
  unfold aliasOf
  rw [if_neg (by grind), if_pos (by grind), hm, hd]

theorem aliasOf_quadrant (q o : Nat) (hq : q < 4) (h : o < 0x2000) :
    aliasOf (0x222000 + 0x2000 * q + o) = some ((List.range 32).map (32 * q + ·), o) := by
  have hm : (0x222000 + 0x2000 * q + o) % 0x2000 = o := by omega
  have hd : (0x222000 + 0x2000 * q + o - 0x222000) / 0x2000 * 32 = 32 * q := by omega
  unfold aliasOf
  rw [if_neg (by grind), if_neg (by grind), if_pos (by grind), hm, hd]

theorem aliasOf_nodup {a o : Nat} {l : List Nat} (h : aliasOf a = some (l, o)) : l.Nodup := by
  have hn (g n : Nat) : ((List.range n).map (g + ·)).Nodup := nodup_block g n
  unfold aliasOf at h
  dsimp only at h
  split at h
  · cases h
    exact hn _ _
  split at h
  · cases h
    exact hn _ _
  split at h
  · cases h
    exact hn _ _
  · exact absurd h (by simp)

/-- A word-aligned write through a broadcast window is the members' own write and one grant of PCIe (R353). -/
theorem exec_aliasWrite {s : State} {a o : Nat} {l : List Nat} (ha : a % 4 = 0) (h : aliasOf a = some (l, o)) (hs : s.rst.phase ≠ .inReset)
    (v : W32) : exec (.aliasWrite a 0xF v) s = done ((s.writeAlias a l o v).count (560 + busIndex .pcie) 1) := by
  have hx : exec (.aliasWrite a 0xF v) s = exec (.registerWrite .pcie a 0xF v []) s := rfl
  have hw : s.fabricWrite .pcie a 0xF v [] = s.writeAlias a l o v := by simp [State.fabricWrite, h]
  rw [hx, exec_registerWrite_fabric ha (decode_alias (aliasOf_range h) s) (held_of_not_inReset hs) (granted_fabric_write (.inl rfl) _ s), hw]

/-- A write reaches the reachable members where there is one (R355). -/
theorem writeAlias_reachable {s : State} {l : List Nat} (h : ∃ n ∈ l, s.laneCause n = none) (a o : Nat) (v : W32) : s.writeAlias a l o v =
    { s with lanes := (l.filter fun n => (s.laneCause n).isNone).foldl (fun t n => tmod {} t n (Lane.write o v)) s.lanes } := by
  obtain ⟨n, hn, hc⟩ := h
  unfold State.writeAlias
  split
  next he =>
    have hm : n ∈ l.filter fun n => (s.laneCause n).isNone := List.mem_filter.mpr ⟨hn, by rw [hc]; rfl⟩
    simp [he] at hm
  next => rfl

theorem writeAlias_unreachable {s : State} {l : List Nat} (h : ∀ n ∈ l, s.laneCause n ≠ none) (a o : Nat) (v : W32) :
    s.writeAlias a l o v = s.accErr a true 3 := by
  have he : (l.filter fun n => (s.laneCause n).isNone) = [] := by simpa using h
  simp [State.writeAlias, he]

theorem accErr_sticky (a : Nat) (w : Bool) (c : Nat) (s : State) : (s.accErr a w c).glb.intSticky.getLsbD 27 = true := by
  unfold State.accErr
  split
  next h => exact h
  next => exact State.raise_intSticky_self (by decide) _

theorem aliasWrite_members (s : State) (a : Nat) (v : W32) (l : List Nat) (o : Nat) (_ : a < 0x10000000) (ha : a % 4 = 0)
    (h : aliasOf a = some (l, o)) (hs : s.rst.phase ≠ .inReset) (hr : ∃ n ∈ l, s.laneCause n = none) :
    Answers (exec (.aliasWrite a 0xF v) s) fun t =>
      (∀ n ∈ l, s.laneCause n = none → t.lane n = (s.lane n).write o v) ∧
      (∀ n, n ∉ l ∨ s.laneCause n ≠ none → t.lane n = s.lane n) ∧ FrameBut [.lanes, .perf] s t := by
  have he := exec_aliasWrite ha h hs v
  rw [writeAlias_reachable hr] at he
  have hlane (n : Nat) := tget_foldl_tmod ({} : Lane) (Lane.write o v) _ ((aliasOf_nodup h).filter fun n => (s.laneCause n).isNone) s.lanes n
  simp only [List.mem_filter, Option.isNone_iff_eq_none] at hlane
  refine answers_event he ⟨fun n hn hc => ?_, fun n hn => ?_, frameBut_done (by simp)⟩
  · exact (hlane n).trans (if_pos ⟨hn, hc⟩)
  · exact (hlane n).trans (if_neg fun h => hn.elim (· h.1) (· h.2))

theorem aliasWrite_none (s : State) (a : Nat) (v : W32) (l : List Nat) (o : Nat) (_ : a < 0x10000000) (ha : a % 4 = 0)
    (h : aliasOf a = some (l, o)) (hs : s.rst.phase ≠ .inReset) (hr : ∀ n ∈ l, s.laneCause n ≠ none) :
    Answers (exec (.aliasWrite a 0xF v) s) fun t => t.glb.intSticky.getLsbD 27 = true ∧ FrameBut [.glb, .perf] s t := by
  have he := exec_aliasWrite ha h hs v
  rw [writeAlias_unreachable hr] at he
  refine answers_event he ⟨?_, frameBut_done (by simp)⟩
  rw [settle_intSticky]
  exact accErr_sticky a true 3 s

end Sys2Proof.Machine

open Sys2Proof Sys2Proof.Machine

/-- Settles O16: the three broadcast windows, and the two ends of a write. -/
theorem aliasWrite : Obligations.AliasWrite := by
  unfold Obligations.AliasWrite
  exact ⟨aliasOf_all, aliasOf_cluster, aliasOf_quadrant, aliasWrite_members, aliasWrite_none⟩

end

section
/-!
PROOFS. The Future-bank window.
-/

namespace Sys2Proof.Machine

/-! ### A write of the window by PCIe -/

section
variable {a : Nat} (h0 : 0x1000000 ≤ a) (h1 : a < 0x2000000)
include h0 h1

theorem decode_window (s : State) : s.decode .pcie a = (7, a) := by
  unfold State.decode fabricTarget
  rw [if_pos rfl, if_neg (by grind), if_neg (by grind), if_pos (by grind)]

omit h0 h1 in
/-- A write of the window is granted while a march runs there too: the bank itself discards it (R379). -/
theorem granted_window_write (a : Nat) (s : State) : s.granted .pcie true (7, a) = true := by
  simp [State.granted, State.paths, State.gatewayMay, busIndex]

theorem unreachable_window {s : State} (hs : s.rst.phase = .started) : s.unreachable a = none := by
  unfold State.unreachable
  dsimp only
  iterate 12 rw [if_neg (by grind)]
  rw [if_pos (by grind), if_neg (by simp [State.coreDown, hs])]

theorem poke_window (v : W32) (s : State) : s.poke .pcie a v [] =
    if a % 8 = 0 then s.windowLo .pcie ((a - 0x1000000) / 8) v else s.windowHi .pcie ((a - 0x1000000) / 8) v := by
  unfold State.poke
  iterate 16 rw [if_neg (by grind)]
  rw [if_pos (by grind)]

theorem busWrite_window {s : State} (hs : s.rst.phase = .started) (ha : a % 4 = 0) (v : W32) : s.busWrite .pcie a 0xF v [] =
    (if a % 8 = 0 then s.windowLo .pcie ((a - 0x1000000) / 8) v else s.windowHi .pcie ((a - 0x1000000) / 8) v).count (560 + busIndex .pcie) 1 := by
  have ht : s.targetWrite .pcie 7 a 0xF v [] = s.fabricWrite .pcie a 0xF v [] := by simp [State.targetWrite]
  have hf : s.fabricWrite .pcie a 0xF v [] = s.poke .pcie a v [] := by
    have h2 : ¬ 0x2000000 ≤ a := by omega
    simp [State.fabricWrite, aliasOf_none (a := a) (by omega), unreachable_window h0 h1 hs, h2]
  rw [busWrite_aligned ha]
  unfold State.writeOne
  simp only [decode_window h0 h1, held_of_started hs, granted_window_write, Bool.false_eq_true, if_false, Bool.not_true, ht, hf, poke_window h0 h1]

end

section
variable {s : State} {k : Nat} (hk : k < 2097152) (hs : s.rst.phase = .started)
include hk hs

theorem exec_windowLo (v : W32) : exec (.futureWindowWriteLo .pcie k 0xF v) s = done ((s.windowLo .pcie k v).count (560 + busIndex .pcie) 1) := by
  have hx : exec (.futureWindowWriteLo .pcie k 0xF v) s = done (if 2097152 ≤ k then s else s.busWrite .pcie (0x1000000 + 8 * k) 0xF v []) := rfl
  have hd : (0x1000000 + 8 * k - 0x1000000) / 8 = k := by omega
  rw [hx, if_neg (by omega), busWrite_window (by omega) (by omega) hs (by omega), if_pos (by omega), hd]

theorem exec_windowHi (v : W32) : exec (.futureWindowWriteHi .pcie k 0xF v) s = done ((s.windowHi .pcie k v).count (560 + busIndex .pcie) 1) := by
  have hx : exec (.futureWindowWriteHi .pcie k 0xF v) s = done (if 2097152 ≤ k then s else s.busWrite .pcie (0x1000004 + 8 * k) 0xF v []) := rfl
  have hd : (0x1000004 + 8 * k - 0x1000000) / 8 = k := by omega
  rw [hx, if_neg (by omega), busWrite_window (by omega) (by omega) hs (by omega), if_neg (by omega), hd]

end

/-! ### What the bank and the held words become -/

theorem windowLo_open {s : State} (h : s.windowOpen = true) (m : BusMaster) (k : Nat) (v : W32) :
    s.windowLo m k v = s.modSch fun c => { c with held := tins c.held (busIndex m) (k, v) } := by
  simp [State.windowLo, h]

theorem windowLo_closed {s : State} (h : s.windowOpen = false) (m : BusMaster) (k : Nat) (v : W32) :
    s.windowLo m k v = s.modSch fun c => { c.rejectWrite with held := tdel c.held (busIndex m) } := by
  simp [State.windowLo, h]

theorem rejectWrite_bank (c : Sch) (b : Nat) : c.rejectWrite.bank b = c.bank b := rfl

theorem rejectWrite_sticky (c : Sch) : c.rejectWrite.sticky.getLsbD 2 = true := getLsbD_setBit_true_self _ (by decide)

theorem Sch.modBank_bank_same (b : Nat) (f : Bank → Bank) (c : Sch) : (c.modBank b f).bank b = f (c.bank b) := by
  unfold Sch.modBank Sch.bank
  split
  · rfl
  split <;> rfl

theorem Bank.store_entry_same (k : Nat) (e : BitVec 48) (b : Bank) : (b.store k e).entry k = e := by
  unfold Bank.entry Bank.store
  cases hu : b.undef with
  | none => simp
  | some n =>
    have hm : k ∈ addNew b.written k := by
      unfold addNew
      split
      next h => simpa using h
      next => simp
    simp [hm]

theorem Bank.store_entry_ne {k j : Nat} (h : j ≠ k) (e : BitVec 48) (b : Bank) : (b.store k e).entry j = b.entry j := by
  unfold Bank.entry Bank.store
  cases hu : b.undef with
  | none => simp [h]
  | some n =>
    have hm : j ∈ addNew b.written k ↔ j ∈ b.written := by
      unfold addNew
      split
      · rfl
      · simp [h]
    simp [hm, h]

/-- The state after the held word `lo` was completed by `v`. -/
def State.entryStored (k : Nat) (lo v : W32) (s : State) : State :=
  s.modSch fun c => { (c.modBank c.future (Bank.store k (BitVec.ofNat 48 (v.toNat % 65536 * 2 ^ 32 + lo.toNat)))) with held := tdel c.held 4 }

theorem modBank_future (b : Nat) (f : Bank → Bank) (c : Sch) : (c.modBank b f).future = c.future := by
  unfold Sch.modBank
  split
  · rfl
  split <;> rfl

theorem entryStored_bank (k : Nat) (lo v : W32) (s : State) :
    (s.entryStored k lo v).futureBank = s.futureBank.store k (BitVec.ofNat 48 (v.toNat % 65536 * 2 ^ 32 + lo.toNat)) := by
  have hf : (s.entryStored k lo v).sch.future = s.sch.future := modBank_future ..
  unfold State.futureBank
  rw [hf]
  exact Sch.modBank_bank_same ..

/-- A completed entry is stored, and a valid one ungates the clusters of its streams. -/
theorem windowHi_stores {s : State} {k : Nat} {lo : W32} (h : s.windowOpen = true) (hh : tfind s.sch.held 4 = some (k, lo)) (v : W32) :
    ∃ u, s.windowHi .pcie k v = u ∧ u.sch = (s.entryStored k lo v).sch ∧ u.rest [.sch, .pwr] = s.rest [.sch, .pwr] := by
  refine ⟨_, rfl, ?_, by simp⟩
  have hh' : tfind s.sch.held (busIndex .pcie) = some (k, lo) := hh
  unfold State.windowHi
  simp only [h, hh', Bool.not_true, Bool.false_eq_true, if_false, bne_self_eq_false]
  split <;> rfl

/-- A +4 word that completes nothing is discarded and counted. -/
theorem windowHi_rejects {s : State} {k : Nat} (h : s.windowOpen = false ∨ (tfind s.sch.held 4).map Prod.fst ≠ some k) (v : W32) :
    ∃ t, s.windowHi .pcie k v = s.modSch fun c => { c.rejectWrite with held := t } := by
  have hx : tfind s.sch.held (busIndex .pcie) = tfind s.sch.held 4 := rfl
  unfold State.windowHi
  rw [hx]
  cases ho : s.windowOpen with
  | false => exact ⟨tdel s.sch.held 4, rfl⟩
  | true =>
    have hk := h.resolve_left (by simp [ho])
    cases hf : tfind s.sch.held 4 with
    | none => exact ⟨s.sch.held, rfl⟩
    | some p =>
      obtain ⟨j, lo⟩ := p
      have hj : (j != k) = true := by simpa [hf] using hk
      exact ⟨s.sch.held, by simp only [Bool.not_true, Bool.false_eq_true, if_false, hj, if_true]; rfl⟩

/-! ### The clauses -/

theorem futureWindowWriteLo_holds (s : State) (k : Nat) (v : W32) (hk : k < 2097152) (hs : s.rst.phase = .started) (ho : s.windowOpen = true) :
    Answers (exec (.futureWindowWriteLo .pcie k 0xF v) s) fun t =>
      tfind t.sch.held 4 = some (k, v) ∧ t.futureBank = s.futureBank ∧ FrameBut [.sch, .perf] s t := by
  have he := exec_windowLo hk hs v
  rw [windowLo_open ho] at he
  exact answers_event he ⟨tfind_tins_same .., rfl, frameBut_done (by simp)⟩

theorem futureWindowWriteHi_stores (s : State) (k : Nat) (lo v : W32) (hk : k < 2097152) (hs : s.rst.phase = .started) (ho : s.windowOpen = true)
    (_ : s.sch.future < 3) (hh : tfind s.sch.held 4 = some (k, lo)) : Answers (exec (.futureWindowWriteHi .pcie k 0xF v) s) fun t =>
      t.futureBank.entry k = BitVec.ofNat 48 (v.toNat % 65536 * 2 ^ 32 + lo.toNat) ∧ tfind t.sch.held 4 = none ∧
      (∀ k', k' ≠ k → t.futureBank.entry k' = s.futureBank.entry k') ∧ FrameBut [.sch, .perf, .pwr] s t := by
  obtain ⟨u, hu, hsch, hr⟩ := windowHi_stores ho hh v
  have he := exec_windowHi hk hs v
  rw [hu] at he
  have hbank : (u.count (560 + busIndex .pcie) 1).settle.futureBank =
      s.futureBank.store k (BitVec.ofNat 48 (v.toNat % 65536 * 2 ^ 32 + lo.toNat)) :=
    (congrArg (fun c : Sch => c.bank c.future) hsch).trans (entryStored_bank k lo v s)
  have hf : FrameBut [.sch, .pwr] s u := frameBut_of_rest hr
  refine answers_event he ⟨?_, ?_, fun j hj => ?_, ?_⟩
  · rw [hbank, Bank.store_entry_same]
  · rw [State.settle_sch, State.count_sch, hsch]
    exact tfind_tdel_same ..
  · rw [hbank, Bank.store_entry_ne hj]
  · exact ((hf.mono (by simp)).trans ((frameBut_count _ _ u).mono (by simp))).then_settle

theorem futureWindowWriteHi_rejects (s : State) (k : Nat) (v : W32) (hk : k < 2097152) (hs : s.rst.phase = .started)
    (hr : s.windowOpen = false ∨ (tfind s.sch.held 4).map Prod.fst ≠ some k) : Answers (exec (.futureWindowWriteHi .pcie k 0xF v) s) fun t =>
      t.futureBank = s.futureBank ∧ t.sch.sticky.getLsbD 2 = true ∧ t.sch.futWrRej = satAdd s.sch.futWrRej 1 ∧ FrameBut [.sch, .perf] s t := by
  obtain ⟨l, hl⟩ := windowHi_rejects hr v
  have he := exec_windowHi hk hs v
  rw [hl] at he
  exact answers_event he ⟨rfl, rejectWrite_sticky s.sch, rfl, frameBut_done (by simp [Sch.rejectWrite, Sch.flag])⟩

theorem futureWindowWriteLo_rejects (s : State) (k : Nat) (v : W32) (hk : k < 2097152) (hs : s.rst.phase = .started) (ho : s.windowOpen = false) :
    Answers (exec (.futureWindowWriteLo .pcie k 0xF v) s) fun t =>
      t.futureBank = s.futureBank ∧ tfind t.sch.held 4 = none ∧ t.sch.sticky.getLsbD 2 = true ∧
      t.sch.futWrRej = satAdd s.sch.futWrRej 1 ∧ FrameBut [.sch, .perf] s t := by
  have he := exec_windowLo hk hs v
  rw [windowLo_closed ho] at he
  exact answers_event he ⟨rfl, tfind_tdel_same .., rejectWrite_sticky s.sch, rfl, frameBut_done (by simp [Sch.rejectWrite, Sch.flag])⟩

end Sys2Proof.Machine

open Sys2Proof Sys2Proof.Machine

/-- Settles O18: one lemma for each clause. -/
theorem futureWindow : Obligations.FutureWindow := by
  unfold Obligations.FutureWindow
  exact ⟨futureWindowWriteLo_holds, futureWindowWriteHi_stores, futureWindowWriteHi_rejects, futureWindowWriteLo_rejects⟩

end

section
/-!
PROOFS. Request buffers and doorbells.
-/

namespace Sys2Proof.Machine

/-! ### Writes of the request buffer -/

section
variable {n o : Nat} (hn : n < 8) (ho : o < 0x1000) (ha : o % 4 = 0) {s : State} (hs : s.rst.phase = .started) (hr : s.inReset (7 + n) = false)
include hn ho ha hs hr

/-- In a started device a write of a mailbox's request buffer reaches it while the mailbox is not in reset (R336, R356). -/
theorem exec_mbRequestWrite (v : W32) : exec (.mbRequestWrite n o 0xF v) s =
    done ((if n = 7 then s else s.writeRequest n o v).count (560 + busIndex .pcie) 1) := by
  have hx : exec (.mbRequestWrite n o 0xF v) s =
      done (if 8 ≤ n || 0x1000 ≤ o then s else s.busWrite .pcie (0x10000 + 0x4000 * n + o) 0xF v []) := rfl
  have hd : (0x10000 + 0x4000 * n + o - 0x10000) / 0x4000 = n := by omega
  have hm : (0x10000 + 0x4000 * n + o) % 0x4000 = o := by omega
  have hu : s.unreachable (0x10000 + 0x4000 * n + o) = none := by
    unfold State.unreachable
    dsimp only
    rw [if_neg (by omega), if_neg (by simp [hs]), if_pos (by omega), hd, if_neg (by simp [hr])]
  have hp : s.poke .pcie (0x10000 + 0x4000 * n + o) v [] = if n = 7 then s else s.writeRequest n o v := by
    unfold State.poke
    rw [if_neg (by omega), if_pos (by omega), hd, hm]
    exact if_pos ho
  rw [hx, if_neg (by grind), busWrite_low (by omega) (by omega) (by omega) (by omega) (by simp [hs]) hu, hp]

end

theorem mbRequestWrite_stores (s : State) (n o : Nat) (v : W32) (hn : n < 7) (ho : o < 0x1000) (ha : o % 4 = 0) (hs : s.rst.phase = .started)
    (hr : s.inReset (7 + n) = false) (hb : (s.box n).state ≠ .busy) : Answers (exec (.mbRequestWrite n o 0xF v) s) fun t =>
      t.box n = { s.box n with req := tover 0 o (leBytes 4 v.toNat) (s.box n).req } ∧ (∀ k, k ≠ n → t.box k = s.box k) ∧
      t.mbx = { s.mbx with boxes := t.mbx.boxes } ∧ FrameBut [.mbx, .perf] s t := by
  have hw : s.writeRequest n o v = s.modBox n fun b => { b with req := tover 0 o (leBytes 4 v.toNat) b.req } := if_neg hb
  have he := exec_mbRequestWrite (by omega) ho ha hs hr v
  rw [if_neg (by omega), hw] at he
  exact answers_event he ⟨State.modBox_box_same .., fun k hk => State.modBox_box_ne _ _ _ hk _, rfl, frameBut_done (by simp)⟩

theorem mbRequestWrite_busy (s : State) (n o : Nat) (v : W32) (hn : n < 7) (ho : o < 0x1000) (ha : o % 4 = 0) (hs : s.rst.phase = .started)
    (hr : s.inReset (7 + n) = false) (hb : (s.box n).state = .busy) : Answers (exec (.mbRequestWrite n o 0xF v) s) fun t =>
      t.box n = { s.box n with reject := true } ∧ (∀ k, k ≠ n → t.box k = s.box k) ∧ t.mbx = { s.mbx with boxes := t.mbx.boxes } ∧
      FrameBut [.mbx, .perf] s t := by
  have hw : s.writeRequest n o v = s.modBox n fun b => { b with reject := true } := if_pos hb
  have he := exec_mbRequestWrite (by omega) ho ha hs hr v
  rw [if_neg (by omega), hw] at he
  exact answers_event he ⟨State.modBox_box_same .., fun k hk => State.modBox_box_ne _ _ _ hk _, rfl, frameBut_done (by simp)⟩

theorem mbRequestWrite_ring (s : State) (o : Nat) (v : W32) (ho : o < 0x1000) (ha : o % 4 = 0) (hs : s.rst.phase = .started)
    (hr : s.inReset 14 = false) : Answers (exec (.mbRequestWrite 7 o 0xF v) s) fun t => FrameBut [.perf] s t := by
  have he := exec_mbRequestWrite (n := 7) (by omega) ho ha hs hr v
  rw [if_pos rfl] at he
  exact answers_event he (frameBut_done (by simp))

/-! ### Doorbells -/

theorem modBox_mbx (n : Nat) (f : Mb → Mb) (s : State) : (s.modBox n f).mbx = { s.mbx with boxes := (s.modBox n f).mbx.boxes } := rfl

/-- The mailbox of a request that was taken. -/
theorem filled_box_same (code : Nat) (r : MbReq) (s : State) : (s.filled code r).box r.mb = { (s.box r.mb).fill code r with state := .busy } := by
  have hb : (s.filled code r).mbx.boxes = (((s.modBox r.mb (Mb.fill code r)).modBox r.mb fun b => { b with state := .busy })).mbx.boxes :=
    State.note_boxes _ _
  unfold State.box Mbx.box
  rw [hb]
  change ((((s.modBox r.mb (Mb.fill code r)).modBox r.mb fun b => { b with state := .busy })).box r.mb) = _
  rw [State.modBox_box_same, State.modBox_box_same]
  rfl

section
variable (code : Nat) (f : Form) (body : Run) (r : MbReq) (s : State)

/-- A request that reaches a mailbox of a started device fills its buffer and rings. -/
theorem request_reaches {code : Nat} {run : Run} {r : MbReq} {s : State} (hm : r.mb < 8) (hs : s.rst.phase = .started) (hi : s.inReset (7 + r.mb) = false) :
    s.request code run r = (if r.mb = 7 then s else s.modBox r.mb (Mb.fill code r)).ring code run r := by
  have h8 : ¬ r.mb > 7 := by omega
  unfold State.request
  simp only [h8, decide_false, Bool.false_or, held_of_started hs, Bool.false_eq_true, if_false, hi]

theorem doorbell_ignored (hm : r.mb < 8) (hs : s.rst.phase = .started) (hi : s.inReset (7 + r.mb) = false)
    (hst : r.mb = 7 ∨ (s.box r.mb).state = .busy ∨ (s.box r.mb).state = .closed) : Answers (mailboxRow code f body r s) fun t =>
      t.box r.mb = { s.box r.mb with
        ignored := true, reject := (s.box r.mb).reject || (r.mb ≠ 7 && (s.box r.mb).state = .busy),
        req := if r.mb = 7 ∨ (s.box r.mb).state = .busy then (s.box r.mb).req else tover 0 0 (reqImage code r) (s.box r.mb).req } ∧
      (∀ k, k ≠ r.mb → t.box k = s.box k) ∧ t.mbx = { s.mbx with boxes := t.mbx.boxes } ∧ FrameBut [.mbx] s t := by
  let u := if r.mb = 7 then s else s.modBox r.mb (Mb.fill code r)
  have hsame : u.box r.mb = if r.mb = 7 then s.box r.mb else (s.box r.mb).fill code r := by
    unfold u
    split
    · rfl
    · rw [State.modBox_box_same]
  have hother (k : Nat) (hk : k ≠ r.mb) : u.box k = s.box k := by
    unfold u
    split
    · rfl
    · rw [State.modBox_box_ne _ _ _ hk]
  have hmbx : u.mbx = { s.mbx with boxes := u.mbx.boxes } := by
    unfold u
    split <;> rfl
  have hstate : (u.box r.mb).state = (s.box r.mb).state := by
    rw [hsame]
    split
    · rfl
    · exact fill_state ..
  have hring : u.ring code (runForm code f body) r = u.modBox r.mb fun b => { b with ignored := true } := by
    unfold State.ring
    rw [if_pos]
    simpa only [hstate, Bool.or_eq_true, decide_eq_true_eq, or_assoc] using hst
  have he : mailboxRow code f body r s = done (u.modBox r.mb fun b => { b with ignored := true }) := by
    unfold mailboxRow
    rw [request_reaches hm hs hi, hring]
  rw [he]
  refine (answers_done _ _).mpr ⟨?_, fun k hk => ?_, ?_, frameBut_done (by simp [u])⟩
  · rw [settle_box, State.modBox_box_same, hsame]
    unfold Mb.fill
    by_cases h7 : r.mb = 7
    · simp [h7]
    · by_cases hb : (s.box r.mb).state = .busy <;> simp [h7, hb]
  · rw [settle_box, State.modBox_box_ne _ _ _ hk, hother k hk]
  · rw [State.settle_mbx, modBox_mbx, hmbx]

theorem doorbell_waits (hm : r.mb < 7) (hs : s.rst.phase = .started) (hi : s.inReset (7 + r.mb) = false)
    (hst : (s.box r.mb).state = .idle ∨ (s.box r.mb).state = .done) (hd : s.pert.bellDelay r.mb = 0)
    (hw : s.cpServes = false ∨ s.mbx.waiting.any (Waiting.ripe s.tick) = true) : Answers (mailboxRow code f body r s) fun t =>
      (t.box r.mb).state = .busy ∧ (t.box r.mb).req = tover 0 0 (reqImage code r) (s.box r.mb).req ∧ (t.box r.mb).resp = (s.box r.mb).resp ∧
      t.mbx.waiting = s.mbx.waiting ++ [⟨BitVec.ofNat 16 code, r, none, [], false⟩] ∧ FrameBut exchangeParts s t := by
  have hn : ¬ (s.box r.mb).state = .busy ∧ ¬ (s.box r.mb).state = .closed := by rcases hst with h | h <;> rw [h] <;> simp
  have h7 : ¬ r.mb = 7 := by omega
  have hw' : ((s.filled code r).cpServes && !((s.filled code r).mbx.waiting.any (Waiting.ripe (s.filled code r).tick))) = false := by
    rw [filled_serves, filled_waiting, filled_tick]
    rcases hw with h | h <;> simp [h]
  have he : mailboxRow code f body r s =
      done ((s.filled code r).modMbx fun m => { m with waiting := m.waiting ++ [⟨BitVec.ofNat 16 code, r, none, [], false⟩] }) := by
    unfold State.filled at hw' ⊢
    unfold mailboxRow
    rw [request_reaches (by omega) hs hi, if_neg h7]
    unfold State.ring
    rw [if_neg (by simp [h7, fill_state, hn])]
    simp only [State.modBox_pert, hd, lt_self_iff_false, decide_false, Bool.false_and, Bool.false_eq_true, if_false, hw']
  have hbox : ((s.filled code r).modMbx fun m => { m with
      waiting := m.waiting ++ [⟨BitVec.ofNat 16 code, r, none, [], false⟩] }).box r.mb = (s.filled code r).box r.mb := rfl
  have hfill : (s.box r.mb).fill code r = { s.box r.mb with req := tover 0 0 (reqImage code r) (s.box r.mb).req } := if_neg hn.1
  rw [he]
  refine (answers_done _ _).mpr ⟨?_, ?_, ?_, ?_, frameBut_done (by simp [exchangeParts])⟩
  · rw [settle_box, hbox, filled_box_same]
  · rw [settle_box, hbox, filled_box_same, hfill]
  · rw [settle_box, hbox, filled_box_same, hfill]
  · rw [State.settle_mbx, State.modMbx_mbx, filled_waiting]

theorem doorbell_inReset (hm : r.mb < 8) (hs : s.rst.phase = .started) (hi : s.inReset (7 + r.mb) = true)
    (h27 : s.glb.intSticky.getLsbD 27 = false) : Answers (mailboxRow code f body r s) fun t =>
      t.glb.intSticky.getLsbD 27 = true ∧ t.glb.accErrAddr.toNat = 0x10000 + 0x4000 * r.mb ∧
      t.glb.accErrInfo = 0xA0000000 ∧ FrameBut [.glb] s t := by
  have h8 : ¬ r.mb > 7 := by omega
  have he : mailboxRow code f body r s = done (s.accErr (0x10000 + 0x4000 * r.mb) true 1) := by
    unfold mailboxRow State.request
    simp only [h8, decide_false, Bool.false_or, held_of_started hs, Bool.false_eq_true, if_false, hi, if_true]
  have hinfo : BitVec.ofNat 32 (b2n true * 2 ^ 31 + 1 % 4 * 2 ^ 29) = 0xA0000000#32 := by decide
  rw [accErr_first h27] at he
  rw [he]
  refine (answers_done _ _).mpr ⟨?_, ?_, ?_, frameBut_done (by simp)⟩
  · rw [settle_intSticky]
    exact State.raise_intSticky_self (by decide) _
  · rw [settle_accErrAddr]
    exact (BitVec.toNat_ofNat _ _).trans (Nat.mod_eq_of_lt (by omega))
  · rw [settle_accErrInfo]
    exact hinfo

end

end Sys2Proof.Machine

open Sys2Proof Sys2Proof.Machine

/-- Settles O20: writes of the buffer, and a doorbell that is ignored, waits or finds its mailbox in reset. -/
theorem mailboxDoorbell : Obligations.MailboxDoorbell := by
  unfold Obligations.MailboxDoorbell
  exact ⟨mbRequestWrite_stores, mbRequestWrite_busy, mbRequestWrite_ring, doorbell_ignored, doorbell_waits, doorbell_inReset⟩

end

section
/-!
PROOFS. An end of interrupt whose own grant raises the interrupt of a counter.
-/

namespace Sys2Proof.Machine

/-- A started device whose counter 564, the grants of PCIe, interrupts at every increment. -/
def everyGrantInterrupts : State :=
  ((State.reset.modRst fun x => { x with phase := .started }).modPerf fun p => { p with
    cfg := [(564, 0x80000001)] }).modGlb fun g => { g with intEnable := 0x400, msixMask := false }

theorem everyGrantInterrupts_eoi : Answers (exec (.intEoi 0) everyGrantInterrupts) fun t => t.glb.msixSent = 1 :=
  ⟨_, rfl, by decide +kernel⟩

end Sys2Proof.Machine

open Sys2Proof Sys2Proof.Machine

/-- Refutes O21: the write of `GLB.INT_EOI` is counted, and the count's crossing sends a message. -/
theorem not_interruptOutputs : ¬ Obligations.InterruptOutputs := by
  unfold Obligations.InterruptOutputs
  intro h
  obtain ⟨-, hclear, -⟩ := h
  obtain ⟨t, ht, hs⟩ := hclear everyGrantInterrupts 0 (by decide) (by decide +kernel)
  obtain ⟨u, hu, hn⟩ := everyGrantInterrupts_eoi
  cases hu.symm.trans ht
  rw [hn] at hs
  exact absurd hs (by decide)

end

section
/-!
PROOFS. The transmit taps.
-/

namespace Sys2Proof.Machine

theorem fld_eq_extract (lo w : Nat) (v : W32) : fld v.toNat lo w = (v.extractLsb' lo w).toNat := by
  simp [fld, BitVec.extractLsb'_toNat, Nat.shiftRight_eq_div_pow]

/-- A mask that holds all of a field leaves the field. -/
theorem fld_and (lo w : Nat) (v m : W32) (h : m.extractLsb' lo w = BitVec.allOnes w) : fld (v &&& m).toNat lo w = fld v.toNat lo w := by
  rw [fld_eq_extract, fld_eq_extract, BitVec.extractLsb'_and, h, BitVec.and_allOnes]

/-- Replacing the PRE1 and POST1 fields of a word. -/
theorem fld_setTaps (x post pre : Nat) (hx : x < 2 ^ 32) (hpost : post < 64) (hpre : pre < 64) :
    let y := setFld (setFld x 12 6 post) 18 6 pre
    y < 2 ^ 32 ∧ fld y 24 4 = fld x 24 4 ∧ fld y 18 6 = pre ∧ fld y 12 6 = post := by
  simp only [setFld, fld]
  omega

theorem phyValue_taps (v : W32) : fld (phyValue v).toNat 24 4 = fld v.toNat 24 4 ∧
    fld (phyValue v).toNat 18 6 = min (fld v.toNat 18 6) (32 - fld v.toNat 24 4) ∧
    fld (phyValue v).toNat 12 6 = min (fld v.toNat 12 6) (32 - fld v.toNat 24 4 - fld v.toNat 18 6) ∧
    fld (phyValue v).toNat 24 4 + fld (phyValue v).toNat 18 6 + fld (phyValue v).toNat 12 6 ≤ 32 := by
  have h24 := fld_and 24 4 v 0xFFFFF03F#32 (by decide)
  have h18 := fld_and 18 6 v 0xFFFFF03F#32 (by decide)
  have h12 := fld_and 12 6 v 0xFFFFF03F#32 (by decide)
  have hx := (v &&& 0xFFFFF03F#32).isLt
  have hp : fld v.toNat 24 4 < 16 := Nat.mod_lt _ (by decide)
  unfold phyValue
  dsimp only
  rw [h24, h18, h12]
  obtain ⟨hy, h1, h2, h3⟩ := fld_setTaps _ (min (fld v.toNat 12 6) (32 - (fld v.toNat 24 4 + fld v.toNat 18 6)))
    (min (fld v.toNat 18 6) (32 - fld v.toNat 24 4)) hx (by omega) (by omega)
  rw [BitVec.toNat_ofNat, Nat.mod_eq_of_lt hy, h1, h2, h3, h24]
  omega

theorem phyCfgWrite_takes (s : State) (n : Nat) (v : W32) (hn : n < 128) (hs : s.rst.phase = .started) (hc : s.laneCause n = none) :
    Answers (exec (.phyCfgWrite n 0xF v) s) fun t =>
      (t.lane n).phyCfg = phyValue v ∧ (∀ k, k ≠ n → t.lane k = s.lane k) ∧ FrameBut [.lanes, .perf] s t := by
  have hx : exec (.phyCfgWrite n 0xF v) s = done (if 128 ≤ n then s else s.busWrite .pcie (0x100300 + 0x2000 * n) 0xF v []) := rfl
  have hd : (0x100300 + 0x2000 * n - 0x100000) / 0x2000 = n := by omega
  have hm : (0x100300 + 0x2000 * n) % 0x2000 = 0x300 := by omega
  generalize ha : 0x100300 + 0x2000 * n = a at hx hd hm
  have hu : s.unreachable a = none := by
    unfold State.unreachable
    dsimp only
    iterate 10 rw [if_neg (by grind)]
    rw [if_pos (by grind), hd, hc]
  have hp : s.poke .pcie a v [] = s.modLane n (Lane.write 0x300 v) := by
    unfold State.poke
    iterate 12 rw [if_neg (by grind)]
    rw [if_pos (by grind), hd, hm]
  rw [hx, if_neg (by omega), busWrite_low (by omega) (by omega) (by omega) (by omega) (by simp [hs]) hu, hp]
  refine (answers_done _ _).mpr ⟨?_, fun k hk => ?_, frameBut_done (by simp)⟩
  · exact congrArg Lane.phyCfg (State.modLane_lane_same ..)
  · exact State.modLane_lane_ne _ _ _ hk _

end Sys2Proof.Machine

open Sys2Proof Sys2Proof.Machine

/-- Settles O22: the reduction of the taps, and the write of a lane's register. -/
theorem transmitTaps : Obligations.TransmitTaps := by
  unfold Obligations.TransmitTaps
  exact ⟨phyValue_taps, phyCfgWrite_takes⟩

end

section
/-!
PROOFS. The key desk.
-/

namespace Sys2Proof.Machine

/-- The desk with the operation that PF0 starts. -/
def State.deskSet (op slot : Nat) (s : State) : State :=
  s.modKey fun k => { k with deskOp := BitVec.ofNat 3 op, deskSlot := BitVec.ofNat 14 slot, lastSlot := slot % 16384 }

section
variable {s : State} {op k : Nat} {run : State → Nat × State} (hv : s.rst.variant ≠ 2) (hb : s.key.busy = none)
include hv hb

theorem desk_runs (ho : s.key.owner = 1) : s.desk op k run =
    (run (s.deskSet op k)).2.modKey fun x => { x with busy := some (op, (run (s.deskSet op k)).1) } := by
  have ho' : ¬ ((s.deskSet op k).key.owner != 1) = true := by simpa [State.deskSet] using ho
  unfold State.deskSet at ho' ⊢
  unfold State.desk
  rw [if_neg (by simpa [hb] using hv)]
  dsimp only
  rw [if_neg ho']

theorem desk_refused (ho : s.key.owner ≠ 1) : s.desk op k run = (s.deskSet op k).modKey fun x => { x with result := 1 } := by
  have ho' : ((s.deskSet op k).key.owner != 1) = true := by simpa [State.deskSet] using ho
  unfold State.deskSet at ho' ⊢
  unfold State.desk
  rw [if_neg (by simpa [hb] using hv)]
  dsimp only
  rw [if_pos ho']

end

theorem keyDeskClaim_takes (s : State) (hv : s.rst.variant ≠ 2) (ho : s.key.owner = 0) : Answers (exec .keyDeskClaim s) fun t =>
    t.key = { s.key with owner := 1 } ∧ FrameBut [.key] s t := by
  have he : execKeyDeskClaim s = done (s.modKey (Key.claim 1)) := congrArg done (if_neg hv)
  exact answers_event he ⟨by simp [Key.claim, ho], frameBut_done (by simp)⟩

theorem keyDeskClaim_refused (s : State) (hv : s.rst.variant ≠ 2) (ho : s.key.owner ≠ 0) : Answers (exec .keyDeskClaim s) fun t =>
    t.key.owner = s.key.owner ∧ t.key.sticky.getLsbD 5 = true ∧ FrameBut [.key] s t := by
  have he : execKeyDeskClaim s = done (s.modKey (Key.claim 1)) := congrArg done (if_neg hv)
  have hk : Key.claim 1 s.key = s.key.flag 5 := by simp [Key.claim, ho]
  refine answers_event he ⟨?_, ?_, frameBut_done (by simp)⟩
  · rw [State.settle_key, State.modKey_key, hk]
    rfl
  · rw [State.settle_key, State.modKey_key, hk]
    exact getLsbD_setBit_true_self _ (by decide)

theorem keyDeskRelease_frees (s : State) (ho : s.key.owner = 1) : Answers (exec .keyDeskRelease s) fun t =>
    t.key = { s.key with owner := 0 } ∧ FrameBut [.key] s t :=
  answers_event rfl ⟨by simp [ho], frameBut_done (by simp)⟩

section
variable {s : State} {k : Nat}

theorem deskLoadRun_blocked (h : s.key.blocked = true) (e : FetchErrors) : deskLoadRun k e s = (5, s) := by
  simp [deskLoadRun, h]

variable {i : Bool} (h : s.key.blocked = false) (hc : s.loadsClosed = false) (hi : (s.key.slot k).loadHalf = some i)
include h hc hi

theorem deskLoadRun_bad {e : FetchErrors} (hu : s.rst.unwrap s.key.wrapped e = some none) : deskLoadRun k e s = (3, s) := by
  simp only [deskLoadRun, h, hc, hi, hu, Bool.false_eq_true, if_false]

theorem deskLoadRun_loads {e : FetchErrors} {x : Half} (hu : s.rst.unwrap s.key.wrapped e = some (some x)) :
    deskLoadRun k e s = (0, s.modKey (Key.modSlot k fun z => { z with loadPend := some (i, x) })) := by
  simp only [deskLoadRun, h, hc, hi, hu, Bool.false_eq_true, if_false]

end

theorem deskLoad_blocked (s : State) (k : Nat) (hk : k < 16384) (hv : s.rst.variant ≠ 2) (hb : s.key.busy = none) (ho : s.key.owner = 1)
    (h : s.key.blocked = true) : Answers (exec (.deskLoad k {}) s) fun t =>
      t.key.busy = some (1, 5) ∧ t.key.slots = s.key.slots ∧ t.key.lastSlot = k := by
  have hm : k % 16384 = k := Nat.mod_eq_of_lt hk
  have hr : deskLoadRun (k % 16384) {} (s.deskSet 1 (k % 16384)) = (5, s.deskSet 1 (k % 16384)) :=
    deskLoadRun_blocked (s := s.deskSet 1 (k % 16384)) h _
  have he : execDeskLoad k {} s = done ((s.deskSet 1 (k % 16384)).modKey fun x => { x with busy := some (1, 5) }) := by
    unfold execDeskLoad
    rw [desk_runs hv hb ho, hr]
  exact answers_event he ⟨rfl, rfl, by simp [State.deskSet, hm]⟩

theorem deskLoad_unwraps (s : State) (k : Nat) (i : Bool) (hk : k < 16384) (hv : s.rst.variant ≠ 2) (hb : s.key.busy = none)
    (ho : s.key.owner = 1) (h : s.key.blocked = false) (hc : s.loadsClosed = false) (hi : (s.key.slot k).loadHalf = some i) :
    Answers (exec (.deskLoad k {}) s) fun t =>
      (∀ h, s.rst.unwrap s.key.wrapped {} = some (some h) → t.key.busy = some (1, 0) ∧ (t.key.slot k).loadPend = some (i, h)) ∧
      (s.rst.unwrap s.key.wrapped {} = some none → t.key.busy = some (1, 3) ∧ t.key.slot k = s.key.slot k) ∧
      (∀ j, j ≠ k → t.key.slot j = s.key.slot j) ∧ FrameBut [.key] s t := by
  have hm : k % 16384 = k := Nat.mod_eq_of_lt hk
  cases hu : s.rst.unwrap s.key.wrapped {} with
  | none => exact absurd hu (unwrap_clean _ _)
  | some o =>
    have he : execDeskLoad k {} s = done ((deskLoadRun k {} (s.deskSet 1 k)).2.modKey fun x =>
        { x with busy := some (1, (deskLoadRun k {} (s.deskSet 1 k)).1) }) := by
      unfold execDeskLoad
      rw [hm, desk_runs hv hb ho]
    cases o with
    | none =>
      rw [deskLoadRun_bad (s := s.deskSet 1 k) h hc hi hu] at he
      exact answers_event he ⟨by simp, fun _ => ⟨rfl, rfl⟩, fun _ _ => rfl, frameBut_done (by simp [State.deskSet])⟩
    | some x =>
      rw [deskLoadRun_loads (s := s.deskSet 1 k) h hc hi hu] at he
      refine answers_event he ⟨?_, by simp, fun j hj => Key.modSlot_slot_ne k hj (fun z => { z with loadPend := some (i, x) }) s.key, frameBut_done (by simp [State.deskSet])⟩
      rintro _ ⟨⟩
      exact ⟨rfl, congrArg Slot.loadPend (Key.modSlot_slot_same k (fun z => { z with loadPend := some (i, x) }) s.key)⟩

theorem activate_actPend (s : State) (k : Nat) : ((s.activate k).key.slot k).actPend.isSome = true := by
  have h : (s.activate k).key.slot k = _ := Key.modSlot_slot_same ..
  rw [h]
  rfl

theorem deskActivate_waits (s : State) (k : Nat) (hk : k < 16384) (hv : s.rst.variant ≠ 2) (hb : s.key.busy = none) (ho : s.key.owner = 1)
    (hn : s.activateBad k = false) : Answers (exec (.deskActivate k) s) fun t =>
      t.key.busy = some (2, 0) ∧ (t.key.slot k).actPend.isSome = true := by
  have hm : k % 16384 = k := Nat.mod_eq_of_lt hk
  have hn' : (s.deskSet 2 k).activateBad k = false := hn
  have he : execDeskActivate k s = done (((s.deskSet 2 k).activate k).modKey fun x => { x with busy := some (2, 0) }) := by
    unfold execDeskActivate
    rw [hm, desk_runs hv hb ho]
    simp only [hn', Bool.false_eq_true, if_false]
  exact answers_event he ⟨rfl, activate_actPend _ _⟩

/-- An erasure through the desk. -/
theorem desk_erases (s : State) (k : Nat) (whole : Bool) (op : Nat) (hv : s.rst.variant ≠ 2) (hb : s.key.busy = none) (ho : s.key.owner = 1) :
    ∃ u, s.desk op k (fun s => (0, s.modKey (Key.modSlot k (Slot.erase whole)))) = u ∧ u.key.busy = some (op, 0) ∧
      u.key.slot k = (s.key.slot k).erase whole ∧ u.rest [.key] = s.rest [.key] := by
  refine ⟨_, desk_runs hv hb ho, rfl, Key.modSlot_slot_same .., by simp [State.deskSet]⟩

theorem deskEraseNext_erases (s : State) (k : Nat) (hk : k < 16384) (hv : s.rst.variant ≠ 2) (hb : s.key.busy = none) (ho : s.key.owner = 1) :
    Answers (exec (.deskEraseNext k) s) fun t =>
      t.key.busy = some (3, 0) ∧ t.key.slot k = (s.key.slot k).erase false ∧ FrameBut [.key] s t := by
  obtain ⟨u, hu, h1, h2, h3⟩ := desk_erases s k false 3 hv hb ho
  have he : execDeskEraseNext k s = done u := by
    unfold execDeskEraseNext
    rw [Nat.mod_eq_of_lt hk, hu]
  exact answers_event he ⟨h1, h2, frameBut_done h3⟩

theorem deskEraseSlot_erases (s : State) (k : Nat) (hk : k < 16384) (hv : s.rst.variant ≠ 2) (hb : s.key.busy = none) (ho : s.key.owner = 1) :
    Answers (exec (.deskEraseSlot k) s) fun t =>
      t.key.busy = some (4, 0) ∧ t.key.slot k = (s.key.slot k).erase true ∧ FrameBut [.key] s t := by
  obtain ⟨u, hu, h1, h2, h3⟩ := desk_erases s k true 4 hv hb ho
  have he : execDeskEraseSlot k s = done u := by
    unfold execDeskEraseSlot
    rw [Nat.mod_eq_of_lt hk, hu]
  exact answers_event he ⟨h1, h2, frameBut_done h3⟩

theorem deskEraseSlot_refused (s : State) (k : Nat) (_ : k < 16384) (hv : s.rst.variant ≠ 2) (hb : s.key.busy = none) (ho : s.key.owner ≠ 1) :
    Answers (exec (.deskEraseSlot k) s) fun t => t.key.result = 1 ∧ t.key.busy = none ∧ t.key.slots = s.key.slots :=
  answers_event (congrArg done (desk_refused hv hb ho)) ⟨rfl, hb, rfl⟩

theorem keyDeskComplete_reports (s : State) (op r : Nat) (hb : s.key.busy = some (op, r)) : Answers (exec .keyDeskComplete s) fun t =>
    t.key = { s.key with busy := none, result := r, data := [] } ∧ FrameBut [.key] s t := by
  have he : execKeyDeskComplete s = done (s.modKey fun k => { k with busy := none, result := r, data := [] }) := by
    simp [execKeyDeskComplete, hb]
  exact answers_event he ⟨by simp, frameBut_done (by simp)⟩

end Sys2Proof.Machine

open Sys2Proof Sys2Proof.Machine

/-- Settles O23: one lemma for each clause. -/
theorem keyDesk : Obligations.KeyDesk := by
  unfold Obligations.KeyDesk
  exact ⟨keyDeskClaim_takes, keyDeskClaim_refused, keyDeskRelease_frees, deskLoad_blocked, deskLoad_unwraps, deskActivate_waits,
    deskEraseNext_erases, deskEraseSlot_erases, deskEraseSlot_refused, keyDeskComplete_reports⟩

end

section
/-!
PROOFS. The counter block's controls.
-/

namespace Sys2Proof.Machine

/-- A control of the counter block within the host's access level. -/
theorem perfAccess_taken {c : Instr} {s : State} {n : Nat} {f : Perf → Perf} (hc : exec c s = done (s.perfAccess .pcie n f))
    (h : s.perfMay .pcie n = true) : Answers (exec c s) fun t => t.perf = f s.perf ∧ FrameBut [.perf] s t := by
  have he : s.perfAccess .pcie n f = s.modPerf f := if_pos h
  rw [he] at hc
  exact answers_event hc ⟨rfl, frameBut_done (by simp)⟩

/-- A control beyond it sets DENIED_EVT alone (R448). -/
theorem perfAccess_denied {c : Instr} {s : State} {n : Nat} {f : Perf → Perf} (hc : exec c s = done (s.perfAccess .pcie n f))
    (h : s.perfMay .pcie n = false) : Answers (exec c s) fun t => t.perf = { s.perf with denied := true } ∧ FrameBut [.perf] s t := by
  have he : s.perfAccess .pcie n f = s.modPerf fun p => { p with denied := true } := if_neg (by rw [h]; decide)
  rw [he] at hc
  exact answers_event hc ⟨rfl, frameBut_done (by simp)⟩

theorem perfSnapshotDone_fills (s : State) (c : Tbl (BitVec 48)) (h : s.perf.copying = some c) : Answers (exec .perfSnapshotDone s) fun t =>
    t.perf.snap = c ∧ t.perf.done = true ∧ t.perf.copying = none ∧ t.perf.cnt = s.perf.cnt ∧ FrameBut [.perf] s t := by
  have he : execPerfSnapshotDone s = done (s.modPerf fun p => { p with snap := c, copying := none, done := true }) := by
    simp [execPerfSnapshotDone, h]
  exact answers_event he ⟨rfl, rfl, rfl, rfl, frameBut_done (by simp)⟩

theorem count_tags (i n : Nat) (p : Perf) : (p.count i n).tags = p.tags := by
  unfold Perf.count
  split <;> rfl

theorem tag_room {p : Perf} (h : p.tags.length < 256) (w : _) : (p.tag w).tags = p.tags ++ [w] := by
  unfold Perf.tag
  rw [if_pos h]

theorem tagRecord_appends (s : State) (e : TagEvent) (h6 : e.src < 6) (h31 : s.perf.tagCtrl.getLsbD 31 = true)
    (h24 : s.perf.tagCtrl.getLsbD (24 + e.src) = true) (hl : s.perf.tags.length < 256) (ho : s.perf.tagOpen e = true) :
    Answers (exec (.tagRecord e) s) fun t => t.perf.tags = s.perf.tags ++ [tagWords e s.recCfn] ∧ FrameBut [.perf] s t := by
  have he : ∃ u, execTagRecord e s = done u ∧ u.perf.tags = s.perf.tags ++ [tagWords e s.recCfn] ∧ u.rest [.perf] = s.rest [.perf] := by
    unfold execTagRecord
    rw [if_neg (by simp only [h31, h24, ho, Bool.not_true, Bool.or_false, decide_eq_true_eq]; omega)]
    have ht : ((s.perf.endWindow e).tag (tagWords e s.recCfn)).tags = s.perf.tags ++ [tagWords e s.recCfn] := tag_room (p := s.perf.endWindow e) hl _
    refine ⟨_, rfl, ?_, by simp⟩
    dsimp only
    split
    · exact (count_tags ..).trans ht
    · exact ht
  obtain ⟨u, he, ht, hr⟩ := he
  exact answers_event he ⟨ht, frameBut_done hr⟩

theorem pertCountdownEnd_stops (s : State) (h : fld s.pert.hb.toNat 0 16 = 0) : Answers (exec (.pertCountdownEnd 7) s) fun t =>
    t.pert.hb.getLsbD 31 = false ∧ t.pert.stitch = s.pert.stitch ∧ FrameBut [.pert] s t := by
  have he : execPertCountdownEnd 7 s = done (s.modPert fun p => { p with hb := if fld p.hb.toNat 0 16 = 0 then p.hb &&& 0x7FFFFFFF#32 else p.hb }) := rfl
  have hb : (s.pert.hb &&& 0x7FFFFFFF#32).getLsbD 31 = false := by
    rw [BitVec.getLsbD_and, show (0x7FFFFFFF#32).getLsbD 31 = false by decide, Bool.and_false]
  refine answers_event he ⟨?_, rfl, frameBut_done (by simp)⟩
  rw [State.settle_pert, State.modPert_pert, if_pos h]
  exact hb

theorem elasticBufferRecentring_counts (s : State) (c : Nat) (h : c < 16) : Answers (exec (.elasticBufferRecentring c) s) fun t =>
    t.perf = s.perf.count (748 + c) 1 ∧ FrameBut [.perf] s t := by
  have he : execElasticBufferRecentring c s = done (s.count (748 + c) 1) := congrArg done (if_pos h)
  exact answers_event he ⟨rfl, frameBut_done (by simp)⟩

end Sys2Proof.Machine

open Sys2Proof Sys2Proof.Machine

/-- Settles O24: a control is taken or denied by one rule, and each event of the block has its lemma. -/
theorem counterControls : Obligations.CounterControls := by
  unfold Obligations.CounterControls
  exact ⟨fun _ f h => perfAccess_taken (f := Perf.setFreeze f) rfl h, fun _ h => perfAccess_taken (f := Perf.askSnapshot) rfl h,
    fun _ h => perfAccess_taken (f := Perf.askClear) rfl h,    fun _ h => perfAccess_taken (f := Perf.clearTags) rfl h, fun _ _ h => perfAccess_denied rfl h, perfSnapshotDone_fills, tagRecord_appends, pertCountdownEnd_stops,
    elasticBufferRecentring_counts, fun _ h => perfAccess_denied rfl h, fun _ h => perfAccess_denied rfl h, fun _ h => perfAccess_denied rfl h⟩

end

section
/-!
PROOFS. A core frame boundary counts one frame, whatever else takes effect at it.
-/

namespace Sys2Proof.Machine

/-! ### What does not count a frame -/

/-- The CFN and the count of frames since the start are the same. -/
def SameFrame (s t : State) : Prop := t.glb.cfn = s.glb.cfn ∧ t.glb.tick = s.glb.tick

theorem SameFrame.refl (s : State) : SameFrame s s := ⟨rfl, rfl⟩

theorem SameFrame.trans {s t u : State} (h : SameFrame s t) (h' : SameFrame t u) : SameFrame s u :=
  ⟨h'.1.trans h.1, h'.2.trans h.2⟩

/-- `State.rest` keeps the frame, whatever parts are written. -/
theorem sameFrame_of_rest {l : List Part} {s t : State} (h : t.rest l = s.rest l) : SameFrame s t := by
  have hc := congrArg (fun x => x.glb.cfn) h
  have ht := congrArg (fun x => x.glb.tick) h
  unfold State.rest at hc ht
  by_cases hg : Part.glb ∈ l
  · simp only [if_pos hg] at hc ht
    exact ⟨hc, ht⟩
  · simp only [if_neg hg] at hc ht
    exact ⟨hc, ht⟩

theorem sameFrame_of_machine {s t : State} (h : t.rest machine = s.rest machine) : SameFrame s t := sameFrame_of_rest h

theorem closed_sameFrame (ps : List Part) : Closed ps SameFrame := ⟨SameFrame.trans, sameFrame_of_rest⟩

theorem SameFrame.rest {s t u : State} (h : SameFrame s t) (h' : u.rest machine = t.rest machine) : SameFrame s u :=
  h.trans (sameFrame_of_machine h')

theorem sameFrame_setMode (m : Mode) (trigger : Nat) (s : State) : SameFrame s (s.setMode m trigger) := ⟨rfl, rfl⟩

theorem sameFrame_pwrGateUnusedBody : RunKeeps SameFrame pwrGateUnusedBody := by
  intro r s
  unfold pwrGateUnusedBody
  extract_lets on s1 s2
  have h1 : SameFrame s s1 := sameFrame_of_machine (by simp [s1])
  have h2 : SameFrame s1 s2 := sameFrame_of_machine (by simp [s2])
  exact (h1.trans h2).trans ⟨rfl, rfl⟩

theorem sameFrame_serveDue (s : State) : SameFrame s s.serveDue := (closed_sameFrame machine).serveDue sameFrame_pwrGateUnusedBody s

theorem sameFrame_serveP3 (s : State) : SameFrame s s.serveP3 := (closed_sameFrame machine).serveP3 sameFrame_pwrGateUnusedBody s

/-! ### Modes -/

theorem sameFrame_toHold (s : State) : SameFrame s s.toHold := by
  unfold State.toHold
  extract_lets s1 s2 due
  have h1 : SameFrame s s1 := (sameFrame_of_machine (by simp)).trans (sameFrame_setMode .hold 5 _)
  have h2 : SameFrame s1 s2 := sameFrame_of_machine (by simp [s2])
  exact (h1.trans h2).rest (by simp)

theorem sameFrame_toResume (s : State) : SameFrame s s.toResume := ⟨rfl, rfl⟩

/-- The islands that lose their state do not hold the frame counter. -/
theorem sameFrame_enterDecommission (s : State) : SameFrame s s.enterDecommission := ⟨rfl, rfl⟩

theorem sameFrame_toDecommission (s : State) : SameFrame s s.toDecommission :=
  ((sameFrame_of_machine (by simp)).trans (sameFrame_enterDecommission _)).trans (sameFrame_serveP3 _)

theorem sameFrame_modeStep (s : State) : SameFrame s s.modeStep := by
  unfold State.modeStep
  extract_lets has m op lost
  split
  · exact sameFrame_toDecommission s
  split
  · exact sameFrame_toHold s
  split
  · exact sameFrame_setMode _ _ s
  split
  · exact (sameFrame_of_machine (by simp)).trans (sameFrame_setMode _ _ _)
  split
  · exact (sameFrame_of_machine (by simp)).trans (sameFrame_setMode _ _ _)
  split
  · exact sameFrame_toResume s
  · exact sameFrame_of_machine (by simp)

theorem sameFrame_modeLoss (m : Mode) (restored : Bool) (s : State) : SameFrame s (s.modeLoss m restored) := by
  unfold State.modeLoss
  repeat' split
  all_goals exact ⟨rfl, rfl⟩

/-! ### The boundary -/

/-- `t` is one frame after `s`. -/
def NextFrame (s t : State) : Prop := t.glb.cfn = s.glb.cfn + 1 ∧ t.glb.tick = s.glb.tick + 1

theorem NextFrame.after {s t u : State} (h : SameFrame s t) (h' : NextFrame t u) : NextFrame s u :=
  ⟨h'.1.trans (congrArg (· + 1) h.1), h'.2.trans (congrArg (· + 1) h.2)⟩

theorem NextFrame.then {s t u : State} (h : NextFrame s t) (h' : SameFrame t u) : NextFrame s u := ⟨h'.1.trans h.1, h'.2.trans h.2⟩

theorem nextFrame_advanced (stopped : List Nat) (s : State) : NextFrame s (s.modGlb fun g => g.judgePps.advance stopped) := by
  constructor
  · show s.glb.judgePps.cfn + 1 = s.glb.cfn + 1
    simp
  · show s.glb.judgePps.tick + 1 = s.glb.tick + 1
    simp

/-- Of what takes effect at the boundary the advance alone counts a frame. -/
theorem nextFrame_counts (s : State) (inp : FrameInput) (old : State) : NextFrame s (s.nextFrame inp old) := by
  unfold State.nextFrame
  extract_lets restored m0 fixed s1 s2 s3 s4 s5 s6 s7 s8
  have h0 : NextFrame s ((s.modGlb fun g => g.judgePps.advance inp.stopped).modSch Sch.shift) :=
    (nextFrame_advanced inp.stopped s).then ⟨rfl, rfl⟩
  have h1 : NextFrame s s1 := h0.then ((sameFrame_modeStep _).rest (by simp [s1]))
  split
  · exact h1
  · have h2 : SameFrame s1 s2 := sameFrame_of_machine (State.rest_lanes_grps (by simp) (by simp) _ _ s1)
    have h3 : SameFrame s2 s3 := sameFrame_of_machine (by simp [s3])
    have h4 : SameFrame s3 s4 := sameFrame_of_machine (by simp [s4])
    have h5 : SameFrame s4 s5 := sameFrame_of_machine (by simp [s5])
    have h6 : SameFrame s5 s6 := sameFrame_of_machine (by simp [s6])
    have h7 : SameFrame s6 s7 := sameFrame_of_machine (by simp [s7])
    have h8 : SameFrame s7 s8 := sameFrame_of_machine (by simp [s8])
    have h9 : SameFrame s8 s8.serveDue.reloadMicrocode := (sameFrame_serveDue s8).rest (by simp)
    exact h1.then ((((((((h2.trans h3).trans h4).trans h5).trans h6).trans h7).trans h8).trans h9).trans (sameFrame_modeLoss _ _ _))

theorem frameBoundary_counts (s : State) (inp : FrameInput) (h : s.coreRuns = true) :
    Answers (exec (.frameBoundary inp) s) fun t => t.glb.cfn = s.glb.cfn + 1 ∧ t.glb.tick = s.glb.tick + 1 := by
  have he : execFrameBoundary inp s =
      done ((((s.workFrame inp).sendTokens.countPerf inp.perf).modPerf Perf.boundary).nextFrame inp s) :=
    congrArg done (if_neg (by simp [h]))
  have hw : SameFrame s (((s.workFrame inp).sendTokens.countPerf inp.perf).modPerf Perf.boundary) := sameFrame_of_machine (by simp)
  refine answers_event he ?_
  rw [State.settle_glb]
  exact NextFrame.after hw (nextFrame_counts _ inp s)

/-! ### Without a running core -/

/-- `t` differs from `s` by waits for working SRAM banks alone. -/
def OnlyWaits (s t : State) : Prop := t = { s with bus := { s.bus with conflict := t.bus.conflict } }

theorem onlyWaits_bankConflicts {s t : State} (i n : Nat) (h : OnlyWaits s t) : OnlyWaits s (t.bankConflicts i n) := by
  unfold State.bankConflicts
  split
  · rw [h]
    rfl
  · exact h

theorem OnlyWaits.coreRuns {s t : State} (h : OnlyWaits s t) : t.coreRuns = s.coreRuns := by
  rw [h]
  rfl

theorem onlyWaits_countPerf {s : State} (h : s.coreRuns = false) (l : List (Nat × Nat)) : OnlyWaits s (s.countPerf l) := by
  unfold State.countPerf
  suffices ∀ t, OnlyWaits s t → OnlyWaits s (l.foldl (fun s e =>
      if e.1 < 768 then (if s.coreRuns && s.pert.acts e.1 then s.count e.1 e.2 else s) else s.bankConflicts e.1 e.2) t) from this s rfl
  induction l with
  | nil => exact fun t ht => ht
  | cons e l ih =>
    intro t ht
    refine ih _ ?_
    beta_reduce
    have hr : t.coreRuns = false := ht.coreRuns.trans h
    split
    · rw [if_neg (by simp [hr])]
      exact ht
    · exact onlyWaits_bankConflicts e.1 e.2 ht

theorem frameBoundary_waits (s : State) (inp : FrameInput) (h : s.coreRuns = false) :
    Answers (exec (.frameBoundary inp) s) fun t => t.bus = { s.bus with conflict := t.bus.conflict } ∧ FrameBut [.bus] s t := by
  have he : execFrameBoundary inp s = done (s.countPerf inp.perf) := congrArg done (if_pos (by simp [h]))
  have hw := onlyWaits_countPerf h inp.perf
  refine answers_event he ⟨?_, ?_⟩
  · rw [State.settle_bus]
    exact congrArg State.bus hw
  · rw [hw]
    exact (frameBut_modBus (fun b => { b with conflict := (s.countPerf inp.perf).bus.conflict }) s).then_settle

end Sys2Proof.Machine

open Sys2Proof Sys2Proof.Machine

/-- Settles O25: nothing that takes effect at a boundary resets or advances the frame counter a second time. -/
theorem frameAdvancesCfn : Obligations.FrameAdvancesCfn := by
  unfold Obligations.FrameAdvancesCfn
  exact ⟨frameBoundary_counts, frameBoundary_waits⟩

end

section
/-!
PROOFS. The second boundary, the edges of PPS_IN and their loss.
-/

namespace Sys2Proof.Machine

/-! ### The second boundary -/

/-- What a second boundary does before the timing unit ends its second. -/
def State.latchedSecond (s : State) : State :=
  let frames := (s.tick - s.glb.secStart).toNat
  let hold := s.eng.holdSec
  let s := (s.modEng (Eng.latchSecond (hold || s.twin.secSuspect))).latchRegisters frames hold
  let s := s.modGlb fun g => { g with sec := satAdd g.sec 1, secFrames := frames, secStart := g.tick, secDue := false }
  let s := (s.modSch fun c => { c with committed := c.commitNext, commitNext := false }).modTwin fun t => { t with secSuspect := false }
  let s := s.modDp fun d => { d with ing := tmap (fun _ (x : IngRun) => { x with untrust := x.untrust.map (· - 1) }) d.ing }
  s.modEng fun e => { e with harvest := e.harvest.second s.tick }

theorem execSecondBoundary_due {s : State} (meas : List CandMeas) (hr : s.coreRuns = true) (hd : s.glb.secDue = true) :
    execSecondBoundary meas s = done (s.latchedSecond.timSecond meas s.glb.secStart) := by
  unfold execSecondBoundary
  rw [if_neg (by simp [hr, hd])]
  rfl

/-- The latched second touches no part but the clock, the schedule's flags, the endpoints, the twin's suspicion and the data path's. -/
theorem frameBut_latchedSecond (s : State) : FrameBut [.glb, .sch, .eng, .twin, .dp] s s.latchedSecond := by
  intro p hp
  cases p <;> first | rfl | exact absurd (by simp) hp

theorem secondBoundary_latches (s : State) (meas : List CandMeas) (hr : s.coreRuns = true) (hd : s.glb.secDue = true) :
    Answers (exec (.secondBoundary meas) s) fun t =>
      t.glb.sec = satAdd s.glb.sec 1 ∧ t.glb.secDue = false ∧ t.glb.secStart = s.glb.tick ∧ t.eng.latchSec = s.glb.sec ∧
      t.eng.schedId = s.bank1.id ∧ t.eng.firstCfn = s.glb.cfn - BitVec.ofNat 48 (s.glb.tick - s.glb.secStart).toNat ∧
      t.sch = { s.sch with committed := s.sch.commitNext, commitNext := false } ∧ FrameBut [.glb, .sch, .eng, .twin, .dp, .tim, .mbx] s t := by
  have hf : FrameBut [.tim, .mbx] s.latchedSecond (s.latchedSecond.timSecond meas s.glb.secStart).settle :=
    frameBut_done (State.timSecond_rest (by simp) meas s.glb.secStart _)
  have hg := hf .glb (by decide)
  have he := hf .eng (by decide)
  have hs := hf .sch (by decide)
  refine answers_event (execSecondBoundary_due meas hr hd) ⟨congrArg Glb.sec hg, congrArg Glb.secDue hg, congrArg Glb.secStart hg,
    congrArg Eng.latchSec he, congrArg Eng.schedId he, congrArg Eng.firstCfn he, hs, ?_⟩
  exact ((frameBut_latchedSecond s).mono (by simp)).trans (hf.mono (by simp))

theorem secondBoundary_notDue (s : State) (meas : List CandMeas) (hd : s.glb.secDue = false) :
    Answers (exec (.secondBoundary meas) s) fun t => FrameBut [] s t := by
  have he : execSecondBoundary meas s = done s := congrArg done (if_pos (by simp [hd]))
  exact answers_event he (frameBut_done rfl)

/-! ### Edges of PPS_IN -/

/-- An error within half a second is itself. -/
theorem wrapErr_self {e : Int} (h : -800000000 ≤ e) (h' : e < 800000000) : wrapErr e = e := by
  unfold wrapErr
  omega

/-- An edge within the window is accepted, whether or not the device is aligned. -/
theorem execPpsEdge_accept {s : State} {e : Int} (hr : s.coreRuns = true) (ht : s.glb.track = true) (hl : -16384 ≤ e) (hh : e ≤ 16384) :
    execPpsEdge e s = done (s.modGlb (Glb.ppsAccept e)) := by
  have hw : wrapErr e = e := wrapErr_self (by omega) (by omega)
  have hi : (decide (e < -16384) || decide (16384 < e)) = false := by simp; omega
  unfold execPpsEdge
  simp only [hr, ht, hw, hi, Bool.not_true, Bool.or_self, Bool.false_eq_true, Bool.and_false, if_false]

theorem clampErr_late {e : Int} (h : 0 ≤ e) : clampErr e = min 4096 e := by
  unfold clampErr
  omega

theorem clampErr_early {e : Int} (h : e < 0) : clampErr e = max (-4096) e := by
  unfold clampErr
  omega

theorem ppsAhead_late {e : Int} (g : Glb) (h : 0 ≤ e) : g.ppsAhead e = decide (g.bNext < 16384) := by
  have : ¬ e < 0 := by omega
  simp [Glb.ppsAhead, this]

theorem ppsAhead_early {e : Int} (g : Glb) (h : e < 0) : g.ppsAhead e = true := by
  simp [Glb.ppsAhead, h]

theorem frameBut_modGlb_settle (f : Glb → Glb) (s : State) : FrameBut [.glb] s (s.modGlb f).settle := (frameBut_modGlb f s).then_settle

/-- A late edge corrects the second in progress, or in the frame in which the boundary lies the one to come (R53). -/
theorem ppsEdge_late (s : State) (e : Int) (hr : s.coreRuns = true) (ht : s.glb.track = true) (hl : 0 ≤ e) (hh : e ≤ 16384) :
    Answers (exec (.ppsEdge e) s) fun t =>
      t.glb.ppsErr = e ∧ t.glb.ppsAligned = decide (e ≤ 8) ∧
      (16384 ≤ s.glb.bNext → t.glb.bNext = ((s.glb.bNext : Int) - s.glb.ppsNow + min 4096 e).toNat ∧ t.glb.ppsNow = min 4096 e) ∧
      (s.glb.bNext < 16384 → t.glb.bNext = s.glb.bNext ∧ t.glb.ppsCorr = min 4096 e) ∧
      t.glb.ppsSticky = s.glb.ppsSticky ∧ t.glb.ppsBad = 0 ∧ FrameBut [.glb] s t := by
  have ha := ppsAhead_late s.glb hl
  have hc := clampErr_late hl
  refine answers_event (execPpsEdge_accept hr ht (by omega) hh) ?_
  rw [State.settle_glb]
  refine ⟨rfl, ?_, fun h => ?_, fun h => ?_, rfl, rfl, frameBut_modGlb_settle _ s⟩
  · have : -8 ≤ e := by omega
    simp [Glb.ppsAccept, this]
  · simp [Glb.ppsAccept, ha, hc, show ¬ s.glb.bNext < 16384 by omega]
  · simp [Glb.ppsAccept, ha, hc, h]

/-- An early edge corrects the boundary to come (R53). -/
theorem ppsEdge_early (s : State) (e : Int) (hr : s.coreRuns = true) (ht : s.glb.track = true) (hl : -16384 ≤ e) (hh : e < 0) :
    Answers (exec (.ppsEdge e) s) fun t =>
      t.glb.ppsErr = e ∧ t.glb.ppsAligned = decide (-8 ≤ e) ∧ t.glb.ppsCorr = max (-4096) e ∧ t.glb.bNext = s.glb.bNext ∧
      t.glb.ppsSticky = s.glb.ppsSticky ∧ t.glb.ppsBad = 0 ∧ FrameBut [.glb] s t := by
  have ha := ppsAhead_early s.glb hh
  have hc := clampErr_early hh
  refine answers_event (execPpsEdge_accept hr ht hl (by omega)) ?_
  rw [State.settle_glb]
  refine ⟨rfl, ?_, ?_, ?_, rfl, rfl, frameBut_modGlb_settle _ s⟩
  · have : e ≤ 8 := by omega
    simp [Glb.ppsAccept, this]
  · simp [Glb.ppsAccept, ha, hc]
  · simp [Glb.ppsAccept, ha]

theorem ppsEdge_outlier (s : State) (e : Int) (hr : s.coreRuns = true) (ht : s.glb.track = true) (hw : s.glb.ppsWasAligned = true)
    (hn : s.glb.ppsAny = false) (hl : 16384 < e) (hh : e < 800000000) : Answers (exec (.ppsEdge e) s) fun t =>
      t.glb.ppsSticky = s.glb.ppsSticky ||| 1 ∧ t.glb.bNext = s.glb.bNext ∧ t.glb.ppsAligned = s.glb.ppsAligned ∧
      t.glb.ppsErr = s.glb.ppsErr ∧ t.glb.ppsBad = s.glb.ppsBad + 1 ∧ FrameBut [.glb] s t := by
  have he : execPpsEdge e s = done { s with glb := s.glb.ppsOutlier } := by
    unfold execPpsEdge
    simp [hr, ht, wrapErr_self (show -800000000 ≤ e by omega) hh, hw, hn, hl, State.modGlb]
  refine answers_event he ?_
  rw [State.settle_glb]
  exact ⟨rfl, rfl, rfl, rfl, rfl, frameBut_modGlb_settle (fun _ => s.glb.ppsOutlier) s⟩

theorem ppsLoss_declared (s : State) (hr : s.coreRuns = true) (ht : s.glb.track = true) (hn : s.glb.ppsAny = false)
    (hb : s.glb.losCount ≤ s.glb.ppsBad) : Answers (exec .ppsLoss s) fun t =>
      t.glb.ppsSticky = s.glb.ppsSticky ||| 2 ∧ t.glb.ppsAligned = false ∧ FrameBut [.glb] s t := by
  refine answers_event (congrArg done (if_pos (by simp [hr, ht, hn, hb]))) ?_
  rw [State.settle_glb]
  exact ⟨rfl, rfl, frameBut_modGlb_settle _ s⟩

end Sys2Proof.Machine

open Sys2Proof Sys2Proof.Machine

/-- Settles O26: a lemma for each way a second begins and for each kind of edge. -/
theorem secondsAndPps : Obligations.SecondsAndPps := by
  unfold Obligations.SecondsAndPps
  exact ⟨secondBoundary_latches, secondBoundary_notDue, ppsEdge_late, ppsEdge_early, ppsEdge_outlier, ppsLoss_declared⟩

end

section
/-!
PROOFS. Failure events of a lane.
-/

namespace Sys2Proof.Machine

/-! ### A function on a lane that runs -/

theorem ifRuns_runs {s : State} (f : State → State) (h : s.rst.scanDirty = false) : s.ifRuns f = f s := if_neg (by simp [h])

theorem onlyLane_modLane (n : Nat) (f : Lane → Lane) (s : State) : OnlyLane n s (s.modLane n f) :=
  fun k hk => State.modLane_lane_ne s n k hk f

theorem OnlyLane.trans {n : Nat} {s t u : State} (h : OnlyLane n s t) (h' : OnlyLane n t u) : OnlyLane n s u :=
  fun k hk => (h' k hk).trans (h k hk)

theorem OnlyLane.then_settle {n : Nat} {s t : State} (h : OnlyLane n s t) : OnlyLane n s t.settle := h

/-- Where the lanes are outside what was touched, each is as it was. -/
theorem FrameBut.lane {l : List Part} {s t : State} (h : FrameBut l s t) (hl : .lanes ∉ l) (n : Nat) : t.lane n = s.lane n :=
  congrArg (fun x : Tbl Lane => tget ({} : Lane) x n) (h .lanes hl)

theorem FrameBut.onlyLane {l : List Part} {s t : State} (h : FrameBut l s t) (hl : .lanes ∉ l) (n : Nat) : OnlyLane n s t :=
  fun k _ => h.lane hl k

/-! ### The event -/

/-- A failure event of a lane without a pending transition, and no other lane's (R76). -/
theorem failureEvent_spec {s : State} {n : Nat} (hp : (s.lane n).pend = none) :
    (s.failureEvent n).lane n = (s.lane n).failure (s.retireAuto n) s.cfn ∧ OnlyLane n s (s.failureEvent n) := by
  have he : s.failureEvent n = (s.modLane n (Lane.failure (s.retireAuto n) s.cfn)).failureRecord n := if_neg (by simp [hp])
  have hf : FrameBut [.mbx, .cps] (s.modLane n (Lane.failure (s.retireAuto n) s.cfn)) (s.failureEvent n) := by
    rw [he]
    exact frameBut_of_rest (State.failureRecord_rest (by simp) n _)
  refine ⟨?_, (onlyLane_modLane n _ s).trans (hf.onlyLane (by decide) n)⟩
  rw [hf.lane (by decide) n, State.modLane_lane_same]

/-- The first three tries adapt anew. -/
theorem failure_try {l : Lane} (auto : Bool) (now : Cfn) (hp : l.pend = none) (ht : l.tries < 3) :
    l.failure auto now = { l with pend := some .toAdaptTry } := by
  simp [Lane.failure, hp, ht]

theorem failure_permanent {l : Lane} (auto : Bool) (now : Cfn) (hp : l.pend = none) (ht : 3 ≤ l.tries) :
    l.failure auto now = { l with pend := some (if auto then .toRetired now else .toAdaptHeld) } := by
  simp [Lane.failure, Lane.permanent, hp, show ¬ l.tries < 3 by omega]

/-- What declares a failure changes the lane by `f`, whatever it counts, before the event is a try. -/
theorem failureEvent_after {s t : State} {n : Nat} {ps : List Part} {f : Lane → Lane} (hf : FrameBut ps (s.modLane n f) t) (hl : .lanes ∉ ps)
    (hp : (f (s.lane n)).pend = none) (ht : (f (s.lane n)).tries < 3) :
    (t.failureEvent n).lane n = { f (s.lane n) with pend := some .toAdaptTry } ∧ OnlyLane n s (t.failureEvent n) := by
  have hn : t.lane n = f (s.lane n) := (hf.lane hl n).trans (State.modLane_lane_same ..)
  obtain ⟨he, ho⟩ := failureEvent_spec (s := t) (n := n) (by rw [hn]; exact hp)
  rw [hn, failure_try _ _ hp ht] at he
  exact ⟨he, ((onlyLane_modLane n f s).trans (hf.onlyLane hl n)).trans ho⟩

/-! ### The commands -/

theorem signalLost_waits (s : State) (n : Nat) (hr : s.rst.scanDirty = false) (ho : (s.lane n).role ≠ .off) (ha : (s.lane n).retired = false)
    (hb : (s.lane n).retiring = false) : Answers (exec (.signalLost n) s) fun t =>
      t.lane n = { (s.lane n).flag 5 with signal := false, pend := some .toWait } ∧ OnlyLane n s t ∧ FrameBut [.lanes] s t := by
  have he : execSignalLost n s = done (s.modLane n fun l =>
      let l := { (l.flag 5) with signal := false }
      if l.retired || l.retiring then l else { l with pend := some .toWait }) := by
    unfold execSignalLost
    rw [ifRuns_runs _ hr, if_neg ho]
  refine answers_event he ⟨?_, (onlyLane_modLane n _ s).then_settle, frameBut_done (by simp)⟩
  rw [settle_lane, State.modLane_lane_same]
  exact if_neg (by simpa using ⟨ha, hb⟩)

theorem declare_pend (lof lom : Bool) (l : Lane) : (l.declare lof lom).pend = l.pend := by cases lof <;> cases lom <;> rfl

theorem declare_tries (lof lom : Bool) (l : Lane) : (l.declare lof lom).tries = l.tries := by cases lof <;> cases lom <;> rfl

theorem declare_lof (lom : Bool) (l : Lane) : (l.declare true lom).lof = true ∧ (l.declare true lom).sticky.getLsbD 4 = true := by
  have h4 : (setBit l.sticky 4 true).getLsbD 4 = true := getLsbD_setBit_true_self _ (by decide)
  cases lom
  · exact ⟨rfl, h4⟩
  · exact ⟨rfl, (getLsbD_setBit_ne _ (by decide) _).trans h4⟩

theorem declare_lom (lof : Bool) (l : Lane) : (l.declare lof true).lom = true ∧ (l.declare lof true).sticky.getLsbD 3 = true := by
  cases lof <;> exact ⟨rfl, getLsbD_setBit_true_self _ (by decide)⟩

/-- A declared dLOF or dLOM is a try (R75, R76). -/
theorem dlofDeclare_tries {s : State} {n : Nat} (hr : s.rst.scanDirty = false) (hs : (s.lane n).state = .locked) (hp : (s.lane n).pend = none)
    (ht : (s.lane n).tries < 3) (lof lom : Bool) (hf : ((s.lane n).anyAlign fun a => 5 ≤ a.mismatch) = lof)
    (hm : ((s.lane n).anyAlign fun a => 5 ≤ a.outOfSeq) = lom) (hd : (lof || lom) = true) : Answers (exec (.dlofDeclare n) s) fun t =>
      t.lane n = { (s.lane n).declare lof lom with pend := some .toAdaptTry } ∧ OnlyLane n s t ∧ FrameBut [.lanes, .eng, .grps, .cps, .mbx] s t := by
  have he : execDlofDeclare n s =
      done ((((s.modLane n (Lane.declare lof lom)).logicalLost n).countLane n 3 (b2n lof + b2n lom)).failureEvent n) := by
    unfold execDlofDeclare
    dsimp only
    rw [ifRuns_runs _ hr, hf, hm, if_neg (by simp [hs, hd])]
  obtain ⟨h1, h2⟩ := failureEvent_after (s := s) (n := n) (f := Lane.declare lof lom) (ps := [.grps, .eng])
    (t := ((s.modLane n (Lane.declare lof lom)).logicalLost n).countLane n 3 (b2n lof + b2n lom)) (frameBut_of_rest (by simp)) (by decide)
    ((declare_pend lof lom _).trans hp) (by rw [declare_tries]; exact ht)
  exact answers_event he ⟨h1, h2, frameBut_done (by simp)⟩

theorem anyAlign_of_exists {l : Lane} {p : Align → Bool} (h : ∃ k, k < l.width ∧ p (l.align k) = true) : l.anyAlign p = true := by
  obtain ⟨k, hk, h⟩ := h
  exact List.any_eq_true.mpr ⟨k, List.mem_range.mpr hk, h⟩

theorem dlofDeclare_lof (s : State) (n : Nat) (hr : s.rst.scanDirty = false) (hs : (s.lane n).state = .locked) (hp : (s.lane n).pend = none)
    (ht : (s.lane n).tries < 3) (hx : ∃ k, k < (s.lane n).width ∧ 5 ≤ ((s.lane n).align k).mismatch) : Answers (exec (.dlofDeclare n) s) fun t =>
      (t.lane n).sticky.getLsbD 4 = true ∧ (t.lane n).lof = true ∧ (t.lane n).pend = some .toAdaptTry ∧ OnlyLane n s t ∧
      FrameBut [.lanes, .eng, .grps, .cps, .mbx] s t := by
  have hl : ((s.lane n).anyAlign fun a => 5 ≤ a.mismatch) = true := anyAlign_of_exists (by simpa using hx)
  obtain ⟨hx, hb⟩ := declare_lof ((s.lane n).anyAlign fun a => 5 ≤ a.outOfSeq) (s.lane n)
  refine (dlofDeclare_tries hr hs hp ht true _ hl rfl rfl).mono fun t ⟨h, ho, hf⟩ => ?_
  rw [h]
  exact ⟨hb, hx, rfl, ho, hf⟩

theorem dlofDeclare_lom (s : State) (n : Nat) (hr : s.rst.scanDirty = false) (hs : (s.lane n).state = .locked) (hp : (s.lane n).pend = none)
    (ht : (s.lane n).tries < 3) (hx : ∃ k, k < (s.lane n).width ∧ 5 ≤ ((s.lane n).align k).outOfSeq) : Answers (exec (.dlofDeclare n) s) fun t =>
      (t.lane n).sticky.getLsbD 3 = true ∧ (t.lane n).lom = true ∧ (t.lane n).pend = some .toAdaptTry ∧ OnlyLane n s t ∧
      FrameBut [.lanes, .eng, .grps, .cps, .mbx] s t := by
  have hm : ((s.lane n).anyAlign fun a => 5 ≤ a.outOfSeq) = true := anyAlign_of_exists (by simpa using hx)
  obtain ⟨hx, hb⟩ := declare_lom ((s.lane n).anyAlign fun a => 5 ≤ a.mismatch) (s.lane n)
  refine (dlofDeclare_tries hr hs hp ht _ true rfl hm (Bool.or_true _)).mono fun t ⟨h, ho, hf⟩ => ?_
  rw [h]
  exact ⟨hb, hx, rfl, ho, hf⟩

/-- The loss of CDR lock is a failure event of its lane (R81). -/
theorem cdrLockLoss_fails {s : State} {n : Nat} (hr : s.rst.scanDirty = false) (hs : (s.lane n).state = .locked) (hp : (s.lane n).pend = none) :
    Answers (exec (.cdrLockLoss n) s) fun t =>
      t.lane n = (s.lane n).failure (s.retireAuto n) s.cfn ∧ OnlyLane n s t ∧ FrameBut [.lanes, .cps, .mbx] s t := by
  have he : execCdrLockLoss n s = done (s.failureEvent n) := by
    unfold execCdrLockLoss
    rw [ifRuns_runs _ hr, if_pos hs]
  obtain ⟨h1, h2⟩ := failureEvent_spec hp
  exact answers_event he ⟨h1, h2, frameBut_done (by simp)⟩

theorem cdrLockLoss_try (s : State) (n : Nat) (hr : s.rst.scanDirty = false) (hs : (s.lane n).state = .locked) (hp : (s.lane n).pend = none)
    (ht : (s.lane n).tries < 3) : Answers (exec (.cdrLockLoss n) s) fun t =>
      t.lane n = { s.lane n with pend := some .toAdaptTry } ∧ OnlyLane n s t ∧ FrameBut [.lanes, .cps, .mbx] s t := by
  rw [← failure_try (s.retireAuto n) s.cfn hp ht]
  exact cdrLockLoss_fails hr hs hp

theorem cdrLockLoss_permanent (s : State) (n : Nat) (hr : s.rst.scanDirty = false) (hs : (s.lane n).state = .locked) (hp : (s.lane n).pend = none)
    (ht : 3 ≤ (s.lane n).tries) : Answers (exec (.cdrLockLoss n) s) fun t =>
      t.lane n = { s.lane n with pend := some (if s.retireAuto n then .toRetired s.glb.cfn else .toAdaptHeld) } ∧ OnlyLane n s t ∧
      FrameBut [.lanes, .cps, .mbx] s t := by
  have h := cdrLockLoss_fails hr hs hp
  rw [failure_permanent (s.retireAuto n) s.cfn hp ht] at h
  exact h

theorem burstDetected_tries (s : State) (n u w : Nat) (hr : s.rst.scanDirty = false) (hs : (s.lane n).state = .locked) (hp : (s.lane n).pend = none)
    (ht : (s.lane n).tries < 3) (hu : (s.burst n).1 ≤ u) (hw : w ≤ (s.burst n).2) : Answers (exec (.burstDetected n u w) s) fun t =>
      (t.lane n).sticky.getLsbD 2 = true ∧ (t.lane n).pend = some .toAdaptTry ∧ OnlyLane n s t ∧ FrameBut [.lanes, .perf, .eng, .cps, .mbx] s t := by
  have he : execBurstDetected n u w s = done (((((if (s.lane n).role = .line then s else s.count (384 + n % 128) u).modLane n (Lane.flag 2)).countLane n 4 1)).failureEvent n) := by
    unfold execBurstDetected
    rw [ifRuns_runs _ hr, if_neg]
    simp [hs]
    omega
  obtain ⟨h1, h2⟩ := failureEvent_after (s := s) (n := n) (f := Lane.flag 2) (ps := [.perf, .eng])
    (t := ((if (s.lane n).role = .line then s else s.count (384 + n % 128) u).modLane n (Lane.flag 2)).countLane n 4 1)
    (by
      split
      · exact frameBut_of_rest (by simp)
      · rw [show (s.count (384 + n % 128) u).modLane n (Lane.flag 2) = (s.modLane n (Lane.flag 2)).count (384 + n % 128) u from rfl]
        exact frameBut_of_rest (by simp)) (by decide) hp ht
  refine answers_event he ⟨?_, ?_, h2, frameBut_done (by split <;> simp)⟩
  · rw [settle_lane, h1]
    exact getLsbD_setBit_true_self _ (by decide)
  · rw [settle_lane, h1]

/-- The end of the 60 s window on a lane (R82). -/
def closeTryWindow (tick : Cfn) (l : Lane) : Lane :=
  match l.window with
  | some w => if 5859375 ≤ since tick w && !l.retiring && l.pend != some .toAdaptHeld then { l with tries := 0, window := none } else l
  | none => l

theorem laneTryWindowEnd_clears (s : State) (n : Nat) (w : Cfn) (hr : s.rst.scanDirty = false) (hw : (s.lane n).window = some w)
    (hd : 5859375 ≤ since s.tick w) (hb : (s.lane n).retiring = false) (hp : (s.lane n).pend ≠ some .toAdaptHeld) :
    Answers (exec (.laneTryWindowEnd n) s) fun t =>
      t.lane n = { s.lane n with tries := 0, window := none } ∧ OnlyLane n s t ∧ FrameBut [.lanes] s t := by
  have he : execLaneTryWindowEnd n s = done (s.modLane n (closeTryWindow s.tick)) := congrArg done (ifRuns_runs _ hr)
  refine answers_event he ⟨?_, (onlyLane_modLane n _ s).then_settle, frameBut_done (by simp)⟩
  rw [settle_lane, State.modLane_lane_same]
  simp [closeTryWindow, hw, hd, hb, hp]

end Sys2Proof.Machine

open Sys2Proof Sys2Proof.Machine

/-- Settles O28: each event is one change of its lane and a try or the permanent fault. -/
theorem laneFailures : Obligations.LaneFailures := by
  unfold Obligations.LaneFailures
  exact ⟨signalLost_waits, dlofDeclare_lof, dlofDeclare_lom, cdrLockLoss_try, cdrLockLoss_permanent, burstDetected_tries, laneTryWindowEnd_clears⟩

end

section
/-!
PROOFS. A deskew report that measures the first of two members only.
-/

namespace Sys2Proof.Machine

/-- A FlexO group of two single-lane instances in DESKEW. -/
def deskewingGrp : Grp where
  lanes := 2
  rate := 2
  otl := false
  gidTx := 0
  gidExp := 0
  contain := false
  retireAuto := false
  burstWin := 128
  burstUcw := 64
  expMap := [1, 2]
  txMap := [1, 2]
  state := .deskew

/-- Its first member is LOCKED, yet to rejoin and not fitted, and its second holds a delay of 100 us. -/
def shortDeskewReport : State :=
  { State.reset with
    grps := [(0, deskewingGrp)]
    lanes := [(0, { role := .line, rate := 2, state := .locked, rejoin := true, unfitted := true }),
      (1, { role := .line, rate := 2, state := .locked, aligns := [(0, { delayNs := 100000 })] })] }

/-- The first member, measured at 5 ns, does not fit the delay that the second still holds: dLOL. -/
theorem shortDeskewReport_flags : Answers (exec (.deskewDone 0 [5]) shortDeskewReport) fun t => (t.grp 0).map Grp.sticky = some 0x10 :=
  ⟨_, rfl, by decide +kernel⟩

end Sys2Proof.Machine

open Sys2Proof Sys2Proof.Machine

/-- Refutes O29: a report whose one delay is no spread leaves the other member at the delay that it held, to which a member outside does
not fit, and the group declares dLOL. -/
theorem not_groupEvents : ¬ Obligations.GroupEvents := by
  unfold Obligations.GroupEvents
  intro h
  obtain ⟨hdeskew, -⟩ := h
  obtain ⟨t, ht, ⟨r, hr, -, -, hs⟩, -⟩ :=
    hdeskew shortDeskewReport 0 deskewingGrp [5] (by decide +kernel) (by decide +kernel) rfl (by decide)
  obtain ⟨u, hu, hn⟩ := shortDeskewReport_flags
  cases hu.symm.trans ht
  rw [hr, Option.map_some, hs] at hn
  exact absurd hn (by decide)

end

section
/-!
PROOFS. Events of the tributary contexts.
-/

namespace Sys2Proof.Machine

theorem tribOpen_opens (s : State) (n : Nat) (hb : 8 ≤ (tget ({} : EgRun) s.dp.eg n).bad) (ho : (tget ({} : EgRun) s.dp.eg n).openNow = false) :
    Answers (exec (.tribOpen n) s) fun t =>
      tget ({} : EgRun) t.dp.eg n = { tget ({} : EgRun) s.dp.eg n with openNow := true } ∧
      (∀ k, k ≠ n → tget ({} : EgRun) t.dp.eg k = tget ({} : EgRun) s.dp.eg k) ∧ FrameBut [.dp, .mbx] s t := by
  have he : execTribOpen n s = done ((s.modDp fun d => { d with eg := tput {} d.eg n { tget {} s.dp.eg n with openNow := true } }).event 0x4301 1
      (leBytes 2 n)) := congrArg done (if_neg (by rw [ho, decide_eq_false (Nat.not_lt.mpr hb)]; decide))
  exact answers_event he ⟨tget_tput_same _ _ _ _, fun k hk => tget_tput_ne _ _ _ hk _, frameBut_done (by simp)⟩

theorem dfcmovfDeclare_declares (s : State) (n : Nat) (hd : (tget ({} : IngRun) s.dp.ing n).discard = true) :
    Answers (exec (.dfcmovfDeclare n) s) fun t =>
      tget ({} : IngRun) t.dp.ing n = { tget ({} : IngRun) s.dp.ing n with fcmovf := true } ∧ FrameBut [.dp] s t := by
  refine answers_event rfl ⟨?_, frameBut_done (by simp)⟩
  exact (tget_tmod_same _ _ _ _).trans (if_pos hd)

theorem dfcmovfClear_clears (s : State) (n : Nat) (hc : 8 ≤ (tget ({} : IngRun) s.dp.ing n).clean) :
    Answers (exec (.dfcmovfClear n) s) fun t =>
      tget ({} : IngRun) t.dp.ing n = { tget ({} : IngRun) s.dp.ing n with fcmovf := false } ∧ FrameBut [.dp] s t := by
  refine answers_event rfl ⟨?_, frameBut_done (by simp)⟩
  exact (tget_tmod_same _ _ _ _).trans (if_pos hc)

/-- An ended resize no longer runs. -/
theorem running_endResize (i e : Nat) (d : Dp) : (d.endResize i e).running i e = none := by
  refine List.find?_eq_none.mpr fun z hz h => ?_
  obtain ⟨-, hk⟩ := List.mem_filter.mp hz
  rw [h] at hk
  exact absurd hk (by decide)

theorem resizeComplete_ends (s : State) (i e c : Nat) (z : Resize) (hz : s.dp.running i e = some z) (hc : c ≤ 2) :
    Answers (exec (.resizeComplete i e c) s) fun t =>
      t.dp.running i e = none ∧ t.dp.ing = s.dp.ing ∧ t.dp.eg = s.dp.eg ∧ FrameBut [.dp, .mbx] s t := by
  have he : execResizeComplete i e c s =
      done ((s.modDp (Dp.endResize i e)).complete (z.mb, z.seq) 0x0302 (if c = 0 then 0 else 0x8003) c []) := by
    simp only [execResizeComplete, hc, if_true, State.finishResize, hz]
  exact answers_event he ⟨running_endResize i e s.dp, rfl, rfl, frameBut_done (by simp)⟩

end Sys2Proof.Machine

open Sys2Proof Sys2Proof.Machine

/-- Settles O30: a lemma for each event. -/
theorem tributaryEvents : Obligations.TributaryEvents := by
  unfold Obligations.TributaryEvents
  exact ⟨tribOpen_opens, dfcmovfDeclare_declares, dfcmovfClear_clears, resizeComplete_ends⟩

end

section
/-!
PROOFS. Lane frames and tokens of Stitch lanes, and mirrored activations.
-/

namespace Sys2Proof.Machine

/-! ### Lane frames -/

theorem lockedStitch_iff {s : State} {n : Nat} : s.lockedStitch n = true ↔ (s.lane n).role = .stitch ∧ (s.lane n).state = .locked := by
  simp [State.lockedStitch, State.stitch]

/-- A LOCKED Stitch lane receives in every mode but Hold. -/
theorem stitch_receiving {s : State} {n : Nat} (h : s.lockedStitch n = true) (hm : s.glb.mode ≠ .hold) :
    (!s.stitch n || !s.receiving n) = false := by
  obtain ⟨hr, -⟩ := lockedStitch_iff.mp h
  simp [State.stitch, State.receiving, hr, hm]

theorem cfn_pred_succ (c : Cfn) : cfnAdd (c - 1) 1 = c := BitVec.sub_add_cancel c 1

/-- A lane frame whose marker is in place and follows the last accepted one is taken without an event (R309, R310). -/
theorem stitchFrame_taken {s : State} {n : Nat} {f : StitchRx} (hl : s.lockedStitch n = true) (hm : s.glb.mode ≠ .hold)
    (ha : markerAt f (s.lane n) = true) (hc : (s.lane n).stCfn = some (f.cfn - 1)) : Answers (exec (.stitchFrame n f) s) fun t =>
      t.lane n = (s.lane n).stitchTake f s.glb.cfn s.twin.aligning ∧ OnlyLane n s t ∧ FrameBut [.lanes, .twin] s t := by
  have hr := stitch_receiving hl hm
  obtain ⟨-, hs⟩ := lockedStitch_iff.mp hl
  let t := s.modLane n (Lane.stitchTake f s.cfn s.twin.aligning)
  have he : execStitchFrame n f s =
      done (if s.twin.twinLanes.getLsbD n then t.modTwin fun w => { w with peer := BitVec.ofNat 6 f.index } else t) := by
    simp only [execStitchFrame, hr, hs, ha, hc, Option.any_some, cfn_pred_succ, bne_self_eq_false, Bool.and_false, Bool.true_and, Bool.false_eq_true,
      if_false]
    rfl
  have hf : FrameBut [.twin] t (if s.twin.twinLanes.getLsbD n then t.modTwin fun w => { w with peer := BitVec.ofNat 6 f.index } else t) :=
    frameBut_of_rest (by split <;> simp)
  refine answers_event he ⟨?_, (((onlyLane_modLane n _ s).trans (hf.onlyLane (by decide) n))).then_settle, frameBut_done (by simp [t])⟩
  rw [settle_lane, hf.lane (by decide) n]
  exact State.modLane_lane_same ..

theorem stitchTake_ahead (f : StitchRx) (cfn : Cfn) (joining : Bool) (l : Lane) (ha : markerAt f l = true) :
    ((l.stitchTake f cfn joining).stWords = if 9500 < f.delayNs || f.cfn != cfn || joining then none else some (stitchWords f)) ∧
    ((l.stitchTake f cfn joining).align 0).mismatch = 0 ∧ (l.stitchTake f cfn joining).stCfn = some f.cfn ∧
    (l.stitchTake f cfn joining).stDelay = min 16383 f.delayNs := by
  have hz : ((l.modAlign 0 fun a => { a with mismatch := 0 }).align 0).mismatch = 0 :=
    congrArg Align.mismatch (tget_tmod_same ({} : Align) l.aligns 0 fun a => { a with mismatch := 0 })
  unfold Lane.stitchTake
  rw [if_neg (by simp [ha])]
  extract_lets late wrong l0 l1 l2 l3
  have h2 : l2 = l1 ∨ l2 = l1.stFlag 3 := by by_cases h : late <;> simp [l2, h]
  have h3 : l3 = l2 ∨ l3 = l2.stFlag 2 := by by_cases h : (wrong && !joining) = true <;> simp [l3, h]
  split
  all_goals
    rcases h3 with h3 | h3 <;> rcases h2 with h2 | h2 <;> rw [h3, h2] <;> exact ⟨rfl, hz, rfl, rfl⟩

theorem stFlag_self {b : Nat} (hb : b < 4) (l : Lane) : (l.stFlag b).stSticky.getLsbD b = true := getLsbD_setBit_true_self _ hb

/-- A further sticky bit leaves one that is set. -/
theorem stFlag_keeps {k : Nat} (b : Nat) {l : Lane} (h : l.stSticky.getLsbD k = true) : (l.stFlag b).stSticky.getLsbD k = true := by
  by_cases hk : k = b
  · subst hk
    exact stFlag_self (BitVec.lt_of_getLsbD h) l
  · exact (getLsbD_setBit_ne _ hk _).trans h

theorem stitchTake_late {f : StitchRx} {cfn : Cfn} {joining : Bool} {l : Lane} (ha : markerAt f l = true) (hd : 9500 < f.delayNs) :
    (l.stitchTake f cfn joining).stSticky.getLsbD 3 = true := by
  unfold Lane.stitchTake
  rw [if_neg (by simp [ha])]
  extract_lets late wrong l0 l1 l2 l3
  have h2 : l2.stSticky.getLsbD 3 = true := by
    rw [show l2 = l1.stFlag 3 from if_pos hd]
    exact stFlag_self (by decide) l1
  have h3 : l3.stSticky.getLsbD 3 = true := by
    by_cases h : (wrong && !joining) = true
    · rw [show l3 = l2.stFlag 2 from if_pos h]
      exact stFlag_keeps 2 h2
    · rw [show l3 = l2 from if_neg h]
      exact h2
  split
  · exact h3
  · exact stFlag_keeps 1 h3

theorem stitchTake_wrong {f : StitchRx} {cfn : Cfn} {l : Lane} (ha : markerAt f l = true) (hw : f.cfn ≠ cfn) :
    (l.stitchTake f cfn false).stSticky.getLsbD 2 = true := by
  unfold Lane.stitchTake
  rw [if_neg (by simp [ha])]
  extract_lets late wrong l0 l1 l2 l3
  have h3 : l3.stSticky.getLsbD 2 = true := by
    rw [show l3 = l2.stFlag 2 from if_pos (by simp [wrong, hw])]
    exact stFlag_self (by decide) l2
  split
  · exact h3
  · exact stFlag_keeps 1 h3

theorem stitchTake_clean {f : StitchRx} {cfn : Cfn} {l : Lane} (ha : markerAt f l = true) (hc : f.cfn = cfn) (hd : f.delayNs ≤ 9500)
    (hi : f.invalid = []) : (l.stitchTake f cfn false).stSticky = l.stSticky := by
  have hl : ¬ 9500 < f.delayNs := by omega
  simp [Lane.stitchTake, ha, hc, hl, hi, Lane.modAlign]

theorem stitchFrame_inTime (s : State) (n : Nat) (f : StitchRx) (hl : s.lockedStitch n = true) (hm : s.glb.mode ≠ .hold)
    (ha : markerAt f (s.lane n) = true) (hp : (s.lane n).stCfn = some (s.glb.cfn - 1)) (hc : f.cfn = s.glb.cfn) (hd : f.delayNs ≤ 9500)
    (hi : f.invalid = []) (hj : s.twin.aligning = false) : Answers (exec (.stitchFrame n f) s) fun t =>
      (t.lane n).stWords = some (stitchWords f) ∧ ((t.lane n).align 0).mismatch = 0 ∧ (t.lane n).stCfn = some s.glb.cfn ∧
      (t.lane n).stSticky = (s.lane n).stSticky ∧ (t.lane n).stDelay = f.delayNs ∧ OnlyLane n s t ∧ FrameBut [.lanes, .twin] s t := by
  refine (stitchFrame_taken hl hm ha (by rw [hp, hc])).mono fun t ⟨ht, ho, hf⟩ => ?_
  obtain ⟨hw, hz, hn, hs⟩ := stitchTake_ahead f s.glb.cfn s.twin.aligning (s.lane n) ha
  have hl : ¬ 9500 < f.delayNs := by omega
  rw [ht]
  refine ⟨?_, hz, hn.trans (congrArg some hc), ?_, hs.trans (by omega), ho, hf⟩
  · rw [hw]
    simp [hl, hc, hj]
  · rw [hj]
    exact stitchTake_clean ha hc hd hi

theorem stitchFrame_late (s : State) (n : Nat) (f : StitchRx) (hl : s.lockedStitch n = true) (hm : s.glb.mode ≠ .hold)
    (ha : markerAt f (s.lane n) = true) (hp : (s.lane n).stCfn = some (f.cfn - 1)) (hd : 9500 < f.delayNs) :
    Answers (exec (.stitchFrame n f) s) fun t =>
      (t.lane n).stWords = none ∧ (t.lane n).stSticky.getLsbD 3 = true ∧ OnlyLane n s t ∧ FrameBut [.lanes, .twin] s t := by
  refine (stitchFrame_taken hl hm ha hp).mono fun t ⟨ht, ho, hf⟩ => ?_
  obtain ⟨hw, -⟩ := stitchTake_ahead f s.glb.cfn s.twin.aligning (s.lane n) ha
  rw [ht]
  exact ⟨hw.trans (by simp [hd]), stitchTake_late ha hd, ho, hf⟩

theorem stitchFrame_otherCfn (s : State) (n : Nat) (f : StitchRx) (hl : s.lockedStitch n = true) (hm : s.glb.mode ≠ .hold)
    (ha : markerAt f (s.lane n) = true) (hp : (s.lane n).stCfn = some (f.cfn - 1)) (hc : f.cfn ≠ s.glb.cfn) (hj : s.twin.aligning = false) :
    Answers (exec (.stitchFrame n f) s) fun t =>
      (t.lane n).stWords = none ∧ (t.lane n).stSticky.getLsbD 2 = true ∧ OnlyLane n s t ∧ FrameBut [.lanes, .twin] s t := by
  refine (stitchFrame_taken hl hm ha hp).mono fun t ⟨ht, ho, hf⟩ => ?_
  obtain ⟨hw, -⟩ := stitchTake_ahead f s.glb.cfn s.twin.aligning (s.lane n) ha
  rw [ht]
  refine ⟨hw.trans (by simp [hc]), ?_, ho, hf⟩
  rw [hj]
  exact stitchTake_wrong ha hc

/-! ### Tokens -/

theorem lockedStitch_receiving {s : State} {n : Nat} (h : s.lockedStitch n = true) (hm : s.glb.mode ≠ .hold) :
    (!s.lockedStitch n || !s.receiving n) = false := by
  obtain ⟨hr, -⟩ := lockedStitch_iff.mp h
  simp [h, State.receiving, hr, hm]

theorem stitchToken_badCrc (s : State) (n : Nat) (k : BitVec 168) (hl : s.lockedStitch n = true) (hm : s.glb.mode ≠ .hold)
    (hc : Token.crcOk k = false) : Answers (exec (.stitchToken n k) s) fun t =>
      t.lane n = (s.lane n).stFlag 0 ∧ OnlyLane n s t ∧ FrameBut [.lanes] s t := by
  have he : execStitchToken n k s = done (s.modLane n (Lane.stFlag 0)) := by
    simp only [execStitchToken, lockedStitch_receiving hl hm, hc, Bool.false_eq_true, Bool.not_false, if_false, if_true]
  exact answers_event he ⟨State.modLane_lane_same .., (onlyLane_modLane n _ s).then_settle, frameBut_done (by simp)⟩

theorem takeHb_notes {s : State} {n : Nat} (k : Token) (ht : s.twin.twinLanes.getLsbD n = true) :
    (s.takeHb n k).twin.hbTok = true ∧ (s.takeHb n k).twin.role = s.twin.role ∧ FrameBut [.twin] s (s.takeHb n k) := by
  have he : s.takeHb n k = s.modTwin fun w => { w with
      hbTok := true, peerId := some (BitVec.ofNat 64 (k.bits 131 68)), peerYield := if k.bits 135 135 = 1 then some s.tick else w.peerYield } :=
    if_neg (by simp [ht])
  rw [he]
  exact ⟨rfl, rfl, frameBut_modTwin _ s⟩

/-- A good token of a domain lane is recorded before it is taken (R315). -/
def State.tokenSeen (n : Nat) (k : Token) (s : State) : State :=
  if s.domainLanes.contains n && 1 ≤ k.kind && k.kind ≤ 5 then s.modTwin fun w => { w with
    domLast := tmod {} w.domLast n fun d => { d with kind := k.kind, vote := if k.kind = 2 then k.bits 135 134 else d.vote } }
  else s

theorem tokenSeen_twin (n : Nat) (k : Token) (s : State) :
    (s.tokenSeen n k).twin.twinLanes = s.twin.twinLanes ∧ (s.tokenSeen n k).twin.role = s.twin.role ∧ FrameBut [.twin] s (s.tokenSeen n k) := by
  unfold State.tokenSeen
  split
  · exact ⟨rfl, rfl, frameBut_modTwin _ s⟩
  · exact ⟨rfl, rfl, FrameBut.refl _ s⟩

theorem stitchToken_heartbeat (s : State) (n : Nat) (k : BitVec 168) (hl : s.lockedStitch n = true) (hm : s.glb.mode ≠ .hold)
    (hc : Token.crcOk k = true) (hk : Token.kind k = 1) (ht : s.twin.twinLanes.getLsbD n = true) : Answers (exec (.stitchToken n k) s) fun t =>
      t.twin.hbTok = true ∧ t.twin.role = s.twin.role ∧ FrameBut [.twin] s t := by
  have he : execStitchToken n k s = done ((s.tokenSeen n k).takeHb n k) := by
    simp only [execStitchToken, lockedStitch_receiving hl hm, hc, hk, Bool.false_eq_true, Bool.not_true, if_false, State.tokenSeen]
  obtain ⟨hw, hr, hf⟩ := tokenSeen_twin n k s
  obtain ⟨hh, hr', hf'⟩ := takeHb_notes (s := s.tokenSeen n k) k (by rw [hw]; exact ht)
  exact answers_event he ⟨hh, hr'.trans hr, (hf.trans hf').then_settle⟩

/-! ### Mirrored activations -/

theorem mirrorRecord_activation (s : State) (w : W64) (hr : s.twin.role = .follower) (hk : fld w.toNat 60 4 = 2) :
    Answers (exec (.mirrorRecord w) s) fun t =>
      t.key.slot (fld w.toNat 46 14) = { s.key.slot (fld w.toNat 46 14) with actPend := some (cfnAdd s.tick 1) } ∧ FrameBut [.key] s t := by
  have he : execMirrorRecord w s =
      done (s.modKey (Key.modSlot (fld w.toNat 46 14) fun x => { x with actPend := some (cfnAdd s.tick 1) })) := by
    simp only [execMirrorRecord, hr, hk, bne_self_eq_false, Bool.false_eq_true, if_false]
    rfl
  exact answers_event he ⟨tget_tmod_same ({} : Slot) s.key.slots _ fun x => { x with actPend := some (cfnAdd s.tick 1) }, frameBut_done (by simp)⟩

theorem mirrorRecord_notFollower (s : State) (w : W64) (hr : s.twin.role ≠ .follower) : Answers (exec (.mirrorRecord w) s) fun t => FrameBut [] s t := by
  have he : execMirrorRecord w s = done s := congrArg done (if_pos (by simpa using hr))
  exact answers_event he (frameBut_done rfl)

end Sys2Proof.Machine

open Sys2Proof Sys2Proof.Machine

/-- Settles O31: what a marker in place gives its lane, and a lemma for each token and record. -/
theorem stitchFrames : Obligations.StitchFrames := by
  unfold Obligations.StitchFrames
  exact ⟨stitchFrame_inTime, stitchFrame_late, stitchFrame_otherCfn, stitchToken_badCrc, stitchToken_heartbeat, mirrorRecord_activation,
    mirrorRecord_notFollower⟩

end

section
/-!
PROOFS. The steps of an armed operation before its boundary.
-/

namespace Sys2Proof.Machine

theorem commitNotice_notes (s : State) (a : Armed) (ha : s.sch.armed = some a) (ht : a.target - s.glb.cfn = 5) (hr : s.glb.released = true) :
    Answers (exec .commitNotice s) fun t => t.sch = { s.sch with armed := some { a with noticed := true } } ∧ FrameBut [.sch] s t := by
  have he : execCommitNotice s = done (s.modSch fun c => { c with armed := some { a with noticed := true } }) := by
    simp only [execCommitNotice, ha, State.cfn, ht, hr, decide_true, Bool.and_self, if_true]
  exact answers_event he ⟨rfl, (frameBut_modSch _ s).then_settle⟩

theorem domainReadiness_votes (s : State) (a : Armed) (ha : s.sch.armed = some a) (hd : a.domain = true) (hu : s.undecided = true)
    (ht : cfnAdd s.glb.cfn 4 = a.target) (hn : a.ready = none) (hr : s.glb.released = true) : Answers (exec .domainReadiness s) fun t =>
      t.sch = { s.sch with armed := some { a with ready := some (s.ownCause a) } } ∧
      t.twin = { s.twin with vote := some (s.voteToken 2 (if s.ownCause a = 0 then 1 else 2) a) } ∧ FrameBut [.sch, .twin] s t := by
  have hc : (!a.domain || !s.undecided || cfnAdd s.cfn 4 != a.target || a.ready.isSome || !s.glb.released) = false := by
    simp [hd, hu, State.cfn, ht, hn, hr]
  have he : execDomainReadiness s = done ((s.modSch fun x => { x with armed := some { a with ready := some (s.ownCause a) } }).modTwin fun t => { t with
      vote := some (s.voteToken 2 (if s.ownCause a = 0 then 1 else 2) a) }) := by
    simp only [execDomainReadiness, ha, hc, Bool.false_eq_true, if_false]
  exact answers_event he ⟨rfl, rfl, frameBut_done (by simp)⟩

theorem domainVeto_votes (s : State) (a : Armed) (ha : s.sch.armed = some a) (hd : a.domain = true) (hu : s.undecided = true)
    (ht : cfnAdd s.glb.cfn 3 = a.target) (hn : a.ready.isSome = true) (hr : s.glb.released = true) : Answers (exec .domainVeto s) fun t =>
      t.sch = { s.sch with armed := some { a with vetoTx := a.vetoTx || (a.vetoRx || a.badTok || s.domainLanes.any fun n => !a.heard.contains n) } } ∧
      t.twin.vote.isSome = true ∧ t.twin.role = s.twin.role ∧ FrameBut [.sch, .twin] s t := by
  have hc : (!a.domain || !s.undecided || cfnAdd s.cfn 3 != a.target || a.ready.isNone || !s.glb.released) = false := by
    simp [hd, hu, State.cfn, ht, hr, hn]
  have he : execDomainVeto s = done (
      let veto := a.vetoRx || a.badTok || s.domainLanes.any fun n => !a.heard.contains n
      (s.modSch fun x => { x with armed := some { a with vetoTx := a.vetoTx || veto } }).modTwin fun t => { t with
        vote := some (s.voteToken 2 (if veto || a.ready != some 0 then 2 else 1) a) }) := by
    simp only [execDomainVeto, ha, hc, Bool.false_eq_true, if_false]
  exact answers_event he ⟨rfl, rfl, rfl, frameBut_done (by simp)⟩

/-! ### The decision -/

/-- At F-2 an undecided operation is decided, where a core runs. -/
theorem decision_due {s : State} {a : Armed} (hu : s.undecided = true) (ht : cfnAdd s.glb.cfn 2 = a.target) (hr : s.glb.released = true) :
    (!s.undecided || cfnAdd s.cfn 2 != a.target || !s.glb.released) = false := by
  simp [hu, State.cfn, ht, hr]

theorem commitDecision_go (s : State) (a : Armed) (ha : s.sch.armed = some a) (hu : s.undecided = true) (ht : cfnAdd s.glb.cfn 2 = a.target)
    (hr : s.glb.released = true) (hc : s.decisionCause a = 0) (hk : s.pert.skewFrames = 0) : Answers (exec .commitDecision s) fun t =>
      t.sch = { s.sch with armState := if a.rollback then .rollbackGo else .commitGo, armed := some { a with effect := a.target } } ∧
      t.twin = { s.twin with domCommit := if a.domain then some a.target else s.twin.domCommit } ∧ FrameBut [.sch, .twin] s t := by
  have hz : cfnAdd a.target 0 = a.target := BitVec.add_zero _
  have he : execCommitDecision s = done ((s.modSch fun c => { c with
      armState := if a.rollback then .rollbackGo else .commitGo, armed := some { a with effect := a.target } }).modTwin
      fun t => { t with domCommit := if a.domain then some a.target else t.domCommit }) := by
    simp only [execCommitDecision, ha, decision_due hu ht hr, hc, hk, hz, bne_self_eq_false, Bool.false_eq_true, if_false, if_true]
  exact answers_event he ⟨rfl, rfl, frameBut_done (by simp)⟩

/-- What a Deferred operation leaves (R147). -/
def Sch.deferred (cfn : Cfn) (a : Armed) (cause : Nat) (c : Sch) : Sch :=
  { (c.disarm.flag 6).outcome ⟨cfn, a.id, 1, cause⟩ with deferCause := cause, last := cfn }

/-- A Deferred operation is recorded and completes, or is an event where no command armed it. -/
theorem deferArmed_spec {s : State} {a : Armed} (ha : s.sch.armed = some a) (cause : Nat) :
    (s.deferArmed cause).sch = s.sch.deferred s.glb.cfn a cause ∧
    (s.deferArmed cause).twin = { s.twin with domCommit := if a.domain then some a.target else s.twin.domCommit } := by
  unfold State.deferArmed
  simp only [ha]
  cases a.origin with
  | none => exact ⟨rfl, rfl⟩
  | some o => exact ⟨rfl, rfl⟩

theorem commitDecision_defers (s : State) (a : Armed) (ha : s.sch.armed = some a) (hu : s.undecided = true) (ht : cfnAdd s.glb.cfn 2 = a.target)
    (hr : s.glb.released = true) (hc : s.decisionCause a ≠ 0) : Answers (exec .commitDecision s) fun t =>
      t.sch.armState = .idle ∧ t.sch.armed = none ∧ t.sch.deferCause = s.decisionCause a ∧ t.sch.last = s.glb.cfn ∧
      t.sch.sticky.getLsbD 6 = true ∧ t.sch.present = s.sch.present ∧ t.sch.past = s.sch.past ∧ t.sch.future = s.sch.future ∧
      t.twin = { s.twin with domCommit := if a.domain then some a.target else s.twin.domCommit } ∧ FrameBut [.sch, .twin, .perf, .mbx] s t := by
  have he : execCommitDecision s = done (s.deferArmed (s.decisionCause a)) := by
    simp only [execCommitDecision, ha, decision_due hu ht hr, bne_iff_ne.mpr hc, Bool.false_eq_true, if_false, if_true]
  obtain ⟨hs, hw⟩ := deferArmed_spec ha (s.decisionCause a)
  refine answers_event he ?_
  rw [State.settle_sch, State.settle_twin, hs]
  exact ⟨rfl, rfl, rfl, rfl, getLsbD_setBit_true_self _ (by decide), rfl, rfl, rfl, hw, frameBut_done (by simp)⟩

theorem domainIdCheck_mismatch (s : State) (f : Cfn) (x : W64) (hd : s.twin.domCommit = some f) (hc : s.glb.cfn = cfnAdd f 1)
    (hi : s.twin.idSeen = [x]) (hx : x ≠ s.presentBank.id) : Answers (exec .domainIdCheck s) fun t =>
      t.sch = s.sch.flag 0 ∧ t.twin = { s.twin with domCommit := none } ∧ FrameBut [.sch, .twin, .mbx] s t := by
  have hf : [x].find? (· != s.presentBank.id) = some x := List.find?_cons_of_pos (by simpa using hx)
  have he : execDomainIdCheck s = done (((s.modSch (Sch.flag 0)).event 0x4404 0 (leBytes 8 s.presentBank.id.toNat ++ leBytes 8 x.toNat)).modTwin
      fun t => { t with domCommit := none }) := by
    simp only [execDomainIdCheck, hd, State.cfn, hc, bne_self_eq_false, Bool.false_eq_true, if_false, hi, hf]
  exact answers_event he ⟨rfl, rfl, frameBut_done (by simp)⟩

end Sys2Proof.Machine

open Sys2Proof Sys2Proof.Machine

/-- Settles O32: a lemma for each step. -/
theorem commitDecisions : Obligations.CommitDecisions := by
  unfold Obligations.CommitDecisions
  exact ⟨commitNotice_notes, domainReadiness_votes, domainVeto_votes, commitDecision_go, commitDecision_defers, domainIdCheck_mismatch⟩

end

section
/-!
PROOFS. The boundary at which a commit, a RESUME or a rollback takes effect. What crosses the change of the bank moves configurations,
protection, keys and groups, and leaves the schedule's own block.
-/

namespace Sys2Proof.Machine

/-- The schedule's block after an operation has taken effect. -/
def Sch.effective (s : State) (a : Armed) (c : Sch) : Sch :=
  { c.disarm.outcome ⟨s.cfn, s.presentBank.id, if a.rollback then 2 else 0, 0⟩ with
    last := s.cfn, committed := c.committed || !s.glb.secDue, commitNext := s.glb.secDue }

theorem tookEffect_sch (a : Armed) (event : Nat) (s : State) : (s.tookEffect a event).sch = s.sch.effective s a := by
  unfold State.tookEffect
  dsimp only
  cases a.origin with
  | none => rfl
  | some o => rfl

/-- `t` keeps the schedule's block, and is in the same frame. -/
def SameSch (s t : State) : Prop := t.sch = s.sch ∧ t.glb.cfn = s.glb.cfn

theorem sameSch_of_rest {l : List Part} {s t : State} (hl : .sch ∉ l) (h : t.rest l = s.rest l) : SameSch s t := by
  refine ⟨frameBut_of_rest h .sch hl, ?_⟩
  have hc := congrArg (fun x => x.glb.cfn) h
  unfold State.rest at hc
  by_cases hg : Part.glb ∈ l
  · simpa only [if_pos hg] using hc
  · simpa only [if_neg hg] using hc

theorem sameSch_conjDecideAll (s : State) : SameSch s s.conjDecideAll :=
  sameSch_of_rest (by decide) (State.conjDecideAll_rest (ps := [.rst, .glb, .grps, .twin]) (by simp) s)

theorem sameSch_conjApplyAll (s : State) : SameSch s s.conjApplyAll :=
  sameSch_of_rest (by decide) (State.conjApplyAll_rest (ps := [.grps, .dp, .mbx, .perf]) (by simp) s)

theorem sameSch_crossCommit (old : Bank) (s : State) : SameSch s (s.crossCommit old) :=
  sameSch_of_rest (by decide) (State.crossCommit_rest (ps := [.rst, .glb, .grps, .dp, .prot, .key, .mbx, .perf]) (by simp) old s)

theorem startService_sch (s : State) : s.startService.sch = s.sch := by
  unfold State.startService
  repeat' split
  all_goals rfl

/-! ### Commit and RESUME -/

/-- A commit or RESUME has taken effect: what `t` holds before is marked COMMITTED, with the data enabled. -/
def State.committed (a : Armed) (t : State) : State :=
  ((((t.modSch fun c => { (c.flag 7) with dataEnable := true, began := true }).tookEffect a 0x4401).count 596 1).startService).conjDecideAll

theorem committed_sch (a : Armed) (t : State) : (t.committed a).sch =
    Sch.effective (t.modSch fun c => { (c.flag 7) with dataEnable := true, began := true }) a { (t.sch.flag 7) with dataEnable := true, began := true } := by
  unfold State.committed
  rw [(sameSch_conjDecideAll _).1, startService_sch]
  exact tookEffect_sch a 0x4401 _

/-- The rotation of the banks (R136). -/
def Sch.rotated (c : Sch) : Sch :=
  { c with present := c.future, past := c.present, future := c.past, pastValid := true, futState := .opened, checked := false, pendReopen := none, pendUnprep := false }

theorem execCommitTakeEffect_due {s : State} {a : Armed} (ha : s.sch.armed = some a) (hg : s.sch.armState = .commitGo) (hc : s.glb.cfn = a.effect)
    (ht : s.traffic = true) :
    execCommitTakeEffect s = done ((if a.resume then s.conjApplyAll else (s.modSch Sch.rotated).crossCommit s.presentBank).committed a) := by
  have hd : (s.sch.armState != .commitGo || s.cfn != a.effect || !s.traffic) = false := by simp [hg, State.cfn, hc, ht]
  simp only [execCommitTakeEffect, ha, hd, Bool.false_eq_true, if_false]
  rfl

theorem commit_rotates (s : State) (a : Armed) (ha : s.sch.armed = some a) (hg : s.sch.armState = .commitGo) (hc : s.glb.cfn = a.effect)
    (ht : s.traffic = true) (hr : a.resume = false) : Answers (exec .commitTakeEffect s) fun t =>
      t.sch.present = s.sch.future ∧ t.sch.past = s.sch.present ∧ t.sch.future = s.sch.past ∧ t.sch.pastValid = true ∧
      t.sch.futState = .opened ∧ t.sch.armState = .idle ∧ t.sch.armed = none ∧ t.sch.dataEnable = true ∧ t.sch.last = s.glb.cfn ∧
      t.sch.sticky.getLsbD 7 = true ∧ t.sch.bank0 = s.sch.bank0 ∧ t.sch.bank1 = s.sch.bank1 ∧ t.sch.bank2 = s.sch.bank2 := by
  have he := execCommitTakeEffect_due ha hg hc ht
  rw [if_neg (by simp [hr])] at he
  obtain ⟨hs, hn⟩ := sameSch_crossCommit s.presentBank (s.modSch Sch.rotated)
  refine answers_event he ?_
  rw [State.settle_sch, committed_sch, hs]
  exact ⟨rfl, rfl, rfl, rfl, rfl, rfl, rfl, rfl, hn, getLsbD_setBit_true_self _ (by decide), rfl, rfl, rfl⟩

theorem resume_keepsBanks (s : State) (a : Armed) (ha : s.sch.armed = some a) (hg : s.sch.armState = .commitGo) (hc : s.glb.cfn = a.effect)
    (ht : s.traffic = true) (hr : a.resume = true) : Answers (exec .commitTakeEffect s) fun t =>
      t.sch.present = s.sch.present ∧ t.sch.past = s.sch.past ∧ t.sch.future = s.sch.future ∧ t.sch.dataEnable = true ∧
      t.sch.armState = .idle ∧ t.sch.sticky.getLsbD 7 = true := by
  have he := execCommitTakeEffect_due ha hg hc ht
  rw [if_pos hr] at he
  obtain ⟨hs, -⟩ := sameSch_conjApplyAll s
  refine answers_event he ?_
  rw [State.settle_sch, committed_sch, hs]
  exact ⟨rfl, rfl, rfl, rfl, rfl, getLsbD_setBit_true_self _ (by decide)⟩

/-! ### Rollback -/

/-- The exchange of Present and Past (R156). -/
def Sch.exchanged (c : Sch) : Sch := { c with present := c.past, past := c.present }

theorem rollback_exchanges (s : State) (a : Armed) (ha : s.sch.armed = some a) (hg : s.sch.armState = .rollbackGo) (hc : s.glb.cfn = a.effect)
    (ht : s.traffic = true) : Answers (exec .rollbackTakeEffect s) fun t =>
      t.sch.present = s.sch.past ∧ t.sch.past = s.sch.present ∧ t.sch.future = s.sch.future ∧ t.sch.armState = .idle ∧
      t.sch.armed = none ∧ t.sch.last = s.glb.cfn ∧ t.sch.sticky.getLsbD 5 = true ∧ t.sch.bank0 = s.sch.bank0 ∧ t.sch.bank1 = s.sch.bank1 ∧
      t.sch.bank2 = s.sch.bank2 := by
  have hd : (s.sch.armState != .rollbackGo || s.cfn != a.effect || !s.traffic) = false := by simp [hg, State.cfn, hc, ht]
  have he : execRollbackTakeEffect s = done
      (((((s.modSch Sch.exchanged).crossCommit s.presentBank).modSch (Sch.flag 5)).tookEffect a 0x4403).conjDecideAll) := by
    simp only [execRollbackTakeEffect, ha, hd, Bool.false_eq_true, if_false]
    rfl
  obtain ⟨hs, hn⟩ := sameSch_crossCommit s.presentBank (s.modSch Sch.exchanged)
  refine answers_event he ?_
  rw [State.settle_sch, (sameSch_conjDecideAll _).1, tookEffect_sch, State.modSch_sch, hs]
  exact ⟨rfl, rfl, rfl, rfl, rfl, hn, getLsbD_setBit_true_self _ (by decide), rfl, rfl, rfl⟩

end Sys2Proof.Machine

open Sys2Proof Sys2Proof.Machine

/-- Settles O33: what crosses a boundary leaves the schedule's block, so that the exchange of roles is all that happens to it. -/
theorem takingEffect : Obligations.TakingEffect := by
  unfold Obligations.TakingEffect
  exact ⟨commit_rotates, resume_keepsBanks, rollback_exchanges⟩

end

section
/-!
PROOFS. The ends of a load, a copy and a pass over the Future bank.
-/

namespace Sys2Proof.Machine

/-! ### Banks -/

theorem Sch.modBank_bank_ne {b k : Nat} (hb : b < 3) (hk : k < 3) (h : k ≠ b) (f : Bank → Bank) (c : Sch) : (c.modBank b f).bank k = c.bank k := by
  unfold Sch.modBank Sch.bank
  split_ifs <;> first | rfl | omega

/-- The Future bank was written by `f`, and the other banks and all roles are as they were. -/
def FutureWritten (f : Bank → Bank) (s t : State) : Prop :=
  ∀ k, t.sch.bank k = (s.sch.modBank s.sch.future f).bank k ∧
    t.sch.present = s.sch.present ∧ t.sch.past = s.sch.past ∧ t.sch.future = s.sch.future

theorem FutureWritten.futureBank {f : Bank → Bank} {s t : State} (h : FutureWritten f s t) : t.futureBank = f s.futureBank := by
  obtain ⟨hk, -, -, hf⟩ := h s.sch.future
  unfold State.futureBank
  rw [hf, hk, Sch.modBank_bank_same]

theorem FutureWritten.presentBank {f : Bank → Bank} {s t : State} (h : FutureWritten f s t) (hb : BankRoles s) : t.presentBank = s.presentBank := by
  obtain ⟨hp, -, hf, -, hpf, -⟩ := hb
  obtain ⟨hk, hr, -⟩ := h s.sch.present
  unfold State.presentBank
  rw [hr, hk, Sch.modBank_bank_ne hf hp hpf]

theorem FutureWritten.pastBank {f : Bank → Bank} {s t : State} (h : FutureWritten f s t) (hb : BankRoles s) : t.pastBank = s.pastBank := by
  obtain ⟨-, hp, hf, -, -, hpf⟩ := hb
  obtain ⟨hk, -, hr, -⟩ := h s.sch.past
  unfold State.pastBank
  rw [hr, hk, Sch.modBank_bank_ne hf hp hpf]

/-- The schedule's block after a write of the Future bank by `f` and of other fields. -/
theorem futureWritten_of_sch {f : Bank → Bank} {s t : State} (h0 : t.sch.bank0 = (s.sch.modBank s.sch.future f).bank0)
    (h1 : t.sch.bank1 = (s.sch.modBank s.sch.future f).bank1) (h2 : t.sch.bank2 = (s.sch.modBank s.sch.future f).bank2)
    (hp : t.sch.present = (s.sch.modBank s.sch.future f).present) (hq : t.sch.past = (s.sch.modBank s.sch.future f).past)
    (hf : t.sch.future = (s.sch.modBank s.sch.future f).future) : FutureWritten f s t := by
  refine fun k => ⟨?_, hp.trans (Sch.modBank_present ..), hq.trans (Sch.modBank_past ..), hf.trans (Sch.modBank_future ..)⟩
  unfold Sch.bank
  rw [h0, h1, h2]

/-! ### The ends of a load (R144, R180) -/

/-- The load is over, with the Future bank OPEN. -/
def LoadOver (t : State) : Prop := t.sch.futState = .opened ∧ t.sch.load = none

/-- What the Future bank holds after a rejected load (R180). -/
def Bank.rejected (drawn : Nat) (b : Bank) : Bank := { (b.undefMap drawn).undefTables drawn with id := 0, useMask := 0 }

theorem rejectLoad_spec {s : State} {l : Load} (hl : s.sch.load = some l) (e : ImgErr) :
    FutureWritten (Bank.rejected s.drawn) s (s.rejectLoad e) ∧ LoadOver (s.rejectLoad e) ∧ (s.rejectLoad e).sch.sticky.getLsbD 1 = true := by
  have he : s.rejectLoad e = (({ s with drawn := s.drawn + 1 }.modSch fun c =>
      { ((c.modBank c.future (Bank.rejected s.drawn)).flag 1) with futState := .opened, load := none }).count 557 1).complete (l.mb, l.seq) 0x0401
        e.status 0 e.bytes := by
    simp only [State.rejectLoad, hl]
    rfl
  rw [he]
  exact ⟨futureWritten_of_sch rfl rfl rfl rfl rfl rfl, ⟨rfl, rfl⟩, getLsbD_setBit_true_self _ (by decide)⟩

theorem endLoad_rejected {s : State} {l : Load} {e : ImgErr} (hl : s.sch.load = some l) (hu : l.undef = false) (ho : s.loadOutcome l = .inl e) :
    s.endLoad = s.rejectLoad e := by
  simp only [State.endLoad, hl, hu, Bool.false_eq_true, if_false, ho]

/-- A load whose descriptor window changed ends as a rejected one with free values (log entry 21). -/
theorem endLoad_undefined {s : State} {l : Load} (hl : s.sch.load = some l) (hu : l.undef = true) :
    ∃ e, s.endLoad = (s.draw 72).2.rejectLoad e := by
  have h : s.endLoad = s.rejectUndefined := by simp only [State.endLoad, hl, hu, if_true]
  exact ⟨_, h⟩

theorem endLoad_loaded {s : State} {l : Load} {b : Bank} {d : List Byte} (hl : s.sch.load = some l) (hu : l.undef = false)
    (ho : s.loadOutcome l = .inr (b, d)) : FutureWritten (fun _ => b) s s.endLoad ∧ LoadOver s.endLoad ∧ s.endLoad.sch.digest = imgDigest d ∧
      FrameBut [.sch, .perf, .mbx] s s.endLoad := by
  have he : s.endLoad = ((s.modSch fun c => { (c.modBank c.future fun _ => b) with
      futState := .opened, load := none, checked := false, digest := imgDigest d }).count 557 1).complete (l.mb, l.seq) 0x0401 0
        (b2n (imgDelta d)) (leBytes 8 (imgId d) ++ imgDigest d) := by
    simp only [State.endLoad, hl, hu, Bool.false_eq_true, if_false, ho]
  rw [he]
  exact ⟨futureWritten_of_sch rfl rfl rfl rfl rfl rfl, ⟨rfl, rfl⟩, rfl, frameBut_of_rest (by simp)⟩

/-- A load that nothing went wrong with reads the image that it was delivered. -/
theorem loadOutcome_bad {s : State} {l : Load} {e : ImgErr} (ha : l.again = false) (hr : l.readErr = false)
    (h : loadImage s false l.image = .inl e) : s.loadOutcome l = .inl e := by
  simp only [State.loadOutcome, State.loadData, ha, hr, Bool.false_eq_true, if_false, h]

theorem loadOutcome_good {s : State} {l : Load} {b : Bank} (ha : l.again = false) (hr : l.readErr = false)
    (h : loadImage s false l.image = .inr b) : s.loadOutcome l = .inr (b, l.image) := by
  simp only [State.loadOutcome, State.loadData, ha, hr, Bool.false_eq_true, if_false, h]

/-- An image that could not be read whole is rejected (R178). -/
theorem loadImage_readErr (s : State) (d : List Byte) : ∃ e, loadImage s true d = .inl e := by
  unfold loadImage
  dsimp only
  split
  · exact ⟨_, rfl⟩
  · exact ⟨_, if_pos rfl⟩

theorem loadOutcome_readErr {s : State} {l : Load} (ha : l.again = false) (hr : l.readErr = true) : ∃ e, s.loadOutcome l = .inl e := by
  obtain ⟨e, he⟩ := loadImage_readErr s l.image
  exact ⟨e, by simp only [State.loadOutcome, State.loadData, ha, hr, Bool.false_eq_true, if_false, he]⟩

/-! ### The sticky bit of the DMA, of which a load reads nothing -/

/-- DMA-S has met a read error (R346). -/
def State.dmaFailed (s : State) : State := s.modGlb fun g => { g with dmaSticky := g.dmaSticky ||| 1 }

theorem readSections_dmaFailed (s : State) (d : List Byte) (delta : Bool) (size pos : Nat) (l : List SecEntry) (b : Bank) :
    readSections s.dmaFailed d delta size pos l b = readSections s d delta size pos l b := by
  induction l generalizing pos b with
  | nil => rfl
  | cons e r ih =>
    have h : readSection s.dmaFailed delta e = readSection s delta e := rfl
    simp only [readSections, h, ih]

theorem loadImage_dmaFailed (s : State) (r : Bool) (d : List Byte) : loadImage s.dmaFailed r d = loadImage s r d := by
  have hm : mergedErr s.dmaFailed = mergedErr s := rfl
  have hf : s.dmaFailed.futureBank = s.futureBank := rfl
  simp only [loadImage, readSections_dmaFailed, hm, hf]

theorem loadOutcome_dmaFailed (s : State) (l : Load) : s.dmaFailed.loadOutcome l = s.loadOutcome l := by
  have hd : s.dmaFailed.loadData l = s.loadData l := rfl
  simp only [State.loadOutcome, hd, loadImage_dmaFailed]

/-! ### LOAD_DONE -/

/-- A read error is recorded where the delivery met one; the load ends either way. -/
theorem execSchLoadDone_ends (s : State) : ∃ u, (u = s ∨ u = s.dmaFailed) ∧ execSchLoadDone s = done u.endLoad := by
  unfold execSchLoadDone
  split
  · exact ⟨_, .inr rfl, rfl⟩
  · exact ⟨_, .inl rfl, rfl⟩

theorem execSchLoadDone_clean {s : State} {l : Load} (hl : s.sch.load = some l) (hr : l.readErr = false) (ha : l.again = false) :
    execSchLoadDone s = done s.endLoad := by
  unfold execSchLoadDone
  rw [if_neg (by simp [hl, hr, ha])]

/-- What every end of a load leaves: the other banks, and the Future bank OPEN without a load. -/
theorem endLoad_over {s : State} {l : Load} (hl : s.sch.load = some l) (hb : BankRoles s) :
    s.endLoad.presentBank = s.presentBank ∧ s.endLoad.pastBank = s.pastBank ∧ LoadOver s.endLoad := by
  cases hu : l.undef with
  | true =>
    obtain ⟨e, he⟩ := endLoad_undefined hl hu
    obtain ⟨hf, ho, -⟩ := rejectLoad_spec (s := (s.draw 72).2) hl e
    rw [he]
    exact ⟨hf.presentBank hb, hf.pastBank hb, ho⟩
  | false =>
    cases hd : s.loadOutcome l with
    | inl e =>
      obtain ⟨hf, ho, -⟩ := rejectLoad_spec hl e
      rw [endLoad_rejected hl hu hd]
      exact ⟨hf.presentBank hb, hf.pastBank hb, ho⟩
    | inr x =>
      obtain ⟨hf, ho, -⟩ := endLoad_loaded hl hu hd
      exact ⟨hf.presentBank hb, hf.pastBank hb, ho⟩

theorem schLoadDone_delivered (s : State) (l : Load) (hl : s.sch.load = some l) (hu : l.undef = false) (hr : l.readErr = false)
    (ha : l.again = false) (hb : BankRoles s) : Answers (exec .schLoadDone s) fun t =>
      t.presentBank = s.presentBank ∧ t.pastBank = s.pastBank ∧ t.sch.futState = .opened ∧ t.sch.load = none ∧
      (∀ b, loadImage s false l.image = .inr b → t.futureBank = b ∧ t.sch.digest = imgDigest l.image ∧ FrameBut [.sch, .perf, .mbx] s t) ∧
      (∀ e, loadImage s false l.image = .inl e → t.futureBank.id = 0 ∧ t.sch.sticky.getLsbD 1 = true ∧ FrameBut [.sch, .perf, .mbx, .drawn] s t) := by
  obtain ⟨hp, hq, ho, hn⟩ := endLoad_over hl hb
  refine answers_event (execSchLoadDone_clean hl hr ha) ⟨hp, hq, ho, hn, fun b h => ?_, fun e h => ?_⟩
  · obtain ⟨hf, -, hd, hfr⟩ := endLoad_loaded hl hu (loadOutcome_good ha hr h)
    exact ⟨hf.futureBank, hd, hfr.then_settle⟩
  · obtain ⟨hf, -, hs⟩ := rejectLoad_spec hl e
    rw [endLoad_rejected hl hu (loadOutcome_bad ha hr h)]
    exact ⟨congrArg Bank.id hf.futureBank, hs, frameBut_done (by simp)⟩

/-- A load that another processor took over reads its image anew, whether or not the delivery before met an error (R330). -/
theorem schLoadDone_again (s : State) (l : Load) (hl : s.sch.load = some l) (hu : l.undef = false) (_ : l.again = true)
    (_ : (deliver s.sch.descs l.host l.first l.count).fail = false) (hb : BankRoles s) : Answers (exec .schLoadDone s) fun t =>
      t.presentBank = s.presentBank ∧ t.pastBank = s.pastBank ∧ t.sch.futState = .opened ∧ t.sch.load = none ∧
      (∀ x, s.loadOutcome l = .inr x → t.futureBank = x.1 ∧ t.sch.digest = imgDigest x.2) ∧
      (∀ e, s.loadOutcome l = .inl e → t.futureBank.id = 0 ∧ t.sch.sticky.getLsbD 1 = true) := by
  obtain ⟨u, hs, he⟩ := execSchLoadDone_ends s
  have hc : u.sch = s.sch ∧ u.loadOutcome l = s.loadOutcome l := by
    rcases hs with rfl | rfl
    · exact ⟨rfl, rfl⟩
    · exact ⟨rfl, loadOutcome_dmaFailed s l⟩
  obtain ⟨hs, hd⟩ := hc
  have hl' : u.sch.load = some l := by rw [hs]; exact hl
  obtain ⟨hp, hq, ho, hn⟩ := endLoad_over hl' ((bankRoles_of_sch hs).mpr hb)
  refine answers_event he ⟨hp.trans ?_, hq.trans ?_, ho, hn, fun x h => ?_, fun e h => ?_⟩
  · unfold State.presentBank
    rw [hs]
  · unfold State.pastBank
    rw [hs]
  · obtain ⟨hf, -, hg, -⟩ := endLoad_loaded hl' hu (hd.trans h)
    exact ⟨hf.futureBank, hg⟩
  · obtain ⟨hf, -, hg⟩ := rejectLoad_spec hl' e
    rw [endLoad_rejected hl' hu (hd.trans h)]
    exact ⟨congrArg Bank.id hf.futureBank, hg⟩

/-- A load that cannot be completed is a rejected one. -/
theorem endLoad_fails {s : State} {l : Load} (hl : s.sch.load = some l) (h : l.undef = true ∨ (l.again = false ∧ l.readErr = true)) :
    ∃ v e, (v = s ∨ v = (s.draw 72).2) ∧ s.endLoad = v.rejectLoad e := by
  cases hu : l.undef with
  | true =>
    obtain ⟨e, he⟩ := endLoad_undefined hl hu
    exact ⟨_, e, .inr rfl, he⟩
  | false =>
    obtain ⟨ha, hr⟩ := h.resolve_left (by simp [hu])
    obtain ⟨e, he⟩ := loadOutcome_readErr ha hr
    exact ⟨s, e, .inl rfl, endLoad_rejected hl hu he⟩

theorem schLoadDone_fails (s : State) (l : Load) (hl : s.sch.load = some l) (h : l.undef = true ∨ (l.again = false ∧ l.readErr = true))
    (hb : BankRoles s) : Answers (exec .schLoadDone s) fun t =>
      t.presentBank = s.presentBank ∧ t.pastBank = s.pastBank ∧ t.futureBank.id = 0 ∧ t.sch.futState = .opened ∧ t.sch.load = none ∧
      t.sch.sticky.getLsbD 1 = true ∧ FrameBut [.sch, .perf, .mbx, .drawn, .glb] s t := by
  obtain ⟨u, hs, he⟩ := execSchLoadDone_ends s
  have hl' : u.sch.load = some l := by rcases hs with rfl | rfl <;> exact hl
  obtain ⟨v, e, hv, hr⟩ := endLoad_fails hl' h
  have hc : v.sch = s.sch ∧ FrameBut [.drawn, .glb] s v := by
    rcases hv with rfl | rfl <;> rcases hs with rfl | rfl
    · exact ⟨rfl, FrameBut.refl _ _⟩
    · exact ⟨rfl, frameBut_of_rest (by simp [State.dmaFailed])⟩
    · exact ⟨rfl, frameBut_of_rest (by simp)⟩
    · exact ⟨rfl, frameBut_of_rest (by simp [State.dmaFailed])⟩
  obtain ⟨hs, hfr⟩ := hc
  obtain ⟨hf, ⟨ho, hn⟩, hg⟩ := rejectLoad_spec (s := v) (l := l) (by rw [hs]; exact hl) e
  have hb' := (bankRoles_of_sch hs).mpr hb
  rw [hr] at he
  refine answers_event he ⟨(hf.presentBank hb').trans ?_, (hf.pastBank hb').trans ?_, congrArg Bank.id hf.futureBank, ho, hn, hg, ?_⟩
  · unfold State.presentBank
    rw [hs]
  · unfold State.pastBank
    rw [hs]
  · exact (hfr.mono (by simp)).trans (frameBut_done (by simp))

theorem dmaSReadError_rejects (s : State) (l : Load) (hl : s.sch.load = some l) (_ : s.sch.future < 3) : Answers (exec .dmaSReadError s) fun t =>
    t.futureBank.id = 0 ∧ t.sch.load = none ∧ t.sch.sticky.getLsbD 1 = true ∧ t.glb.dmaSticky = s.glb.dmaSticky ||| 1 ∧
    FrameBut [.glb, .sch, .perf, .mbx, .drawn] s t := by
  have he : execDmaSReadError s = done (s.dmaFailed.rejectLoad { reason := 2 }) := congrArg done (if_pos (by simp [hl]))
  obtain ⟨hf, ⟨-, hn⟩, hg⟩ := rejectLoad_spec (s := s.dmaFailed) hl { reason := 2 }
  have hfr : FrameBut [.sch, .perf, .mbx, .drawn] s.dmaFailed (s.dmaFailed.rejectLoad { reason := 2 }) := frameBut_of_rest (by simp)
  refine answers_event he ⟨congrArg Bank.id hf.futureBank, hn, hg, ?_, frameBut_done (by simp [State.dmaFailed])⟩
  rw [settle_dmaSticky]
  exact congrArg Glb.dmaSticky (hfr .glb (by decide))

/-! ### Copies and passes -/

theorem schCopyDone_copies (s : State) (b : Bank) (hc : s.sch.futState = .copying) (hn : s.sch.copySnap = some b)
    (ht : 8 ≤ since s.tick s.sch.passStart) (_ : s.sch.future < 3) : Answers (exec .schCopyDone s) fun t =>
      t.futureBank = b.emptied.1 ∧ t.sch.futState = .opened ∧ t.sch.copySnap = none ∧ FrameBut [.sch, .mem, .mbx] s t := by
  let u := (s.modSch fun c => { (c.modBank c.future fun _ => b.emptied.1) with
          futState := .opened, copySnap := none, opOrigin := none, checked := false }).modMem fun m => { m with
            mems := tmod {} (tmod {} m.mems (0x12 + s.sch.copyFrom) fun r => { r with ue := satAdd r.ue b.emptied.2.1 })
              (0x15 + s.sch.copyFrom) fun r => { r with ue := satAdd r.ue b.emptied.2.2 } }
  have hu : FutureWritten (fun _ => b.emptied.1) s u := futureWritten_of_sch rfl rfl rfl rfl rfl rfl
  have he : ∃ v, execSchCopyDone s = done v ∧ FrameBut [.mbx] u v := by
    simp only [execSchCopyDone, hc, hn, if_neg (Nat.not_lt.mpr ht)]
    cases s.sch.opOrigin with
    | none => exact ⟨u, rfl, FrameBut.refl _ u⟩
    | some o => exact ⟨_, rfl, frameBut_of_rest (State.complete_rest (by simp) _ _ _ _ _ u)⟩
  obtain ⟨v, he, hv⟩ := he
  have hs := hv .sch (by decide)
  have hw : FutureWritten (fun _ => b.emptied.1) s v := fun k => by rw [hs]; exact hu k
  refine answers_event he ⟨hw.futureBank, congrArg Sch.futState hs, congrArg Sch.copySnap hs, ?_⟩
  have hf : FrameBut [.sch, .mem] s u := frameBut_of_rest (by simp [u])
  exact ((hf.mono (by simp)).trans (hv.mono (by simp))).then_settle

theorem Sch.modBank_sticky (b : Nat) (f : Bank → Bank) (c : Sch) : (c.modBank b f).sticky = c.sticky := by
  unfold Sch.modBank
  repeat' split
  all_goals rfl

theorem Sch.modBank_chkFailCnt (b : Nat) (f : Bank → Bank) (c : Sch) : (c.modBank b f).chkFailCnt = c.chkFailCnt := by
  unfold Sch.modBank
  repeat' split
  all_goals rfl

/-- The failures of a pass over the Future bank: of the checker, of unreadable tables and of the validations (R143). -/
def State.passFailures (s : State) : Nat :=
  (runChecker s s.futureBank.corrected s.checkBypass).count + s.futureBank.corrected.tblBad.length + (validations s s.futureBank.corrected).length

/-- The schedule's block after a pass with `total` failures (R143). -/
def Sch.passEnd (fail : W32) (x0 : XFail) (total : Nat) (c : Sch) : Sch :=
  let c := { (c.flag 4) with chkFail := fail, chkFailCnt := satAdd 0 total, xFail := x0, opOrigin := none }
  if total = 0 then { (c.modBank c.future fun b => { b with useMask := b.streamUse }) with futState := .valid, checked := false }
  else { (c.flag 3) with futState := .opened, checked := true }

theorem passEnd_valid (fail : W32) (x0 : XFail) (c : Sch) : (c.passEnd fail x0 0).futState = .valid ∧ (c.passEnd fail x0 0).chkFailCnt = 0 ∧
    (c.passEnd fail x0 0).sticky.getLsbD 4 = true := by
  refine ⟨rfl, (Sch.modBank_chkFailCnt ..).trans (show (satAdd 0 0 : W32) = 0 by decide), ?_⟩
  exact (congrArg (BitVec.getLsbD · 4) (Sch.modBank_sticky ..)).trans (getLsbD_setBit_true_self _ (by decide))

theorem passEnd_failed (fail : W32) (x0 : XFail) {total : Nat} (h : total ≠ 0) (c : Sch) : (c.passEnd fail x0 total).futState = .opened ∧
    (c.passEnd fail x0 total).sticky.getLsbD 3 = true ∧ (c.passEnd fail x0 total).sticky.getLsbD 4 = true := by
  unfold Sch.passEnd
  rw [if_neg h]
  exact ⟨rfl, getLsbD_setBit_true_self _ (by decide), (getLsbD_setBit_ne _ (by decide) _).trans (getLsbD_setBit_true_self _ (by decide))⟩

/-- What the end of a pass leaves of the schedule's block, whether or not a command asked for it. -/
theorem endPass_sch (s : State) : ∃ c fail x0, s.endPass.sch = Sch.passEnd fail x0 s.passFailures c := by
  unfold State.endPass
  extract_lets fixed s1 b p x bad first total x0 fail cnt s2
  have ht : total = s.passFailures := by simp only [total, State.passFailures, p, bad, x, b]
  have key : s2.sch = Sch.passEnd fail x0 s.passFailures s1.sch := by
    rw [← ht]
    rfl
  refine ⟨s1.sch, fail, x0, Eq.trans ?_ key⟩
  clear_value s2 total fail cnt x0
  split
  · rfl
  · split
    · rw [State.complete_sch]
    · rw [State.complete_sch]

theorem execSchCheckDone_due {s : State} (hc : s.sch.futState = .checking) (ht : 8 ≤ since s.tick s.sch.passStart) :
    execSchCheckDone s = done s.endPass := congrArg done (if_pos (by simp [hc, ht]))

theorem schCheckDone_valid (s : State) (hc : s.sch.futState = .checking) (ht : 8 ≤ since s.tick s.sch.passStart)
    (hp : (runChecker s s.futureBank.corrected s.checkBypass).count = 0) (hb : s.futureBank.tblBad = [])
    (hv : validations s s.futureBank.corrected = []) : Answers (exec .schCheckDone s) fun t =>
      t.sch.futState = .valid ∧ t.sch.chkFailCnt = 0 ∧ t.sch.sticky.getLsbD 4 = true ∧ FrameBut [.sch, .mem, .mbx] s t := by
  have hz : s.passFailures = 0 := by
    have hb' : s.futureBank.corrected.tblBad = [] := hb
    unfold State.passFailures
    rw [hp, hb', hv]
    rfl
  obtain ⟨c, fail, x0, he⟩ := endPass_sch s
  obtain ⟨hf, hn, h4⟩ := passEnd_valid fail x0 c
  rw [← hz, ← he] at hf hn h4
  exact answers_event (execSchCheckDone_due hc ht) ⟨hf, hn, h4, frameBut_done (by simp)⟩

theorem schCheckDone_fails (s : State) (hc : s.sch.futState = .checking) (ht : 8 ≤ since s.tick s.sch.passStart)
    (hp : 0 < (runChecker s s.futureBank.corrected s.checkBypass).count) : Answers (exec .schCheckDone s) fun t =>
      t.sch.futState = .opened ∧ t.sch.sticky.getLsbD 3 = true ∧ t.sch.sticky.getLsbD 4 = true ∧ FrameBut [.sch, .mem, .mbx] s t := by
  have hz : s.passFailures ≠ 0 := by
    unfold State.passFailures
    omega
  obtain ⟨c, fail, x0, he⟩ := endPass_sch s
  obtain ⟨hf, h3, h4⟩ := passEnd_failed fail x0 hz c
  rw [← he] at hf h3 h4
  exact answers_event (execSchCheckDone_due hc ht) ⟨hf, h3, h4, frameBut_done (by simp)⟩

end Sys2Proof.Machine

open Sys2Proof Sys2Proof.Machine

/-- Settles O34: every end writes the Future bank alone, and a load reads nothing of the sticky bit that a read error sets. -/
theorem futureBankEnds : Obligations.FutureBankEnds := by
  unfold Obligations.FutureBankEnds
  exact ⟨schLoadDone_delivered, schLoadDone_again, schLoadDone_fails, dmaSReadError_rejects, schCopyDone_copies, schCheckDone_valid,
    schCheckDone_fails⟩

end

section
/-!
PROOFS. Scrub steps and march steps.
-/

namespace Sys2Proof.Machine

/-! ### Tables -/

theorem tfind_tmap {α β : Type} (f : Nat → α → β) (t : Tbl α) (k : Nat) : tfind (tmap f t) k = (tfind t k).map (f k) := by
  induction t with
  | nil => rfl
  | cons e t ih =>
    obtain ⟨i, v⟩ := e
    by_cases h : k = i
    · subst h
      simp [tfind, tmap]
    · have hb : (k == i) = false := beq_eq_false_iff_ne.mpr h
      simpa [tfind, tmap, List.lookup_cons, hb] using ih

/-- A property that a function keeps of each listed value holds of each value after it as of the one before. -/
theorem tget_tmap_keeps {α γ : Type} (g : α → γ) {f : Nat → α → α} (hf : ∀ n x, g (f n x) = g x) (d : α) (t : Tbl α) (k : Nat) :
    g (tget d (tmap f t) k) = g (tget d t k) := by
  unfold tget
  rw [tfind_tmap]
  cases tfind t k with
  | none => rfl
  | some x => exact hf k x

/-! ### Scrub steps (R373) -/

/-- A scrubber runs over every word of a memory of a started device but in Hold. -/
theorem scrubs_started {s : State} {m w : Nat} (hw : w < scrubWords m) (hm : m ≠ 0x18) (hh : s.glb.mode ≠ .hold) (hp : s.rst.phase = .started)
    (hd : s.rst.scanDirty = false) : s.scrubs m w = true := by
  simp [State.scrubs, hw, hh, hp, hd, hm]

/-- No word of a memory below the connection maps is known to be bad. -/
theorem knownBad_low {s : State} {m : Nat} (w : Nat) (hm : m < 0x12) : s.knownBad m w = false := by
  simp [State.knownBad, show ¬ 0x12 ≤ m by omega, show ¬ 0x15 ≤ m by omega]

/-- The bits that a scrub step of a low memory finds wrong are those of its mask: none, and it does nothing. -/
theorem execScrubStep_none {s : State} {m w : Nat} (hm : m < 0x12) (hs : s.scrubs m w = true) : execScrubStep m w 0 s = done s := by
  simp [execScrubStep, show ¬ 18 ≤ m by omega, hs, knownBad_low w hm, hm, show popc 72 0 = 0 by decide]

/-- One, and the word is corrected. -/
theorem execScrubStep_one {s : State} {m w : Nat} {mask : BitVec 72} (hm : m < 0x12) (hs : s.scrubs m w = true) (h1 : popc 72 mask.toNat = 1) :
    execScrubStep m w mask s = done (s.scrubCorrect m w) := by
  simp [execScrubStep, show ¬ 18 ≤ m by omega, hs, knownBad_low w hm, h1]

theorem scrubStep_good (s : State) (m w : Nat) (hm : m < 0x12) (hw : w < scrubWords m) (hh : s.glb.mode ≠ .hold) (hp : s.rst.phase = .started)
    (hd : s.rst.scanDirty = false) : Answers (exec (.scrubStep m w 0) s) fun t => FrameBut [] s t :=
  answers_event (execScrubStep_none hm (scrubs_started hw (by omega) hh hp hd)) (frameBut_done rfl)

theorem popc_one {b : Nat} (hb : b < 72) : popc 72 (BitVec.ofNat 72 (2 ^ b)).toNat = 1 := by
  have h : ∀ b < 72, popc 72 (BitVec.ofNat 72 (2 ^ b)).toNat = 1 := by decide +kernel
  exact h b hb

/-- The first correctable error of a memory is counted alone. -/
theorem scrubCorrect_first {s : State} {m : Nat} (w : Nat) (hm : m < 0x12) (hc : (s.memRun m).ces = []) :
    s.scrubCorrect m w = s.modMemRun m fun u => { u with ce := satAdd u.ce 1, ces := [(s.tick, w)] } := by
  have h12 : ¬ 0x12 ≤ m := by omega
  have hd : [s.tick].eraseDups.length = 1 := rfl
  simp only [State.scrubCorrect, State.memCorrect, hc, State.freshWord, h12, decide_false, Bool.false_and, Bool.false_eq_true, if_false,
    List.filter_nil, List.nil_append]
  simp [hd]

theorem modMemRun_same (m : Nat) (f : MemRun → MemRun) (s : State) : (s.modMemRun m f).memRun m = f (s.memRun m) := tget_tmod_same _ _ _ _

theorem modMemRun_ne {m k : Nat} (h : k ≠ m) (f : MemRun → MemRun) (s : State) : (s.modMemRun m f).memRun k = s.memRun k :=
  tget_tmod_ne _ _ h _

theorem scrubStep_correctable (s : State) (m w b : Nat) (hm : m < 0x12) (hb : b < 72) (hw : w < scrubWords m) (hh : s.glb.mode ≠ .hold)
    (hp : s.rst.phase = .started) (hd : s.rst.scanDirty = false) (hc : (s.memRun m).ces = []) :
    Answers (exec (.scrubStep m w (BitVec.ofNat 72 (2 ^ b))) s) fun t =>
      (t.memRun m).ce = satAdd (s.memRun m).ce 1 ∧ (∀ k, k ≠ m → t.memRun k = s.memRun k) ∧ FrameBut [.mem] s t := by
  have he := execScrubStep_one hm (scrubs_started hw (by omega) hh hp hd) (popc_one hb)
  rw [scrubCorrect_first w hm hc] at he
  exact answers_event he ⟨congrArg MemRun.ce (modMemRun_same m _ s), fun k hk => modMemRun_ne hk _ s, frameBut_done (by simp)⟩

/-! ### An uncorrectable error in the Present connection map (R373) -/

theorem bankError_present (b : Nat) (fail : W32) (s : State) : (s.bankError b fail).sch.present = s.sch.present := by
  have h : ∀ c : Sch, (if c.future = b && c.futState = .valid then { c with pendReopen := some (c.pendReopen.getD fail) }
      else if c.past = b then { c with pastValid := false } else c).present = c.present := by
    intro c
    repeat' split
    all_goals rfl
  unfold State.bankError
  dsimp only
  split
  · exact h s.sch
  · exact h s.sch

theorem startYield_sch (s : State) : s.startYield.sch = s.sch ∧ s.startYield.glb = s.glb := by
  unfold State.startYield
  split <;> exact ⟨rfl, rfl⟩

/-- An entry of a connection map that cannot be corrected. -/
def Bank.entryDead (w : Nat) (b : Bank) : Bank := { b with mapBad := tdel b.mapBad w, dead := addNew b.dead w }

/-- The entry becomes dead, SWITCH is raised, and a twin that leads starts to yield. -/
theorem scrubFail_present {s : State} {w : Nat} (hp : s.sch.present < 3) (mask : BitVec 72) :
    w ∈ (s.scrubFail (0x12 + s.sch.present) w mask).presentBank.dead ∧
    (s.scrubFail (0x12 + s.sch.present) w mask).memRun (0x12 + s.sch.present) = (s.memRun (0x12 + s.sch.present)).note false ∧
    (s.scrubFail (0x12 + s.sch.present) w mask).glb.intSticky.getLsbD 22 = true ∧
    FrameBut [.glb, .sch, .mem, .twin] s (s.scrubFail (0x12 + s.sch.present) w mask) := by
  generalize hq : s.sch.present = p at hp ⊢
  let u := s.modMemRun (0x12 + p) (MemRun.note false)
  let v := (u.modSch (Sch.modBank p fun b => if uncorrectable mask then { b with mapBad := tput 0 b.mapBad w mask } else b)).bankError p
    (BitVec.ofNat 32 (0xC0000000 + w * 128))
  have hv : v.sch.present = p := (bankError_present ..).trans ((Sch.modBank_present ..).trans hq)
  have he : s.scrubFail (0x12 + p) w mask = ((v.modSch (Sch.modBank p (Bank.entryDead w))).raise 22).startYield := by
    have h1 : ¬ 0x12 + p ≤ 0x01 := by omega
    have h2 : (0x06 ≤ 0x12 + p && 0x12 + p ≤ 0x09) = false := by simp; omega
    have h3 : (0x12 ≤ 0x12 + p && 0x12 + p ≤ 0x14) = true := by simp; omega
    simp only [State.scrubFail, h1, h2, h3, Nat.add_sub_cancel_left, if_false, Bool.false_eq_true, if_true]
    exact if_pos hv
  obtain ⟨hs, hg⟩ := startYield_sch ((v.modSch (Sch.modBank p (Bank.entryDead w))).raise 22)
  have hm : FrameBut [.glb, .sch, .twin] u (s.scrubFail (0x12 + p) w mask) := by
    rw [he]
    exact frameBut_of_rest (by simp [v])
  refine ⟨?_, ?_, ?_, ?_⟩
  · have hb : ((s.scrubFail (0x12 + p) w mask).presentBank) = (v.sch.bank p).entryDead w := by
      unfold State.presentBank
      rw [he, hs]
      show (v.sch.modBank p (Bank.entryDead w)).bank (v.sch.modBank p (Bank.entryDead w)).present = _
      rw [Sch.modBank_present, hv, Sch.modBank_bank_same]
    rw [hb]
    exact mem_addNew _ _
  · exact (congrArg (fun x : Mem => tget ({} : MemRun) x.mems (0x12 + p)) (hm .mem (by decide))).trans (modMemRun_same ..)
  · rw [he, hg]
    exact State.raise_intSticky_self (by decide) _
  · have hu : FrameBut [.mem] s u := frameBut_of_rest (by simp [u])
    exact (hu.mono (by simp)).trans (hm.mono (by simp))

theorem scrubStep_presentMap (s : State) (w : Nat) (hw : w < 2097152) (hr : s.sch.present < 3) (hh : s.glb.mode ≠ .hold)
    (hp : s.rst.phase = .started) (hd : s.rst.scanDirty = false) (hz : tget 0 s.presentBank.mapBad w = 0) :
    Answers (exec (.scrubStep (0x12 + s.sch.present) w 3) s) fun t =>
      w ∈ t.presentBank.dead ∧ (t.memRun (0x12 + s.sch.present)).ue = satAdd (s.memRun (0x12 + s.sch.present)).ue 1 ∧
      t.glb.intSticky.getLsbD 22 = true ∧ FrameBut [.glb, .sch, .mem, .twin] s t := by
  have hs : s.scrubs (0x12 + s.sch.present) w = true := by
    refine scrubs_started ?_ (by omega) hh hp hd
    have hn : scrubWords (0x12 + s.sch.present) = 2097152 := by
      have h : ∀ p < 3, scrubWords (0x12 + p) = 2097152 := by decide
      exact h _ hr
    omega
  have h3 : (0x12 ≤ 0x12 + s.sch.present && 0x12 + s.sch.present ≤ 0x14) = true := by simp; omega
  have hz' : tget 0 (s.sch.bank s.sch.present).mapBad w = 0 := hz
  have he : execScrubStep (0x12 + s.sch.present) w 3 s = done (s.scrubFail (0x12 + s.sch.present) w 3) := by
    simp only [execScrubStep, hs, h3, Nat.add_sub_cancel_left, hz', if_true, Bool.not_true, Bool.false_eq_true, if_false]
    split <;> rfl
  obtain ⟨h1, h2, h4, h5⟩ := scrubFail_present (w := w) hr 3
  refine answers_event he ⟨h1, congrArg MemRun.ue h2, ?_, h5.then_settle⟩
  rw [State.settle_intSticky]
  exact h4

/-! ### The background march (R375) -/

/-- A march of a row leaves the words of both halves. -/
theorem marchRow_halves (half row : Nat) (p : Pond) : (p.marchRow half row).h0 = p.h0 ∧ (p.marchRow half row).h1 = p.h1 := by
  unfold Pond.marchRow
  dsimp only
  split <;> exact ⟨rfl, rfl⟩

/-- The ponds after the background march of a row. -/
def Pnd.rowMarched (tested : List Nat) (half row : Nat) (x : Pnd) : Pnd :=
  { x with ponds := tmap (fun n (p : Pond) => if tested.contains n then p.marchRow half row else p) x.ponds }

theorem rowMarched_halves (tested : List Nat) (half row p : Nat) (s : State) :
    ((s.modPnd (Pnd.rowMarched tested half row)).pond p).h0 = (s.pond p).h0 ∧
    ((s.modPnd (Pnd.rowMarched tested half row)).pond p).h1 = (s.pond p).h1 := by
  have h (n : Nat) (x : Pond) : (if tested.contains n then x.marchRow half row else x).h0 = x.h0 ∧
      (if tested.contains n then x.marchRow half row else x).h1 = x.h1 := by
    split
    · exact marchRow_halves half row x
    · exact ⟨rfl, rfl⟩
  exact ⟨tget_tmap_keeps Pond.h0 (fun n x => (h n x).1) (pond0 p) s.pnd.ponds p,
    tget_tmap_keeps Pond.h1 (fun n x => (h n x).2) (pond0 p) s.pnd.ponds p⟩

theorem marchStep_clean (s : State) (row half : Nat) (hr : s.coreRuns = true) (hh : s.glb.mode ≠ .hold) (hm : marchRow s.glb.cfn = some (row, half)) :
    Answers (exec (.marchStep []) s) fun t =>
      t.perf = s.perf.count 603 s.marched.length ∧ (∀ p, (t.pond p).h0 = (s.pond p).h0 ∧ (t.pond p).h1 = (s.pond p).h1) ∧
      t.mem = s.mem.endRow row half ∧ FrameBut [.pnd, .perf, .mem] s t := by
  have he : execMarchStep [] s =
      done (((s.count 603 s.marched.length).modPnd (Pnd.rowMarched s.marched half row)).modMem (Mem.endRow row half)) := by
    have hc : (!s.coreRuns || s.glb.mode = .hold) = false := by simp [hr, hh]
    simp only [execMarchStep, State.cfn, hm]
    rw [if_neg (by simpa using hc)]
    rfl
  exact answers_event he ⟨rfl, fun p => rowMarched_halves _ _ _ p s, rfl, frameBut_done (by simp)⟩

/-! ### Requested marches (R379) -/

theorem freshMemory_pond (m p : Nat) (s : State) :
    ((s.freshMemory m).pond p).h0 = (s.pond p).h0 ∧ ((s.freshMemory m).pond p).h1 = (s.pond p).h1 := by
  unfold State.freshMemory
  split
  · exact ⟨rfl, rfl⟩
  split
  · exact ⟨rfl, rfl⟩
  split
  · by_cases h : p = m - 0x40
    · subst h
      rw [State.modPond_pond_same]
      exact ⟨rfl, rfl⟩
    · rw [State.modPond_pond_ne _ _ _ h]
      exact ⟨rfl, rfl⟩
  · exact ⟨rfl, rfl⟩

theorem freshMemory_bank (m k : Nat) (s : State) :
    (s.freshMemory m).sch.bank k = { s.sch.bank k with mapBad := ((s.freshMemory m).sch.bank k).mapBad } := by
  have hb (b : Nat) (c : Sch) (t : Bank → Tbl (BitVec 72)) : (c.modBank b fun x => { x with mapBad := t x }).bank k =
      { c.bank k with mapBad := ((c.modBank b fun x => { x with mapBad := t x }).bank k).mapBad } := by
    unfold Sch.modBank Sch.bank
    split_ifs <;> rfl
  unfold State.freshMemory
  split
  · exact hb _ s.sch _
  split
  · rfl
  split
  · rfl
  · rfl

theorem diagMarchDone_preserving (s : State) (r : MarchRun) (l : List MarchRun) (hm : s.mem.marches = r :: l) (hd : r.destr = false) :
    Answers (exec (.diagMarchDone []) s) fun t =>
      t.mem = { s.mem with marches := l } ∧ (∀ p, (t.pond p).h0 = (s.pond p).h0 ∧ (t.pond p).h1 = (s.pond p).h1) ∧
      (∀ k, t.sch.bank k = { s.sch.bank k with mapBad := (t.sch.bank k).mapBad }) ∧ FrameBut [.mem, .mbx, .sch, .pnd, .dp] s t := by
  have he : execDiagMarchDone [] s = done (((s.modMem fun x => { x with marches := l }).freshMemory r.memory).complete (r.mb, r.seq) 0x0B01 0 0
      (leBytes 4 0)) := by
    simp [execDiagMarchDone, hm, hd, State.noteMismatches, arraysOf]
  have hf : FrameBut [.sch, .pnd, .dp] (s.modMem fun x => { x with marches := l }) ((s.modMem fun x => { x with marches := l }).freshMemory r.memory) :=
    frameBut_of_rest (by simp)
  exact answers_event he ⟨hf .mem (by decide), fun p => freshMemory_pond r.memory p _, fun k => freshMemory_bank r.memory k _,
    frameBut_done (by simp)⟩

theorem onlyPond_modPond (n : Nat) (f : Pond → Pond) (s : State) : OnlyPond n s (s.modPond n f) :=
  fun k hk => State.modPond_pond_ne s n k hk f

theorem diagMarchDone_destructive (s : State) (r : MarchRun) (l : List MarchRun) (n : Nat) (hm : s.mem.marches = r :: l) (hd : r.destr = true)
    (hn : r.memory = 0x40 + n) : Answers (exec (.diagMarchDone []) s) fun t =>
      t.mem = { s.mem with marches := l } ∧ t.pond n = (s.pond n).wipe ∧ OnlyPond n s t ∧ FrameBut [.mem, .mbx, .pnd] s t := by
  have hz : ∀ u : State, u.marchZero (0x40 + n) = u.modPond n Pond.wipe := by
    intro u
    simp [State.marchZero, show ¬ 0x40 + n ≤ 3 by omega, show ¬ 64 + n ≤ 9 by omega, show ¬ 64 + n ≤ 13 by omega, show ¬ 64 + n ≤ 23 by omega,
      show ¬ 64 + n ≤ 47 by omega]
  have he : execDiagMarchDone [] s = done (((s.modMem fun x => { x with marches := l }).modPond n Pond.wipe).complete (r.mb, r.seq) 0x0B01 0 0
      (leBytes 4 0)) := by
    simp [execDiagMarchDone, hm, hd, hn, hz, State.noteMismatches]
  exact answers_event he ⟨rfl, State.modPond_pond_same .., onlyPond_modPond n Pond.wipe _, frameBut_done (by simp)⟩

end Sys2Proof.Machine

open Sys2Proof Sys2Proof.Machine

/-- Settles O35: a lemma for each kind of scrub step and march. -/
theorem memoryTests : Obligations.MemoryTests := by
  unfold Obligations.MemoryTests
  exact ⟨scrubStep_good, scrubStep_correctable, scrubStep_presentMap, marchStep_clean, diagMarchDone_preserving, diagMarchDone_destructive⟩

end

section
/-!
PROOFS. Permanent faults of ponds, the ends of repair marches, and armed flips.
-/

namespace Sys2Proof.Machine

theorem OnlyPond.trans {n : Nat} {s t u : State} (h : OnlyPond n s t) (h' : OnlyPond n t u) : OnlyPond n s u :=
  fun k hk => (h' k hk).trans (h k hk)

theorem OnlyPond.then_settle {n : Nat} {s t : State} (h : OnlyPond n s t) : OnlyPond n s t.settle := h

/-- Where the ponds are outside what was touched, each is as it was. -/
theorem FrameBut.pond {l : List Part} {s t : State} (h : FrameBut l s t) (hl : .pnd ∉ l) (n : Nat) : t.pond n = s.pond n :=
  congrArg (fun x : Pnd => tget (pond0 n) x.ponds n) (h .pnd hl)

/-! ### Permanent faults (R127, R128) -/

theorem noteFault_role (tick : Cfn) (p : Pond) : (p.noteFault tick).role = p.role ∧ (p.noteFault tick).retired = p.retired := by
  unfold Pond.noteFault
  split
  · split <;> exact ⟨rfl, rfl⟩
  · exact ⟨rfl, rfl⟩

/-- The choice of a spare reads the roles and retirements of the ponds, the moves and the marches. -/
theorem idleSpare_congr {s t : State} (hp : ∀ k, (t.pond k).role = (s.pond k).role ∧ (t.pond k).retired = (s.pond k).retired)
    (hm : t.pnd.moves = s.pnd.moves) (hx : t.mem = s.mem) : t.idleSpare = s.idleSpare := by
  unfold State.idleSpare State.pondMarched
  rw [hm, hx]
  congr 1
  funext k
  rw [(hp k).1, (hp k).2]

theorem pondPermanentFault_changesOver (s : State) (p n sp : Nat) (hf : (s.pond p).fault = true) (hn : s.pnd.logicalOf p = some n)
    (hs : s.idleSpare = some sp) (hd : s.pnd.moves.find? (·.dst = p) = none) (ha : s.pnd.moves.any (·.src = p) = false) :
    Answers (exec (.pondPermanentFault p) s) fun t =>
      t.pnd.moves = s.pnd.moves ++ [PondMove.of n p sp (cfnAdd s.tick 1) 0] ∧ t.pond p = { (s.pond p).noteFault s.tick with fault := false } ∧
      OnlyPond p s t ∧ FrameBut [.pnd, .cps, .mbx] s t := by
  let u := s.modPond p fun x => { x.noteFault s.tick with fault := false }
  let v := u.unitRecord 4 1 p 7 (u.pond p).events 0xFFFF
  have hv : FrameBut [.cps, .mbx] u v := frameBut_of_rest (by simp [v])
  have hp : ∀ k, (v.pond k).role = (s.pond k).role ∧ (v.pond k).retired = (s.pond k).retired := by
    intro k
    rw [hv.pond (by decide)]
    by_cases hk : k = p
    · subst hk
      rw [State.modPond_pond_same]
      exact noteFault_role s.tick (s.pond k)
    · rw [State.modPond_pond_ne _ _ _ hk]
      exact ⟨rfl, rfl⟩
  have hpn : v.pnd = u.pnd := hv .pnd (by decide)
  have hi : v.idleSpare = some sp := (idleSpare_congr hp ((congrArg Pnd.moves hpn).trans rfl) (hv .mem (by decide))).trans hs
  have ht : v.tick = s.tick := congrArg Glb.tick (hv .glb (by decide))
  have he : execPondPermanentFault p s = done (v.modPnd fun x => { x with moves := x.moves ++ [PondMove.of n p sp (cfnAdd s.tick 1) 0] }) := by
    have h1 : v.pnd.moves.find? (·.dst = p) = none := by rw [hpn]; exact hd
    have h2 : v.pnd.moves.any (·.src = p) = false := by rw [hpn]; exact ha
    have h3 : v.pnd.logicalOf p = some n := by rw [hpn]; exact hn
    have h4 : s.pondFault p = v.startChangeOver n p := by
      show (match v.pnd.moves.find? (·.dst = p) with
        | some m => v.abandonMove m
        | none => _) = _
      rw [h1]
      dsimp only
      rw [h2, h3]
      rfl
    unfold execPondPermanentFault
    rw [if_pos hf, h4]
    unfold State.startChangeOver
    rw [hi, ht]
  refine answers_event he ⟨?_, ?_, ?_, ?_⟩
  · show v.pnd.moves ++ _ = _
    rw [hpn]
    rfl
  · exact (hv.pond (by decide) p).trans (State.modPond_pond_same ..)
  · exact fun k hk => (hv.pond (by decide) k).trans (State.modPond_pond_ne s p k hk _)
  · exact frameBut_done (by simp [v, u])

/-! ### The end of a repair march (R382) -/

/-- The repair march of pond `p`, which is out of service, ends in this frame. -/
structure MarchEnds (s : State) (p : Nat) (a : Cfn) : Prop where
  marchAt : (s.pond p).marchAt = some a
  role : (s.pond p).role = 1
  forced : (s.pond p).forced = false
  retired : (s.pond p).retired = false
  repair : (s.pond p).repair = []
  after : cfnGe s.tick a = true
  long : 39 ≤ since s.tick a

/-- What the march found of pond `p` decides what follows it. -/
theorem execPondRepairMarchDone_ends {s : State} {p : Nat} {a : Cfn} {first second found : List Mismatch} (h : MarchEnds s p a)
    (hf : (if (s.pond p).again then second else first).filter (fun x => x.memory = 0x40 + p) = found) :
    execPondRepairMarchDone p first second s = done (
      let u := (s.modPond p Pond.wipe).noteMismatches found
      if found.isEmpty then u.startReturn p
      else if (s.pond p).again then ((u.pondFlag p 3).failAgain (0x40 + p) found).retirePond p
      else (u.pondFlag p 3).modPond p fun x => { x with repair := found }) := by
  obtain ⟨hm, hr, hc, hd, he, hg, hl⟩ := h
  have hz : ((s.pond p).role != 1 || (s.pond p).forced || (s.pond p).retired || !cfnGe s.tick a || decide (since s.tick a + 1 < pondMarchFrames) ||
      !(s.pond p).repair.isEmpty) = false := by
    have : ¬ since s.tick a + 1 < pondMarchFrames := by
      show ¬ since s.tick a + 1 < 40
      omega
    simp [hr, hc, hd, he, hg, this]
  simp only [execPondRepairMarchDone, hm, hf, hz, Bool.false_eq_true, if_false]

theorem marchDone_clean {s : State} {p : Nat} {a : Cfn} (h : MarchEnds s p a) :
    execPondRepairMarchDone p [] [] s = done ((s.modPond p Pond.wipe).startReturn p) :=
  execPondRepairMarchDone_ends (found := []) h (by split <;> rfl)

/-- A pond that a march left empty and ready for service. -/
def Pond.marchedClean (x : Pond) : Pond := { x.wipe with marchAt := none, again := false, forced := false }

theorem pondRepairMarchDone_home (s : State) (p : Nat) (a : Cfn) (hp : p < 128) (hm : (s.pond p).marchAt = some a) (hr : (s.pond p).role = 1)
    (hc : (s.pond p).forced = false) (hd : (s.pond p).retired = false) (he : (s.pond p).repair = [])
    (hv : s.pnd.moves.find? (fun m => m.logical = p && !m.abandon) = none) (hg : cfnGe s.tick a = true) (hl : 39 ≤ since s.tick a) :
    Answers (exec (.pondRepairMarchDone p [] []) s) fun t =>
      t.pnd.moves = s.pnd.moves ++ [PondMove.of p (s.pnd.phys p) p (cfnAdd s.tick 1) 1] ∧ (t.pond p).h0 = [] ∧ (t.pond p).h1 = [] ∧
      (t.pond p).marchAt = none ∧ OnlyPond p s t ∧ FrameBut [.pnd] s t := by
  let u := (s.modPond p Pond.wipe).modPond p fun x => { x with marchAt := none, again := false, forced := false }
  have hq : (s.modPond p Pond.wipe).startReturn p = u.modPnd (Pnd.returnHome s.tick p) := if_pos hp
  have hu : u.pond p = (s.pond p).marchedClean := by
    rw [State.modPond_pond_same, State.modPond_pond_same]
    rfl
  have hmv : (u.pnd.returnHome s.tick p).moves = s.pnd.moves ++ [PondMove.of p (s.pnd.phys p) p (cfnAdd s.tick 1) 1] := by
    have hv' : u.pnd.moves.find? (fun m => m.logical = p && !m.abandon) = none := hv
    unfold Pnd.returnHome
    rw [hv']
    rfl
  have hw := marchDone_clean ⟨hm, hr, hc, hd, he, hg, hl⟩
  rw [hq] at hw
  refine answers_event hw ⟨hmv, ?_, ?_, ?_, ?_, frameBut_done (by simp [u])⟩
  · exact congrArg Pond.h0 hu
  · exact congrArg Pond.h1 hu
  · exact congrArg Pond.marchAt hu
  · have h1 : OnlyPond p s u := (onlyPond_modPond p Pond.wipe s).trans (onlyPond_modPond p _ (s.modPond p Pond.wipe))
    have h2 : OnlyPond p u (u.modPnd (Pnd.returnHome s.tick p)) := fun _ _ => rfl
    exact (h1.trans h2).then_settle

theorem pondRepairMarchDone_spare (s : State) (p : Nat) (a : Cfn) (hp : 128 ≤ p) (_ : p < 132) (hm : (s.pond p).marchAt = some a)
    (hr : (s.pond p).role = 1) (hc : (s.pond p).forced = false) (hd : (s.pond p).retired = false) (he : (s.pond p).repair = [])
    (hg : cfnGe s.tick a = true) (hl : 39 ≤ since s.tick a) : Answers (exec (.pondRepairMarchDone p [] []) s) fun t =>
      (t.pond p).role = 2 ∧ (t.pond p).h0 = [] ∧ (t.pond p).marchAt = none ∧ OnlyPond p s t ∧ FrameBut [.pnd] s t := by
  let u := (s.modPond p Pond.wipe).modPond p fun x => { x with marchAt := none, again := false, forced := false }
  have hq : (s.modPond p Pond.wipe).startReturn p = u.modPond p fun x => { x with role := 2, logical := 0 } := if_neg (by omega)
  have hu : (u.modPond p fun x => { x with role := 2, logical := 0 }).pond p = { (s.pond p).marchedClean with role := 2, logical := 0 } := by
    rw [State.modPond_pond_same, State.modPond_pond_same, State.modPond_pond_same]
    rfl
  have hw := marchDone_clean ⟨hm, hr, hc, hd, he, hg, hl⟩
  rw [hq] at hw
  refine answers_event hw ⟨congrArg Pond.role hu, congrArg Pond.h0 hu, congrArg Pond.marchAt hu, ?_, frameBut_done (by simp [u])⟩
  exact (((onlyPond_modPond p _ s).trans (onlyPond_modPond p _ _)).trans (onlyPond_modPond p _ _)).then_settle

/-- A sticky bit of a pond is set, and the pond is else as it was. -/
theorem pondFlag_pond (p b : Nat) (hb : b < 4) (s : State) :
    ((s.pondFlag p b).pond p) = { s.pond p with sticky := ((s.pondFlag p b).pond p).sticky } ∧ ((s.pondFlag p b).pond p).sticky.getLsbD b = true ∧
    OnlyPond p s (s.pondFlag p b) := by
  unfold State.pondFlag
  split
  next h => exact ⟨rfl, h, fun _ _ => rfl⟩
  next h =>
    have hq : ((s.modPond p fun x => { x with sticky := setBit x.sticky b true }).raise 22).pond p = { s.pond p with sticky := setBit (s.pond p).sticky b true } :=
      State.modPond_pond_same ..
    rw [hq]
    exact ⟨rfl, getLsbD_setBit_true_self _ hb, onlyPond_modPond p _ s⟩

theorem noteMismatches_frame (l : List Mismatch) (s : State) : FrameBut [.mem] s (s.noteMismatches l) := frameBut_of_rest (by simp)

/-- A pond whose march found mismatches is wiped and flagged, and they are recorded. -/
def State.marchFound (p : Nat) (l : List Mismatch) (s : State) : State := ((s.modPond p Pond.wipe).noteMismatches l).pondFlag p 3

theorem marchFound_pond (p : Nat) (l : List Mismatch) (s : State) :
    ((s.marchFound p l).pond p).role = (s.pond p).role ∧ ((s.marchFound p l).pond p).retired = (s.pond p).retired ∧
    ((s.marchFound p l).pond p).sticky.getLsbD 3 = true ∧ OnlyPond p s (s.marchFound p l) := by
  obtain ⟨he, hb, ho⟩ := pondFlag_pond p 3 (by decide) ((s.modPond p Pond.wipe).noteMismatches l)
  have hf := noteMismatches_frame l (s.modPond p Pond.wipe)
  have hw : ((s.modPond p Pond.wipe).noteMismatches l).pond p = (s.pond p).wipe := (hf.pond (by decide) p).trans (State.modPond_pond_same ..)
  rw [hw] at he
  exact ⟨(congrArg Pond.role he).trans rfl, (congrArg Pond.retired he).trans rfl, hb,
    (OnlyPond.trans (onlyPond_modPond p Pond.wipe s) fun k _ => hf.pond (by decide) k).trans ho⟩

theorem pondRepairMarchDone_found (s : State) (p : Nat) (a : Cfn) (x : Mismatch) (_ : p < 132) (hm : (s.pond p).marchAt = some a)
    (hr : (s.pond p).role = 1) (hc : (s.pond p).forced = false) (hd : (s.pond p).retired = false) (he : (s.pond p).repair = [])
    (hg : cfnGe s.tick a = true) (hl : 39 ≤ since s.tick a) (hx : x.memory = 0x40 + p) (ha : (s.pond p).again = false) :
    Answers (exec (.pondRepairMarchDone p [x] []) s) fun t =>
      (t.pond p).repair = [x] ∧ (t.pond p).role = 1 ∧ (t.pond p).retired = false ∧ (t.pond p).sticky.getLsbD 3 = true ∧ OnlyPond p s t ∧
      FrameBut [.pnd, .mem, .glb] s t := by
  let u := s.marchFound p [x]
  have hw : execPondRepairMarchDone p [x] [] s = done (u.modPond p fun y => { y with repair := [x] }) := by
    rw [execPondRepairMarchDone_ends (found := [x]) ⟨hm, hr, hc, hd, he, hg, hl⟩ (by simp [ha, hx])]
    dsimp only
    rw [if_neg (by simp), if_neg (by simp [ha])]
    rfl
  obtain ⟨hrole, hret, hb, ho⟩ := marchFound_pond p [x] s
  have hy : (u.modPond p fun y => { y with repair := [x] }).pond p = { u.pond p with repair := [x] } := State.modPond_pond_same ..
  refine answers_event hw ⟨congrArg Pond.repair hy, ?_, ?_, (congrArg (fun y : Pond => y.sticky.getLsbD 3) hy).trans hb,
    (ho.trans (onlyPond_modPond p _ u)).then_settle, frameBut_done (by simp [u, State.marchFound])⟩
  · exact ((congrArg Pond.role hy).trans hrole).trans hr
  · exact ((congrArg Pond.retired hy).trans hret).trans hd

/-- An array that fails again is unrepairable. -/
theorem failAgain_one (m : Nat) (x : Mismatch) (hx : x.memory = m) (s : State) : s.failAgain m [x] = s.unrepairable m x.array x.row := by
  simp [State.failAgain, arraysOf, hx, List.eraseDups_cons]

theorem unrepairable_unrep (m arr n : Nat) (s : State) : ((s.unrepairable m arr n).memRun m).unrep = true := by
  let u := (s.modMemRun m fun u => { u with unrep := true }).modMem fun x => { x with worn := true }
  have hf : FrameBut [.mbx, .cps] u (s.unrepairable m arr n) := frameBut_of_rest (by simp [u, State.unrepairable, State.memRepair])
  have hm : (s.unrepairable m arr n).memRun m = u.memRun m := congrArg (fun x : Mem => tget ({} : MemRun) x.mems m) (hf .mem (by decide))
  rw [hm]
  exact congrArg MemRun.unrep (modMemRun_same m (fun u => { u with unrep := true }) s)

theorem pondRepairMarchDone_again (s : State) (p : Nat) (a : Cfn) (x : Mismatch) (_ : p < 132) (hm : (s.pond p).marchAt = some a)
    (hr : (s.pond p).role = 1) (hc : (s.pond p).forced = false) (hd : (s.pond p).retired = false) (he : (s.pond p).repair = [])
    (hg : cfnGe s.tick a = true) (hl : 39 ≤ since s.tick a) (hx : x.memory = 0x40 + p) (ha : (s.pond p).again = true) :
    Answers (exec (.pondRepairMarchDone p [] [x]) s) fun t =>
      (t.pond p).retired = true ∧ (t.pond p).role = 1 ∧ (t.memRun (0x40 + p)).unrep = true ∧ OnlyPond p s t ∧
      FrameBut [.pnd, .mem, .glb, .cps, .mbx] s t := by
  let u := s.marchFound p [x]
  let v := u.unrepairable (0x40 + p) x.array x.row
  let y := v.modPond p fun q => { q with retired := true, marchAt := none, again := false, repair := [] }
  have hw : execPondRepairMarchDone p [] [x] s = done (v.retirePond p) := by
    rw [execPondRepairMarchDone_ends (found := [x]) ⟨hm, hr, hc, hd, he, hg, hl⟩ (by simp [ha, hx])]
    dsimp only
    rw [if_neg (by simp), if_pos ha, failAgain_one _ _ hx]
    rfl
  obtain ⟨hrole, -, -, ho⟩ := marchFound_pond p [x] s
  have hv : FrameBut [.mbx, .cps, .mem] u v := frameBut_of_rest (by simp [v])
  have hz : FrameBut [.mbx, .cps] y (v.retirePond p) := frameBut_of_rest (State.unitRecord_rest (by simp) _ _ _ _ _ _ y)
  have hp : (v.retirePond p).pond p = { u.pond p with retired := true, marchAt := none, again := false, repair := [] } := by
    rw [hz.pond (by decide) p, State.modPond_pond_same, hv.pond (by decide) p]
  have hmem : (v.retirePond p).mem = v.mem := hz .mem (by decide)
  refine answers_event hw ⟨congrArg Pond.retired hp, ?_, ?_, ?_, frameBut_done (by simp [v, u, State.marchFound])⟩
  · exact ((congrArg Pond.role hp).trans hrole).trans hr
  · have : (v.retirePond p).settle.memRun (0x40 + p) = v.memRun (0x40 + p) := congrArg (fun x : Mem => tget ({} : MemRun) x.mems (0x40 + p)) hmem
    rw [this]
    exact unrepairable_unrep ..
  · have h1 : OnlyPond p u v := fun k _ => hv.pond (by decide) k
    have h2 : OnlyPond p v y := onlyPond_modPond p _ v
    have h3 : OnlyPond p y (v.retirePond p) := fun k _ => hz.pond (by decide) k
    exact (((ho.trans h1).trans h2).trans h3).then_settle

/-! ### Armed flips (R452) -/

theorem pondFlip_flips (s : State) (hv : s.pert.pond.getLsbD 31 = true) (h30 : s.pert.pond.getLsbD 30 = false) (hr : s.glb.released = true)
    (hc : s.glb.cfn = s.pert.pondCfn) (hp : fld s.pert.pond.toNat 21 8 < 132) (hb : fld s.pert.pond.toNat 0 7 < 72) :
    Answers (exec .pondFlip s) fun t =>
      t.pert.pond.getLsbD 31 = false ∧ OnlyPond (fld s.pert.pond.toNat 21 8) s t ∧ FrameBut [.pnd, .perf, .pert] s t ∧
      ∀ k, tget 0 (t.pond (fld s.pert.pond.toNat 21 8)).bad k = tget 0 (s.pond (fld s.pert.pond.toNat 21 8)).bad k ^^^
        (if k = (s.glb.cfn.toNat + 1) % 2 * 16384 + fld s.pert.pond.toNat 7 14 then BitVec.ofNat 72 (2 ^ fld s.pert.pond.toNat 0 7) else 0) := by
  generalize hph : fld s.pert.pond.toNat 21 8 = ph at hp ⊢
  generalize hbt : fld s.pert.pond.toNat 0 7 = bt at hb ⊢
  generalize hk : (s.glb.cfn.toNat + 1) % 2 * 16384 + fld s.pert.pond.toNat 7 14 = w
  have h31' : bitOf s.pert.pond.toNat 31 = true := hv
  have h30' : bitOf s.pert.pond.toNat 30 = false := h30
  have he : execPondFlip s = done (((s.modPert fun p => { p with pond := setBit p.pond 31 false }).modPond ph fun p => { p with
      bad := tmod 0 p.bad w (· ^^^ BitVec.ofNat 72 (2 ^ bt)) }).count 743 1) := by
    simp only [execPondFlip, h31', h30', hr, State.cfn, hc.symm, hph, hbt, hk, Nat.mod_eq_of_lt hb, bne_self_eq_false, Bool.not_true, Bool.or_self,
      Bool.false_eq_true, if_false, if_pos hp, Nat.add_zero]
  refine answers_event he ⟨getLsbD_setBit_false_self _ _, onlyPond_modPond ph _ _, frameBut_done (by simp), fun k => ?_⟩
  have hq : (((s.modPert fun p => { p with pond := setBit p.pond 31 false }).modPond ph fun p => { p with
      bad := tmod 0 p.bad w (· ^^^ BitVec.ofNat 72 (2 ^ bt)) }).pond ph).bad = tmod 0 (s.pond ph).bad w (· ^^^ BitVec.ofNat 72 (2 ^ bt)) :=
    congrArg Pond.bad (State.modPond_pond_same ..)
  refine (congrArg (fun x : Tbl (BitVec 72) => tget 0 x k) hq).trans ?_
  by_cases h : k = w
  · subst h
    rw [if_pos rfl]
    exact tget_tmod_same _ _ _ _
  · rw [if_neg h]
    exact (tget_tmod_ne _ _ h _).trans (BitVec.xor_zero).symm

end Sys2Proof.Machine

open Sys2Proof Sys2Proof.Machine

/-- Settles O36: a lemma for the fault, for each end of a repair march and for the flip. -/
theorem pondEvents : Obligations.PondEvents := by
  unfold Obligations.PondEvents
  exact ⟨pondPermanentFault_changesOver, pondRepairMarchDone_home, pondRepairMarchDone_spare, pondRepairMarchDone_found,
    pondRepairMarchDone_again, pondFlip_flips⟩

end

section
/-!
PROOFS. The maintenance port of the ponds.
-/

namespace Sys2Proof.Machine

/-! ### The words of a pond -/

theorem setWord_base (half col : Nat) (v : W64) (p : Pond) (h : Nat) : (p.setWord half col v).base h = p.base h := by
  unfold Pond.setWord Pond.base
  dsimp only
  split_ifs <;> rfl

/-- A word that is set reads as it was set. -/
theorem setWord_raw_same (half col : Nat) (v : W64) (p : Pond) : (p.setWord half col v).raw half col = v := by
  have hc : tget 0 ((p.setWord half col v).cells half) col = v ^^^ maskWord (p.base half) col := by
    unfold Pond.setWord Pond.cells
    by_cases h : half = 0
    · simp only [h, if_true]
      exact tget_tput_same _ _ _ _
    · simp only [h, if_false]
      exact tget_tput_same _ _ _ _
  unfold Pond.raw
  rw [hc, setWord_base, BitVec.xor_assoc, BitVec.xor_self, BitVec.xor_zero]

/-- Every other word of the two halves stays. -/
theorem setWord_raw_other {half col h k : Nat} (v : W64) (p : Pond) (hh : half < 2) (hk : h < 2) (hn : h ≠ half ∨ k ≠ col) :
    (p.setWord half col v).raw h k = p.raw h k := by
  have hc : tget 0 ((p.setWord half col v).cells h) k = tget 0 (p.cells h) k := by
    unfold Pond.setWord Pond.cells
    by_cases h0 : half = 0
    · by_cases h1 : h = 0
      · have : k ≠ col := by omega
        simp only [h0, h1, if_true]
        exact tget_tput_ne _ _ _ this _
      · simp only [h0, h1, if_true, if_false]
    · by_cases h1 : h = 0
      · simp only [h0, h1, if_true, if_false]
      · have : k ≠ col := by omega
        simp only [h0, h1, if_false]
        exact tget_tput_ne _ _ _ this _
  unfold Pond.raw
  rw [hc, setWord_base]

theorem replace_raw (half col cycle : Nat) (v : W64) (p : Pond) (h k : Nat) :
    (p.replace half col cycle v).raw h k = (p.setWord half col v).raw h k := rfl

theorem b2n_lt_two (b : Bool) : b2n b < 2 := by cases b <;> decide

/-! ### START -/

/-- The pond after the fields of `POND.MAINT_CTRL` are written. -/
def State.maintField (p : Nat) (v : W32) (s : State) : State := s.modPond p (Pond.ctrl v.toNat)

theorem maintField_pond (p : Nat) (v : W32) (s : State) : (s.maintField p v).pond p = (s.pond p).ctrl v.toNat := State.modPond_pond_same ..

theorem maintField_only (p : Nat) (v : W32) (s : State) : OnlyPond p s (s.maintField p v) := onlyPond_modPond p _ s

theorem maintField_portWrites (p : Nat) (v : W32) (s : State) (n : Nat) : (s.maintField p v).portWrites n = s.portWrites n := rfl

/-- START with an operation acts at D2 and D3 (R133). -/
theorem maintCtrl_started {s : State} {p : Nat} {v : W32} (c : Nat) (hp : p < 132) (hs : v.getLsbD 28 = true)
    (ho : fld v.toNat 29 2 = 1 ∨ fld v.toNat 29 2 = 2) : s.maintCtrl p v.toNat c =
      if s.rst.dbgLevel.toNat < 2 then (s.maintField p v).denyMaint p
      else if fld v.toNat 29 2 = 1 then (s.maintField p v).maintRead p c else (s.maintField p v).maintWrite p c := by
  have h28 : bitOf v.toNat 28 = true := hs
  have hz : (!bitOf v.toNat 28 || decide (fld v.toNat 29 2 = 0) || decide (fld v.toNat 29 2 = 3)) = false := by
    rcases ho with ho | ho <;> simp [h28, ho]
  unfold State.maintCtrl
  rw [if_neg (by omega)]
  dsimp only
  rw [if_neg (by rw [hz]; decide)]
  rfl

/-- START below D2 is denied, which is an interrupt the first time (R132, R133). -/
theorem denyMaint_denies (p : Nat) (s : State) : ((s.denyMaint p).pond p) = { s.pond p with deny := true } ∧
    ((s.pond p).deny = false → (s.denyMaint p).glb.intSticky.getLsbD 22 = true) ∧ OnlyPond p s (s.denyMaint p) ∧
    FrameBut [.pnd, .glb] s (s.denyMaint p) := by
  unfold State.denyMaint
  split
  next h =>
    refine ⟨?_, fun hn => absurd h (by simp [hn]), fun _ _ => rfl, FrameBut.refl _ s⟩
    rw [← h]
  next h =>
    exact ⟨State.modPond_pond_same .., fun _ => State.raise_intSticky_self (by decide) _, onlyPond_modPond p _ s, frameBut_of_rest (by simp)⟩

theorem pondMaintRead_denied (s : State) (p : Nat) (v : W32) (c : Nat) (hp : p < 132) (hs : v.getLsbD 28 = true) (ho : fld v.toNat 29 2 = 1)
    (hd : s.rst.dbgLevel.toNat < 2) : Answers (exec (.pondMaintRead p v c) s) fun t =>
      (t.pond p).deny = true ∧ ((s.pond p).deny = false → t.glb.intSticky.getLsbD 22 = true) ∧ (t.pond p).data = (s.pond p).data ∧ OnlyPond p s t ∧
      FrameBut [.pnd, .glb] s t := by
  have he : execPondMaintRead p v c s = done ((s.maintField p v).denyMaint p) :=
    congrArg done ((maintCtrl_started c hp hs (.inl ho)).trans (if_pos hd))
  obtain ⟨hq, hi, hn, hf⟩ := denyMaint_denies p (s.maintField p v)
  rw [maintField_pond] at hq hi
  have hm : FrameBut [.pnd] s (s.maintField p v) := frameBut_of_rest (by simp [State.maintField])
  refine answers_event he ⟨(congrArg Pond.deny hq).trans rfl, fun h => ?_, (congrArg Pond.data hq).trans rfl,
    ((maintField_only p v s).trans hn).then_settle, ((hm.mono (by simp)).trans hf).then_settle⟩
  rw [State.settle_intSticky]
  exact hi h

/-! ### Reads (R109, R133) -/

/-- Beside the write port a read of a good word takes it, or any word where a scrub column is read. -/
theorem maintRead_word {s : State} {p c : Nat} (hw : s.portWrites p = false) (he : (s.pond p).err (b2n (s.pond p).half) (s.pond p).col = 0) :
    s.maintRead p c = if 16256 ≤ (s.pond p).col && (s.pond p).col < 16320
      then (s.draw 64).2.modPond p fun q => { q with data := (s.draw 64).1 }
      else s.modPond p fun q => { q with data := (s.pond p).raw (b2n (s.pond p).half) (s.pond p).col } := by
  have hr : (s.pond p).read (b2n (s.pond p).half) (s.pond p).col = (s.pond p).raw (b2n (s.pond p).half) (s.pond p).col :=
    if_neg (by rw [he]; decide)
  simp only [State.maintRead, hw, Bool.false_and, Bool.false_eq_true, if_false, he, State.pondError, if_true, hr]
  simp

theorem execPondMaintRead_started {s : State} {p c : Nat} {v : W32} (hp : p < 132) (hs : v.getLsbD 28 = true) (ho : fld v.toNat 29 2 = 1)
    (hd : 2 ≤ s.rst.dbgLevel.toNat) : execPondMaintRead p v c s = done ((s.maintField p v).maintRead p c) :=
  congrArg done ((maintCtrl_started c hp hs (.inl ho)).trans ((if_neg (by omega)).trans (if_pos ho)))

theorem pondMaintRead_word (s : State) (p : Nat) (v : W32) (c : Nat) (hp : p < 132) (hs : v.getLsbD 28 = true) (ho : fld v.toNat 29 2 = 1)
    (hd : 2 ≤ s.rst.dbgLevel.toNat) (hw : s.portWrites p = false) (he : (s.pond p).err (b2n (v.getLsbD 14)) (fld v.toNat 0 14) = 0)
    (hc : fld v.toNat 0 14 < 16256 ∨ 16320 ≤ fld v.toNat 0 14) : Answers (exec (.pondMaintRead p v c) s) fun t =>
      (t.pond p).data = (s.pond p).raw (b2n (v.getLsbD 14)) (fld v.toNat 0 14) ∧ (t.pond p).h0 = (s.pond p).h0 ∧ (t.pond p).h1 = (s.pond p).h1 ∧
      OnlyPond p s t ∧ FrameBut [.pnd] s t := by
  have hq := maintField_pond p v s
  have hx := execPondMaintRead_started (c := c) hp hs ho hd
  rw [maintRead_word (s := s.maintField p v) hw (by rw [hq]; exact he), hq] at hx
  have hn : (16256 ≤ ((s.pond p).ctrl v.toNat).col && ((s.pond p).ctrl v.toNat).col < 16320) = false := by
    show (16256 ≤ fld v.toNat 0 14 && fld v.toNat 0 14 < 16320) = false
    simp
    omega
  rw [if_neg (by rw [hn]; decide)] at hx
  have hy := State.modPond_pond_same (s := s.maintField p v) p fun q => { q with data := ((s.pond p).ctrl v.toNat).raw (b2n ((s.pond p).ctrl v.toNat).half) ((s.pond p).ctrl v.toNat).col }
  rw [hq] at hy
  exact answers_event hx ⟨(congrArg Pond.data hy).trans rfl, (congrArg Pond.h0 hy).trans rfl, (congrArg Pond.h1 hy).trans rfl,
    ((maintField_only p v s).trans (onlyPond_modPond p _ _)).then_settle, frameBut_done (by simp [State.maintField])⟩

/-- A scrub column reads as any word (R41). -/
theorem pondMaintRead_scrub (s : State) (p : Nat) (v : W32) (c : Nat) (hp : p < 132) (hs : v.getLsbD 28 = true) (ho : fld v.toNat 29 2 = 1)
    (hd : 2 ≤ s.rst.dbgLevel.toNat) (hw : s.portWrites p = false) (he : (s.pond p).err (b2n (v.getLsbD 14)) (fld v.toNat 0 14) = 0)
    (hl : 16256 ≤ fld v.toNat 0 14) (hh : fld v.toNat 0 14 < 16320) : Answers (exec (.pondMaintRead p v c) s) fun t =>
      (t.pond p).h0 = (s.pond p).h0 ∧ (t.pond p).h1 = (s.pond p).h1 ∧ OnlyPond p s t ∧ FrameBut [.pnd, .drawn] s t := by
  let u := s.maintField p v
  have hq := maintField_pond p v s
  have hx := execPondMaintRead_started (c := c) hp hs ho hd
  rw [maintRead_word (s := s.maintField p v) hw (by rw [hq]; exact he), hq] at hx
  have hn : (16256 ≤ ((s.pond p).ctrl v.toNat).col && ((s.pond p).ctrl v.toNat).col < 16320) = true := by
    show (16256 ≤ fld v.toNat 0 14 && fld v.toNat 0 14 < 16320) = true
    simp [hl, hh]
  rw [if_pos hn] at hx
  have hy : ((u.draw 64).2.modPond p fun q => { q with data := (u.draw 64).1 }).pond p = { u.pond p with data := (u.draw 64).1 } :=
    State.modPond_pond_same ..
  rw [show u.pond p = _ from hq] at hy
  have hk : OnlyPond p u ((u.draw 64).2.modPond p fun q => { q with data := (u.draw 64).1 }) := onlyPond_modPond p _ _
  exact answers_event hx ⟨(congrArg Pond.h0 hy).trans rfl, (congrArg Pond.h1 hy).trans rfl, ((maintField_only p v s).trans hk).then_settle,
    frameBut_done (by simp [State.maintField])⟩

/-! ### Writes (R109, R133) -/

theorem execPondMaintWrite_started {s : State} {p c : Nat} {v : W32} (hp : p < 132) (hs : v.getLsbD 28 = true) (ho : fld v.toNat 29 2 = 2)
    (hd : 2 ≤ s.rst.dbgLevel.toNat) : execPondMaintWrite p v c s = done ((s.maintField p v).maintWrite p c) :=
  congrArg done ((maintCtrl_started c hp hs (.inr ho)).trans ((if_neg (by omega)).trans (if_neg (by omega))))

/-- Beside the write port a write stores MAINT_DATA into the column, whichever half the crossbar reads. -/
theorem maintWrite_stores {s : State} {p c : Nat} (hw : s.portWrites p = false) :
    (∃ f : Pond → Pond, s.maintWrite p c = s.modPond p f ∧
      ∀ x h k, (f x).raw h k = (x.setWord (b2n (s.pond p).half) (s.pond p).col (s.pond p).data).raw h k) := by
  simp only [State.maintWrite, hw, Bool.false_and, Bool.false_eq_true, if_false]
  split
  · exact ⟨_, rfl, fun _ _ _ => rfl⟩
  · exact ⟨_, rfl, fun _ _ _ => rfl⟩

theorem pondMaintWrite_stores (s : State) (p : Nat) (v : W32) (c : Nat) (hp : p < 132) (hs : v.getLsbD 28 = true) (ho : fld v.toNat 29 2 = 2)
    (hd : 2 ≤ s.rst.dbgLevel.toNat) (hw : s.portWrites p = false) : Answers (exec (.pondMaintWrite p v c) s) fun t =>
      (t.pond p).raw (b2n (v.getLsbD 14)) (fld v.toNat 0 14) = (s.pond p).data ∧
      (∀ h k, h < 2 → h ≠ b2n (v.getLsbD 14) ∨ k ≠ fld v.toNat 0 14 → (t.pond p).raw h k = (s.pond p).raw h k) ∧
      OnlyPond p s t ∧ FrameBut [.pnd] s t := by
  have hx := execPondMaintWrite_started (c := c) hp hs ho hd
  obtain ⟨f, hf, hr⟩ := maintWrite_stores (s := s.maintField p v) (c := c) hw
  have hy : ((s.maintField p v).modPond p f).pond p = f ((s.pond p).ctrl v.toNat) := by
    rw [State.modPond_pond_same, maintField_pond]
  rw [hf] at hx
  rw [maintField_pond] at hr
  refine answers_event hx ⟨?_, fun h k hh hn => ?_, ((maintField_only p v s).trans (onlyPond_modPond p f _)).then_settle,
    frameBut_done (by simp [State.maintField])⟩
  · rw [settle_pond, hy, hr]
    exact setWord_raw_same ..
  · rw [settle_pond, hy, hr]
    exact setWord_raw_other _ _ (b2n_lt_two _) hh hn

theorem pondMaintWrite_lost (s : State) (p : Nat) (v : W32) (hp : p < 132) (hs : v.getLsbD 28 = true) (ho : fld v.toNat 29 2 = 2)
    (hd : 2 ≤ s.rst.dbgLevel.toNat) (hw : s.portWrites p = true) (hh : b2n (v.getLsbD 14) = s.fillHalf) :
    Answers (exec (.pondMaintWrite p v (fld v.toNat 0 14)) s) fun t =>
      (t.pond p).lost = true ∧ (t.pond p).collCnt = satAdd (s.pond p).collCnt 1 ∧ (t.pond p).sticky.getLsbD 0 = true ∧
      (t.pond p).h0 = (s.pond p).h0 ∧ (t.pond p).h1 = (s.pond p).h1 ∧ OnlyPond p s t ∧ FrameBut [.pnd, .perf, .glb] s t := by
  let u := s.maintField p v
  let y := u.modPond p fun q => { q with lost := true, collCnt := satAdd q.collCnt 1 }
  have hq : u.pond p = (s.pond p).ctrl v.toNat := maintField_pond p v s
  have hx : execPondMaintWrite p v (fld v.toNat 0 14) s = done ((y.pondFlag p 0).count 602 1) := by
    rw [execPondMaintWrite_started hp hs ho hd]
    have h1 : u.portWrites p = true := hw
    have h2 : b2n (u.pond p).half = u.fillHalf := by rw [hq]; exact hh
    have h3 : (u.pond p).col = fld v.toNat 0 14 := by rw [hq]; rfl
    have h4 : u.maintWrite p (fld v.toNat 0 14) = (y.pondFlag p 0).count 602 1 := by
      simp only [State.maintWrite, h1, h2, h3, Bool.true_and, decide_true, if_true]
      rfl
    exact congrArg done h4
  have hy : y.pond p = { (s.pond p).ctrl v.toNat with lost := true, collCnt := satAdd (s.pond p).collCnt 1 } := by
    rw [State.modPond_pond_same, hq]
    rfl
  obtain ⟨hz, hb, hn⟩ := pondFlag_pond p 0 (by decide) y
  rw [hy] at hz
  refine answers_event hx ⟨(congrArg Pond.lost hz).trans rfl, (congrArg Pond.collCnt hz).trans rfl, hb, (congrArg Pond.h0 hz).trans rfl,
    (congrArg Pond.h1 hz).trans rfl, ?_, frameBut_done (by simp [y, u, State.maintField])⟩
  have hk : OnlyPond p u y := onlyPond_modPond p _ u
  have hl : OnlyPond p (y.pondFlag p 0) ((y.pondFlag p 0).count 602 1) := fun _ _ => rfl
  exact ((((maintField_only p v s).trans hk).trans hn).trans hl).then_settle

end Sys2Proof.Machine

open Sys2Proof Sys2Proof.Machine

/-- Settles O37: START below D2, and a read and a write beside and under the write port. -/
theorem maintenancePort : Obligations.MaintenancePort := by
  unfold Obligations.MaintenancePort
  exact ⟨pondMaintRead_denied, pondMaintRead_word, pondMaintRead_scrub, pondMaintWrite_stores, pondMaintWrite_lost⟩

end

section
/-!
PROOFS. Fault events and self-tests of engines, and the records of the harvest ring.
-/

namespace Sys2Proof.Machine

/-! ### Engines -/

theorem Eng.modRun_run_same (e : Nat) (f : EngRun → EngRun) (x : Eng) : (x.modRun e f).run e = f (x.run e) := tget_tmod_same _ _ _ _

theorem Eng.modRun_run_ne {e k : Nat} (h : k ≠ e) (f : EngRun → EngRun) (x : Eng) : (x.modRun e f).run k = x.run k := tget_tmod_ne _ _ h _

/-- A fault event of an engine in service (R216). -/
def EngRun.noteFault (tick : Cfn) (cause : Nat) (r : EngRun) : EngRun :=
  { r with
    events := r.events + 1, window := some (r.window.getD tick), cause := cause, faulted := r.state = .inService, testBad := r.state = .selfTest }

theorem engineFault_inService {s : State} {e c : Nat} (he : e < 1024) (h1 : 1 ≤ c) (h5 : c ≤ 5) (hr : s.glb.released = true)
    (hs : (s.eng.run e).state = .inService) (hf : (s.eng.run e).faulted = false) :
    s.engineFault e c = ((s.modEng (Eng.modRun e (EngRun.noteFault s.tick c))).count (544 + e / 256) 1).count (552 + e / 256) 1 := by
  have hz : (decide (1024 ≤ e) || decide (c = 0) || decide (5 < c) || !s.glb.released || (s.eng.run e).faulted ||
      ((s.eng.run e).state != .inService && (s.eng.run e).state != .selfTest)) = false := by
    simp [hr, hs, hf, show ¬ 1024 ≤ e by omega, show ¬ 5 < c by omega, show ¬ c = 0 by omega]
  unfold State.engineFault
  dsimp only
  rw [hz, if_neg (by decide), if_pos hs]
  rfl

/-- The memory of an engine's island whose error is a fault event of the engine. -/
def State.engineErrorNoted (e c : Nat) (s : State) : State := if c = 4 && e < 1024 then s.modMemRun (6 + e / 256) (MemRun.note false) else s

theorem engineErrorNoted_mem {e : Nat} (c : Nat) (he : e < 1024) (s : State) : (c ≠ 4 → (s.engineErrorNoted e c).mem = s.mem) ∧
    (c = 4 → ((s.engineErrorNoted e c).memRun (6 + e / 256)).ue = satAdd (s.memRun (6 + e / 256)).ue 1) ∧
    (s.engineErrorNoted e c).eng = s.eng ∧ (s.engineErrorNoted e c).glb = s.glb ∧ FrameBut [.mem] s (s.engineErrorNoted e c) := by
  unfold State.engineErrorNoted
  by_cases hc : c = 4
  · rw [if_pos (by simp [hc, he])]
    exact ⟨fun h => absurd hc h, fun _ => congrArg MemRun.ue (modMemRun_same ..), rfl, rfl, frameBut_of_rest (by simp)⟩
  · rw [if_neg (by simp [hc])]
    exact ⟨fun _ => rfl, fun h => absurd h hc, rfl, rfl, FrameBut.refl _ s⟩

theorem engineFaultEvent_waits (s : State) (e c : Nat) (he : e < 1024) (h1 : 1 ≤ c) (h5 : c ≤ 5) (hr : s.glb.released = true)
    (hs : (s.eng.run e).state = .inService) (hf : (s.eng.run e).faulted = false) : Answers (exec (.engineFaultEvent e c) s) fun t =>
      (t.eng.run e).faulted = true ∧ (t.eng.run e).events = (s.eng.run e).events + 1 ∧ (t.eng.run e).cause = c ∧ (t.eng.run e).state = .inService ∧
      (∀ k, k ≠ e → t.eng.run k = s.eng.run k) ∧ (c ≠ 4 → t.mem = s.mem) ∧
      (c = 4 → (t.memRun (6 + e / 256)).ue = satAdd (s.memRun (6 + e / 256)).ue 1) ∧ FrameBut [.eng, .perf, .mem] s t := by
  let u := s.engineErrorNoted e c
  obtain ⟨hm, hm4, hue, hug, huf⟩ := engineErrorNoted_mem c he s
  have hu : u.engineFault e c = ((u.modEng (Eng.modRun e (EngRun.noteFault u.tick c))).count (544 + e / 256) 1).count (552 + e / 256) 1 :=
    engineFault_inService he h1 h5 (by rw [hug]; exact hr) (by rw [hue]; exact hs) (by rw [hue]; exact hf)
  have hx : execEngineFaultEvent e c s =
      done (((u.modEng (Eng.modRun e (EngRun.noteFault u.tick c))).count (544 + e / 256) 1).count (552 + e / 256) 1) := congrArg done hu
  have hq : (u.eng.modRun e (EngRun.noteFault u.tick c)).run e = (s.eng.run e).noteFault u.tick c := by
    rw [Eng.modRun_run_same, hue]
  have hfl : ((s.eng.run e).noteFault u.tick c).faulted = true := decide_eq_true hs
  refine answers_event hx ⟨(congrArg EngRun.faulted hq).trans hfl, congrArg EngRun.events hq, congrArg EngRun.cause hq,
    (congrArg EngRun.state hq).trans hs, fun k hk => ?_, hm, hm4, ?_⟩
  · exact (Eng.modRun_run_ne hk _ _).trans (by rw [hue])
  · exact (huf.mono (by simp)).trans (frameBut_done (by simp [u]))

theorem engineRestart_tests (s : State) (e : Nat) (hs : (s.eng.run e).state = .covered ∨ (s.eng.run e).state = .uncovered)
    (ht : 1 ≤ since s.tick (s.eng.run e).since) : Answers (exec (.engineRestart e) s) fun t =>
      t.eng.run e = { s.eng.run e with state := .selfTest, since := s.tick, testBad := false } ∧
      (∀ k, k ≠ e → t.eng.run k = s.eng.run k) ∧ FrameBut [.eng] s t := by
  have hx : execEngineRestart e s = done (s.modEng (Eng.modRun e fun r => { r with state := .selfTest, since := s.tick, testBad := false })) :=
    congrArg done (if_pos (by simpa using ⟨hs, ht⟩))
  exact answers_event hx ⟨Eng.modRun_run_same .., fun k hk => Eng.modRun_run_ne hk _ _, frameBut_done (by simp)⟩

/-! ### Self-tests -/

/-- A list that returned to its engine is covered by none. -/
theorem returnList_run (e k : Nat) (x : Eng) : ((x.returnList e).run k).state = (x.run k).state ∧ ((x.returnList e).run k).covering ≠ some e := by
  have hc : ∀ r : EngRun, (if r.covering = some e then { r with covering := none } else r).covering ≠ some e := by
    intro r
    split
    · simp
    · assumption
  have hs : ∀ r : EngRun, (if r.covering = some e then { r with covering := none } else r).state = r.state := by
    intro r
    split <;> rfl
  unfold Eng.run Eng.returnList tget
  rw [tfind_tmap]
  cases tfind x.engs k with
  | none => exact ⟨rfl, by simp⟩
  | some r => exact ⟨hs r, hc r⟩

/-- The unit record of a self-test leaves the engines. -/
theorem unitRecord_eng (cls kind unit cause events cover : Nat) (s : State) : (s.unitRecord cls kind unit cause events cover).eng = s.eng := by
  have h : FrameBut [.mbx, .cps] s (s.unitRecord cls kind unit cause events cover) := frameBut_of_rest (by simp)
  exact h .eng (by decide)

/-- The engine that covers `e`, for the unit record. -/
def Eng.coverOf (x : Eng) (e : Nat) : Nat := ((x.engs.find? fun u => u.2.covering = some e).map Prod.fst).getD 0xFFFF

theorem engineSelfTestDone_passes (s : State) (e : Nat) (hs : (s.eng.run e).state = .selfTest) (ht : 64 ≤ since s.tick (s.eng.run e).since)
    (hb : (s.eng.run e).testBad = false) : Answers (exec (.engineSelfTestDone e true) s) fun t =>
      (t.eng.run e).state = .inService ∧ (∀ k, (t.eng.run k).covering ≠ some e) ∧ FrameBut [.eng, .cps, .mbx] s t := by
  have hx : execEngineSelfTestDone e true s =
      done ((s.modEng fun x => (x.modRun e fun r => { r with state := .inService, testBad := false, since := s.tick }).returnList e).unitRecord 2 4 e 4
        (s.eng.run e).events (s.eng.coverOf e)) := by
    simp only [execEngineSelfTestDone, hs, hb, bne_self_eq_false, Bool.false_or, decide_eq_false (Nat.not_lt.mpr ht), Bool.false_eq_true, if_false,
      Bool.not_false, Bool.and_self, if_true]
    rfl
  refine answers_event hx ⟨?_, fun k => ?_, frameBut_done (by simp)⟩
  · rw [State.settle_eng, unitRecord_eng]
    exact (returnList_run ..).1.trans (congrArg EngRun.state (Eng.modRun_run_same ..))
  · rw [State.settle_eng, unitRecord_eng]
    exact (returnList_run ..).2

theorem engineSelfTestDone_fails (s : State) (e : Nat) (p : Bool) (hs : (s.eng.run e).state = .selfTest)
    (ht : 64 ≤ since s.tick (s.eng.run e).since) (hb : p = false ∨ (s.eng.run e).testBad = true) :
    Answers (exec (.engineSelfTestDone e p) s) fun t =>
      (t.eng.run e).state = .retired ∧ (∀ k, k ≠ e → t.eng.run k = s.eng.run k) ∧ FrameBut [.eng, .cps, .mbx] s t := by
  have hz : (p && !(s.eng.run e).testBad) = false := by rcases hb with h | h <;> simp [h]
  have hx : execEngineSelfTestDone e p s =
      done ((s.modEng (Eng.modRun e fun r => { r with state := .retired, testBad := false, since := s.tick })).unitRecord 2 2 e 4
        (s.eng.run e).events (s.eng.coverOf e)) := by
    simp only [execEngineSelfTestDone, hs, hz, bne_self_eq_false, Bool.false_or, decide_eq_false (Nat.not_lt.mpr ht), Bool.false_eq_true, if_false]
    rfl
  refine answers_event hx ⟨?_, fun k hk => ?_, frameBut_done (by simp)⟩
  · rw [State.settle_eng, unitRecord_eng]
    exact congrArg EngRun.state (Eng.modRun_run_same ..)
  · rw [State.settle_eng, unitRecord_eng]
    exact Eng.modRun_run_ne hk _ _

/-- The end of the 60 s window on an engine (R216). -/
def closeEngineWindow (tick : Cfn) (r : EngRun) : EngRun :=
  match r.window with
  | some w => if 5859375 ≤ since tick w && r.events < 3 then { r with events := 0, window := none } else r
  | none => r

theorem engineWindowEnd_clears (s : State) (e : Nat) (w : Cfn) (hw : (s.eng.run e).window = some w) (ht : 5859375 ≤ since s.tick w)
    (hn : (s.eng.run e).events < 3) : Answers (exec (.engineWindowEnd e) s) fun t =>
      t.eng.run e = { s.eng.run e with events := 0, window := none } ∧ (∀ k, k ≠ e → t.eng.run k = s.eng.run k) ∧ FrameBut [.eng] s t := by
  have hx : execEngineWindowEnd e s = done (s.modEng (Eng.modRun e (closeEngineWindow s.tick))) := rfl
  refine answers_event hx ⟨?_, fun k hk => Eng.modRun_run_ne hk _ _, frameBut_done (by simp)⟩
  exact (Eng.modRun_run_same ..).trans (by simp [closeEngineWindow, hw, ht, hn])

/-! ### The harvest ring (R228, R229) -/

theorem harvestStart_starts (s : State) (he : s.eng.harvest.enable = true) (hr : s.eng.harvest.running = false) (hb : s.glb.bme = true)
    (ha : s.eng.harvest.startAt = some s.tick) : Answers (exec .harvestStart s) fun t =>
      t.eng.harvest.running = true ∧ t.glb.dmaPBusy = true ∧ t.eng.harvest.seq = s.eng.harvest.seq ∧ t.eng.harvest.recSeq = s.eng.harvest.seq ∧
      (∃ r, t.eng.records.getLast? = some r ∧ r.done = none ∧
        r.addr = s.eng.harvest.base.toNat + s.eng.harvest.seq.toNat % s.eng.harvest.entries * s.eng.harvest.stride) ∧ FrameBut [.eng, .glb] s t := by
  refine answers_event (congrArg done (if_neg (by simp [he, hr, hb, ha]))) ⟨rfl, ?_, rfl, rfl, ⟨_, List.getLast?_concat, rfl, rfl⟩, frameBut_done (by simp)⟩
  rw [State.settle_glb]
  rfl

/-- The record in progress ends with its DONE word. -/
theorem endHarvest_spec {s : State} {r : HarvestRec} (d : W32) (hr : s.eng.records.getLast? = some r) :
    (s.endHarvest d).eng.harvest = s.eng.harvest.over ∧ (s.endHarvest d).glb = { s.glb.sendPf1 with dmaPBusy := false } ∧
    (s.endHarvest d).eng.records.getLast? = some { r with done := some d } := by
  refine ⟨rfl, rfl, ?_⟩
  unfold State.endHarvest
  simp only [State.modGlb_eng, State.modEng_eng, hr]
  exact List.getLast?_concat

/-- PF1's message goes out, or waits where it is masked (R360). -/
theorem sendPf1_counts (g : Glb) : g.sendPf1.pf1Sent = g.pf1Sent + b2n (!g.pf1Mask) ∧ g.sendPf1.pf1Held = (g.pf1Held || g.pf1Mask) := by
  unfold Glb.sendPf1
  cases h : g.pf1Mask <;> simp [b2n]

theorem harvestDone_ends (s : State) (r : HarvestRec) (hr : s.eng.harvest.running = true) (hl : s.eng.records.getLast? = some r) :
    Answers (exec .harvestDone s) fun t =>
      t.eng.harvest.running = false ∧ t.eng.harvest.seq = (if s.eng.harvest.renewed then s.eng.harvest.seq else s.eng.harvest.recSeq + 1) ∧
      t.glb.dmaPBusy = false ∧ t.glb.pf1Sent = s.glb.pf1Sent + b2n (!s.glb.pf1Mask) ∧ t.glb.pf1Held = (s.glb.pf1Held || s.glb.pf1Mask) ∧
      t.eng.records.getLast? = some { r with done := some s.eng.harvest.recSeq } ∧ FrameBut [.eng, .glb] s t := by
  have hx : execHarvestDone s = done (s.endHarvest s.eng.harvest.recSeq) := congrArg done (if_pos hr)
  obtain ⟨-, -, hd⟩ := endHarvest_spec s.eng.harvest.recSeq hl
  obtain ⟨hs, hh⟩ := sendPf1_counts s.glb
  refine answers_event hx ?_
  rw [State.settle_glb, State.settle_eng]
  exact ⟨rfl, rfl, rfl, hs, hh, hd, frameBut_done (by simp)⟩

theorem harvestTruncate_ends (s : State) (r : HarvestRec) (hr : s.eng.harvest.running = true) (hl : s.eng.records.getLast? = some r)
    (hd : s.glb.secDue = true) : Answers (exec .harvestTruncate s) fun t =>
      t.eng.harvest.running = false ∧ t.eng.harvest.seq = (if s.eng.harvest.renewed then s.eng.harvest.seq else s.eng.harvest.recSeq + 1) ∧
      t.glb.dmaPBusy = false ∧ t.glb.pf1Sent = s.glb.pf1Sent + b2n (!s.glb.pf1Mask) ∧ t.glb.pf1Held = (s.glb.pf1Held || s.glb.pf1Mask) ∧
      t.eng.records.getLast? = some { r with done := some (s.eng.harvest.recSeq ||| 0x80000000) } ∧ FrameBut [.eng, .glb, .perf] s t := by
  have hx : execHarvestTruncate s = done ((s.endHarvest (s.eng.harvest.recSeq ||| 0x8000_0000)).count 556 1) :=
    congrArg done (if_pos (by simp [hr, hd]))
  obtain ⟨-, -, hl'⟩ := endHarvest_spec (s.eng.harvest.recSeq ||| 0x8000_0000) hl
  obtain ⟨hs, hh⟩ := sendPf1_counts s.glb
  refine answers_event hx ?_
  rw [State.settle_glb, State.settle_eng]
  exact ⟨rfl, rfl, rfl, hs, hh, hl', frameBut_done (by simp)⟩

end Sys2Proof.Machine

open Sys2Proof Sys2Proof.Machine

/-- Settles O38: a lemma for each event of an engine and for each step of a record. -/
theorem enginesAndHarvest : Obligations.EnginesAndHarvest := by
  unfold Obligations.EnginesAndHarvest
  exact ⟨engineFaultEvent_waits, engineRestart_tests, engineSelfTestDone_passes, engineSelfTestDone_fails, engineWindowEnd_clears,
    harvestStart_starts, harvestDone_ends, harvestTruncate_ends⟩

end

section
/-!
PROOFS. Protection timers and APS.
-/

namespace Sys2Proof.Machine

/-- A protection group's run is changed by `f`, and no other group's. -/
theorem modPg_spec {s : State} {n : Nat} {r : PgRun} (hr : tfind s.prot n = some r) (f : PgRun → PgRun) :
    tfind (s.modPg n f).settle.prot n = some (f r) ∧ (∀ k, k ≠ n → tfind (s.modPg n f).settle.prot k = tfind s.prot k) ∧
    FrameBut [.prot] s (s.modPg n f).settle := by
  refine ⟨?_, fun k hk => tfind_tupd_ne _ hk _, frameBut_done (by simp)⟩
  exact (tfind_tupd_same _ _ _).trans (congrArg (Option.map f) hr)

theorem holdOffExpire_workingSf (s : State) (n : Nat) (p : Pg) (r : PgRun) (d : Cfn) (hp : s.pg n = some p) (hr : tfind s.prot n = some r)
    (ht : r.tWSf = some d) (hh : p.hold ≤ since s.tick d) : Answers (exec (.holdOffExpire n false false) s) fun t =>
      tfind t.prot n = some { r with wSf := (s.leg p p.wT p.wEp).sf, tWSf := none } ∧ (∀ k, k ≠ n → tfind t.prot k = tfind s.prot k) ∧
      FrameBut [.prot] s t := by
  have he : execHoldOffExpire n false false s = done (s.modPg n fun r =>
      if r.tWSf.any fun d => p.hold ≤ since s.tick d then { r with wSf := (s.leg p p.wT p.wEp).sf, tWSf := none } else r) := by
    simp only [execHoldOffExpire, hp, Bool.false_eq_true, if_false]
  have h := modPg_spec hr fun r => if r.tWSf.any fun d => p.hold ≤ since s.tick d then { r with wSf := (s.leg p p.wT p.wEp).sf, tWSf := none } else r
  rw [if_pos (by simp [ht, hh])] at h
  exact answers_event he h

theorem holdOffExpire_protectionSd (s : State) (n : Nat) (p : Pg) (r : PgRun) (d : Cfn) (hp : s.pg n = some p) (hr : tfind s.prot n = some r)
    (ht : r.tPSd = some d) (hh : p.hold ≤ since s.tick d) : Answers (exec (.holdOffExpire n true true) s) fun t =>
      tfind t.prot n = some { r with pSd := (s.leg p p.pT p.pEp).sd, tPSd := none } ∧ (∀ k, k ≠ n → tfind t.prot k = tfind s.prot k) ∧
      FrameBut [.prot] s t := by
  have he : execHoldOffExpire n true true s = done (s.modPg n fun r =>
      if r.tPSd.any fun d => p.hold ≤ since s.tick d then { r with pSd := (s.leg p p.pT p.pEp).sd, tPSd := none } else r) := by
    simp only [execHoldOffExpire, hp, if_true]
  have h := modPg_spec hr fun r => if r.tPSd.any fun d => p.hold ≤ since s.tick d then { r with pSd := (s.leg p p.pT p.pEp).sd, tPSd := none } else r
  rw [if_pos (by simp [ht, hh])] at h
  exact answers_event he h

/-- The end of wait-to-restore (R240). -/
def endWtr (p : Pg) (tick : Cfn) (r : PgRun) : PgRun :=
  match r.wtr with
  | some t => if secFrames p.wtr ≤ since tick t then { r with wtr := none } else r
  | none => r

theorem wtrExpire_ends (s : State) (n : Nat) (p : Pg) (r : PgRun) (d : Cfn) (hp : s.pg n = some p) (hr : tfind s.prot n = some r)
    (ht : r.wtr = some d) (hh : secFrames p.wtr ≤ since s.tick d) : Answers (exec (.wtrExpire n) s) fun t =>
      tfind t.prot n = some { r with wtr := none } ∧ (∀ k, k ≠ n → tfind t.prot k = tfind s.prot k) ∧ FrameBut [.prot] s t := by
  have he : execWtrExpire n s = done (s.modPg n (endWtr p s.tick)) := by
    simp only [execWtrExpire, hp]
    rfl
  have h := modPg_spec hr (endWtr p s.tick)
  have hw : endWtr p s.tick r = { r with wtr := none } := by simp [endWtr, ht, hh]
  rw [hw] at h
  exact answers_event he h

theorem apsAccept_waits (s : State) (n : Nat) (p : Pg) (r : PgRun) (v : W32) (hp : s.pg n = some p) (ha : p.aps = true)
    (hr : tfind s.prot n = some r) : Answers (exec (.apsAccept n v) s) fun t =>
      tfind t.prot n = some { r with rxNext := some v } ∧ (∀ k, k ≠ n → tfind t.prot k = tfind s.prot k) ∧ FrameBut [.prot] s t :=
  answers_event (congrArg done (if_pos (by simp [hp, ha]))) (modPg_spec hr _)

theorem takeAps_accepts (r : PgRun) (v tx : W32) (hv : r.rxNext = some v) :
    (r.takeAps tx).rxAps = v ∧ (r.takeAps tx).rxNext = none ∧ (r.takeAps tx).state = r.state ∧ (r.takeAps tx).txAps = r.txAps ∧
    (Config.apsAnswers v tx = true → (r.takeAps tx).apsSince = none) := by
  unfold PgRun.takeAps
  rw [hv]
  exact ⟨rfl, rfl, rfl, rfl, fun h => if_pos h⟩

theorem fopNrTimeout_due (s : State) (n : Nat) (p : Pg) (r : PgRun) (d : Cfn) (hp : s.pg n = some p) (ha : p.aps = true)
    (hr : tfind s.prot n = some r) (hd : r.apsSince = some d) (ht : 4883 ≤ since s.tick d) : Answers (exec (.fopNrTimeout n) s) fun t =>
      tfind t.prot n = some { r with nrDue := true } ∧ (∀ k, k ≠ n → tfind t.prot k = tfind s.prot k) ∧ FrameBut [.prot] s t := by
  have hq : s.pgRun n = r := by
    unfold State.pgRun
    rw [hr]
    rfl
  exact answers_event (congrArg done (if_pos (by simp [hp, ha, hq, hd, ht]))) (modPg_spec hr _)

theorem takeNr_declares (r : PgRun) (d : Cfn) (hn : r.nrDue = true) (hd : r.apsSince = some d) :
    (r.takeNr).fop.getLsbD 2 = true ∧ (r.takeNr).apsSince = none ∧ (r.takeNr).state = r.state := by
  unfold PgRun.takeNr
  rw [if_pos (by simp [hn, hd])]
  exact ⟨getLsbD_setBit_true_self _ (by decide), rfl, rfl⟩

end Sys2Proof.Machine

open Sys2Proof Sys2Proof.Machine

/-- Settles O39: each event changes its group's run alone. -/
theorem protectionEvents : Obligations.ProtectionEvents := by
  unfold Obligations.ProtectionEvents
  exact ⟨holdOffExpire_workingSf, holdOffExpire_protectionSd, wtrExpire_ends, apsAccept_waits, takeAps_accepts, fopNrTimeout_due, takeNr_declares⟩

end

section
/-!
PROOFS. The blocks of encrypted tributaries.
-/

namespace Sys2Proof.Machine

/-! ### Slots and bindings -/

theorem Key.run_eq {k : Key} {key : Nat} {r : BindRun} (h : tfind k.binds key = some r) : k.run key = r := congrArg (Option.getD · _) h

theorem Key.modRun_run_same {k : Key} {key : Nat} {r : BindRun} (h : tfind k.binds key = some r) (f : BindRun → BindRun) :
    (k.modRun key f).run key = f r := by
  refine Key.run_eq ((tfind_tupd_same _ _ _).trans ?_)
  rw [h]
  rfl

theorem Key.modRun_run_ne {key m : Nat} (h : m ≠ key) (f : BindRun → BindRun) (k : Key) : (k.modRun key f).run m = k.run m :=
  congrArg (Option.getD · _) (tfind_tupd_ne _ h _)

theorem Key.run_congr {k k' : Key} (h : k'.binds = k.binds) (m : Nat) : k'.run m = k.run m := by
  unfold Key.run
  rw [h]

theorem modHalf_half_same (i : Bool) (f : Half → Half) (x : Slot) : (x.modHalf i f).half i = f (x.half i) := by cases i <;> rfl

/-- The use of a half raises its usage, and else at most REKEY_DUE changes (R268). -/
theorem useHalf_key (slot : Nat) (i : Bool) (s : State) :
    (((s.useHalf slot i).key.slot slot).half i).usage = ((s.key.slot slot).half i).usage + 7617 ∧
    ((s.useHalf slot i).key.slot slot).inv = (s.key.slot slot).inv ∧ ((s.useHalf slot i).key.slot slot).actReady = (s.key.slot slot).actReady ∧
    (∀ k, k ≠ slot → (s.useHalf slot i).key.slot k = s.key.slot k) ∧ (s.useHalf slot i).key.binds = s.key.binds := by
  unfold State.useHalf
  extract_lets h u due v
  have hv : (v.key.slot slot) = { ((s.key.slot slot).modHalf i fun h => { h with usage := u }) with due := (s.key.slot slot).due || due } :=
    Key.modSlot_slot_same ..
  have hk : (((v.key.slot slot).half i).usage = ((s.key.slot slot).half i).usage + 7617 ∧ (v.key.slot slot).inv = (s.key.slot slot).inv ∧
      (v.key.slot slot).actReady = (s.key.slot slot).actReady ∧ (∀ k, k ≠ slot → v.key.slot k = s.key.slot k) ∧ v.key.binds = s.key.binds) := by
    rw [hv]
    refine ⟨?_, ?_, ?_, fun k hk => Key.modSlot_slot_ne _ hk _ _, rfl⟩
    · exact congrArg Half.usage (modHalf_half_same i (fun h => { h with usage := u }) (s.key.slot slot))
    · cases i <;> rfl
    · cases i <;> rfl
  split
  · exact hk
  · exact hk

/-! ### Encryption (R255 to R258) -/

theorem announce_same {x : Slot} (ki : Bool) (h : x.actReady = false) : announce x ki = (ki, x.inv, false) := by
  simp [announce, h]

/-- The block that half `i` of a slot encrypts next, and that announces the one after it (R255, R256). -/
def Slot.block (i : Bool) (x : Slot) : CBlock :=
  { kind := .cipher, ki := i, key := (x.half i).key, salt := (x.half i).salt, inv := x.inv, hdr := headerBytes i x.inv
    next := headerBytes i (x.inv + 1) }

/-- A binding after such a block. -/
def BindRun.encrypted (i : Bool) (x : Slot) (r : BindRun) : BindRun := (r.announced (i, x.inv + 1, false) 0).give (x.block i)

def Slot.nextInv (x : Slot) : Slot := { x with inv := x.inv + 1 }

/-- A block of a binding that neither starts with a lead-in nor switches its half. -/
theorem encBlock_current {s : State} {key slot : Nat} {r : BindRun} {i : Bool} (hr : tfind s.key.binds key = some r) (hs : r.switch = 0)
    (ha : (s.key.slot slot).actReady = false) (hc : (s.key.slot slot).find .current = some i) (hm : ((s.key.slot slot).half i).room = true) :
    s.encBlock key slot =
      ((s.useHalf slot i).modKey (Key.modSlot slot Slot.nextInv)).modKey (Key.modRun key (BindRun.encrypted i (s.key.slot slot))) := by
  obtain ⟨-, hi, hact, -, -⟩ := useHalf_key slot i s
  have hx : ((s.useHalf slot i).modKey (Key.modSlot slot Slot.nextInv)).key.slot slot = ((s.useHalf slot i).key.slot slot).nextInv :=
    Key.modSlot_slot_same ..
  have han : announce (((s.useHalf slot i).modKey (Key.modSlot slot Slot.nextInv)).key.slot slot) i = (i, (s.key.slot slot).inv + 1, false) := by
    rw [hx, announce_same i (x := ((s.useHalf slot i).key.slot slot).nextInv) (hact.trans ha)]
    show (i, ((s.useHalf slot i).key.slot slot).inv + 1, false) = _
    rw [hi]
  have hsw : (decide (r.switch = 2) && decide (((s.key.slot slot).half r.ki).state = .next)) = false := by simp [hs]
  have hu : (fun x : Slot => { x with inv := x.inv + 1 }) = Slot.nextInv := rfl
  simp only [State.encBlock, Key.run_eq hr, hsw, Bool.false_eq_true, if_false, hc, hm, Bool.not_true, hu, han, b2n]
  rfl

/-- The bank of the mappers follows the schedule's block. -/
theorem FrameBut.bank2 {l : List Part} {s t : State} (h : FrameBut l s t) (hl : .sch ∉ l) : t.bank2 = s.bank2 :=
  congrArg (fun c : Sch => c.bank c.present2) (h .sch hl)

theorem encryptBlockStart_block (s : State) (n : Nat) (b : Bind) (r : BindRun) (i : Bool) (hb : s.bank2.bindOf 1 n = some b) (ht : s.traffic = true)
    (hc : (s.encCtx n).active = true) (hr : tfind s.key.binds (16384 + n) = some r) (hp : s.bank2.encPartner n b.slot = none)
    (hl : r.leadIn = false) (hf : r.failed = 0) (hs : r.switch = 0) (ha : (s.key.slot b.slot).actReady = false)
    (hi : (s.key.slot b.slot).find .current = some i) (hm : ((s.key.slot b.slot).half i).room = true) :
    Answers (exec (.encryptBlockStart n) s) fun t =>
      (t.key.run (16384 + n)).inv = (s.key.slot b.slot).inv + 1 ∧ (t.key.run (16384 + n)).ki = i ∧ (t.key.run (16384 + n)).failed = 0 ∧
      (t.key.run (16384 + n)).pipe = { r.pipe with queue := r.pipe.queue ++ [{
        kind := .cipher, ki := i, key := ((s.key.slot b.slot).half i).key, salt := ((s.key.slot b.slot).half i).salt,
        inv := (s.key.slot b.slot).inv, hdr := headerBytes i (s.key.slot b.slot).inv, next := headerBytes i ((s.key.slot b.slot).inv + 1) }] } ∧
      ((t.key.slot b.slot).half i).usage = ((s.key.slot b.slot).half i).usage + 7617 ∧ (t.key.slot b.slot).inv = (s.key.slot b.slot).inv + 1 ∧
      (∀ k, k ≠ b.slot → t.key.slot k = s.key.slot k) ∧ (∀ k, k ≠ 16384 + n → t.key.run k = s.key.run k) ∧ FrameBut [.key, .mbx] s t := by
  have hbk : (s.encBlock (16384 + n) b.slot).bank2 = s.bank2 :=
    FrameBut.bank2 (l := [.key, .mbx]) (frameBut_of_rest (by simp)) (by decide)
  have he : execEncryptBlockStart n s = done (s.encBlock (16384 + n) b.slot) := by
    simp [execEncryptBlockStart, hb, ht, hc, hr, hp, Key.run_eq hr, hl, hf, hs, hbk]
  obtain ⟨hu, hinv, -, ho, hbn⟩ := useHalf_key b.slot i s
  have hkey : (s.encBlock (16384 + n) b.slot).key =
      ((s.useHalf b.slot i).key.modSlot b.slot Slot.nextInv).modRun (16384 + n) (BindRun.encrypted i (s.key.slot b.slot)) := by
    rw [encBlock_current hr hs ha hi hm]
    rfl
  generalize (s.useHalf b.slot i).key = k' at hu hinv ho hbn hkey
  have hslot : (k'.modSlot b.slot Slot.nextInv).slot b.slot = (k'.slot b.slot).nextInv := Key.modSlot_slot_same ..
  have hru : tfind (k'.modSlot b.slot Slot.nextInv).binds (16384 + n) = some r := (congrArg (tfind · (16384 + n)) hbn).trans hr
  have hrun := Key.modRun_run_same hru (BindRun.encrypted i (s.key.slot b.slot))
  rw [← hkey] at hrun
  refine answers_event he ⟨congrArg BindRun.inv hrun, congrArg BindRun.ki hrun, (congrArg BindRun.failed hrun).trans hf,
    congrArg BindRun.pipe hrun, ?_, ?_, fun k hk => ?_, fun k hk => ?_, frameBut_done (by simp)⟩
  · rw [State.settle_key, hkey]
    exact (congrArg (fun x : Slot => (x.half i).usage) hslot).trans hu
  · rw [State.settle_key, hkey]
    exact (congrArg Slot.inv hslot).trans (congrArg (· + 1) hinv)
  · rw [State.settle_key, hkey]
    exact (Key.modSlot_slot_ne _ hk _ _).trans (ho k hk)
  · rw [State.settle_key, hkey]
    exact (Key.modRun_run_ne hk _ _).trans (Key.run_congr (k' := k'.modSlot b.slot Slot.nextInv) hbn k)


/-- A binding after a lead-in that announces the current half (R257). -/
def BindRun.ledIn (i : Bool) (x : Slot) (r : BindRun) : BindRun :=
  { (r.announced (i, x.inv, false) 0).give { kind := .leadIn, next := headerBytes i x.inv } with leadIn := false, failed := 0 }

theorem encLead_current {s : State} {key slot : Nat} {r : BindRun} {i : Bool} (hr : tfind s.key.binds key = some r) (hf : r.failed ≠ 3)
    (ha : (s.key.slot slot).actReady = false) (hc : (s.key.slot slot).find .current = some i) :
    s.encLead key slot = s.modKey (Key.modRun key (BindRun.ledIn i (s.key.slot slot))) := by
  simp only [State.encLead, hc, announce_same i ha, Key.run_eq hr, hf, decide_false, Bool.false_and, Bool.false_eq_true, if_false]
  rfl

theorem encryptBlockStart_leadIn (s : State) (n : Nat) (b : Bind) (r : BindRun) (i : Bool) (hb : s.bank2.bindOf 1 n = some b) (ht : s.traffic = true)
    (hc : (s.encCtx n).active = true) (hr : tfind s.key.binds (16384 + n) = some r) (hp : s.bank2.encPartner n b.slot = none)
    (hl : r.leadIn = true) (hf : r.failed ≠ 3) (hs : r.switch = 0) (hi : (s.key.slot b.slot).find .current = some i)
    (ha : (s.key.slot b.slot).actReady = false) :
    Answers (exec (.encryptBlockStart n) s) fun t =>
      (t.key.run (16384 + n)).leadIn = false ∧ (t.key.run (16384 + n)).failed = 0 ∧ (t.key.run (16384 + n)).ki = i ∧
      (t.key.run (16384 + n)).inv = (s.key.slot b.slot).inv ∧ (t.key.run (16384 + n)).pipe = { r.pipe with
        queue := r.pipe.queue ++ [{ kind := .leadIn, next := headerBytes i (s.key.slot b.slot).inv }] } ∧ t.key.slots = s.key.slots ∧
      (∀ k, k ≠ 16384 + n → t.key.run k = s.key.run k) ∧ FrameBut [.key] s t := by
  have hbk : (s.encLead (16384 + n) b.slot).bank2 = s.bank2 :=
    FrameBut.bank2 (l := [.key]) (frameBut_of_rest (by simp)) (by decide)
  have he : execEncryptBlockStart n s = done (s.encLead (16384 + n) b.slot) := by
    simp [execEncryptBlockStart, hb, ht, hc, hr, hp, Key.run_eq hr, hl, hs, hbk]
  have hrun := Key.modRun_run_same hr (BindRun.ledIn i (s.key.slot b.slot))
  rw [encLead_current hr hf ha hi] at he
  exact answers_event he ⟨congrArg BindRun.leadIn hrun, congrArg BindRun.failed hrun, congrArg BindRun.ki hrun, congrArg BindRun.inv hrun,
    congrArg BindRun.pipe hrun, rfl, fun k hk => Key.modRun_run_ne hk _ _, frameBut_done (by simp)⟩

/-! ### Decryption (R259 to R261) -/

/-- A binding after the beginning of a decrypted block. -/
def BindRun.decrypted (i : Bool) (h : Half) (inv : BitVec 48) (r : BindRun) : BindRun :=
  { r.give { kind := .cipher, ki := i, key := h.key, salt := h.salt, inv := inv, hdr := headerBytes i inv } with
    state := .run, failed := 0, ki := i, inv := inv }

/-- A binding after a good header. -/
def BindRun.goodHeader (i : Bool) (inv : BitVec 48) (r : BindRun) : BindRun := { r with badHdr := 0, lastHdr := headerBytes i inv }

def BindRun.replayed (r : BindRun) : BindRun := { r with replay := satAdd r.replay 1 }

/-- A block begins to be decrypted with a half that has room: its binding follows it, no other does. -/
theorem decBlock_run {s : State} {key slot : Nat} {i : Bool} {r : BindRun} (inv : BitVec 48) (hr : tfind s.key.binds key = some r)
    (hm : ((s.key.slot slot).half i).room = true) :
    (s.decBlock key slot i inv).key.run key = r.decrypted i ((s.key.slot slot).half i) inv ∧
    ∀ k, k ≠ key → (s.decBlock key slot i inv).key.run k = s.key.run k := by
  obtain ⟨-, -, -, -, hb⟩ := useHalf_key slot i s
  have hk : (s.decBlock key slot i inv).key = (s.useHalf slot i).key.modRun key (BindRun.decrypted i ((s.key.slot slot).half i) inv) := by
    simp only [State.decBlock, hm, Bool.not_true, Bool.false_eq_true, if_false]
    rfl
  rw [hk]
  generalize (s.useHalf slot i).key = k' at hb
  exact ⟨Key.modRun_run_same ((congrArg (tfind · key) hb).trans hr) _, fun k hk => (Key.modRun_run_ne hk _ _).trans (Key.run_congr hb k)⟩

theorem followKi_current {s : State} {slot : Nat} {i : Bool} (h : ((s.key.slot slot).half i).state = .current) : s.followKi slot i = s := by
  simp [State.followKi, h]

theorem tfind_modRun_same {k : Key} {key : Nat} {r : BindRun} (h : tfind k.binds key = some r) (f : BindRun → BindRun) :
    tfind (k.modRun key f).binds key = some (f r) := by
  refine (tfind_tupd_same _ _ _).trans ?_
  rw [h]
  rfl

theorem headerReceived_acquire (s : State) (n : Nat) (b : Bind) (r : BindRun) (h : CipherHeader) (hb : s.presentBank.bindOf 0 n = some b)
    (ht : s.traffic = true) (hr : tfind s.key.binds n = some r) (hg : s.ingFail n = false) (ha : r.state = .acquire)
    (hcrc : crc8 (beBytes 6 h.inv.toNat ++ [h.ctl]) = h.hcrc.toNat) (hc : ((s.key.slot b.slot).half (h.ctl.getLsbD 7)).state = .current)
    (hm : ((s.key.slot b.slot).half (h.ctl.getLsbD 7)).room = true) :
    Answers (exec (.headerReceived n h) s) fun t =>
      (t.key.run n).state = .run ∧ (t.key.run n).inv = h.inv ∧ (t.key.run n).ki = h.ctl.getLsbD 7 ∧ (t.key.run n).failed = 0 ∧
      (t.key.run n).pipe = { r.pipe with queue := r.pipe.queue ++ [{
        kind := .cipher, ki := h.ctl.getLsbD 7, key := ((s.key.slot b.slot).half (h.ctl.getLsbD 7)).key,
        salt := ((s.key.slot b.slot).half (h.ctl.getLsbD 7)).salt, inv := h.inv, hdr := headerBytes (h.ctl.getLsbD 7) h.inv }] } ∧
      (∀ k, k ≠ n → t.key.run k = s.key.run k) ∧ FrameBut [.key, .mbx] s t := by
  have hfol : (s.modKey (Key.modRun n (BindRun.goodHeader (h.ctl.getLsbD 7) h.inv))).followKi b.slot (h.ctl.getLsbD 7) =
      s.modKey (Key.modRun n (BindRun.goodHeader (h.ctl.getLsbD 7) h.inv)) := followKi_current hc
  have he : execHeaderReceived n h s =
      done ((s.modKey (Key.modRun n (BindRun.goodHeader (h.ctl.getLsbD 7) h.inv))).decBlock n b.slot (h.ctl.getLsbD 7) h.inv) := by
    rw [← hfol]
    simp [execHeaderReceived, hb, ht, hr, Key.run_eq hr, hg, ha, hcrc, hc, -BitVec.getLsbD_eq_getElem]
    rfl
  obtain ⟨hrun, ho⟩ := decBlock_run h.inv (s := s.modKey (Key.modRun n (BindRun.goodHeader (h.ctl.getLsbD 7) h.inv))) (slot := b.slot)
    (i := h.ctl.getLsbD 7) (tfind_modRun_same hr _) hm
  exact answers_event he ⟨congrArg BindRun.state hrun, congrArg BindRun.inv hrun, congrArg BindRun.ki hrun, congrArg BindRun.failed hrun,
    congrArg BindRun.pipe hrun, fun k hk => (ho k hk).trans (Key.modRun_run_ne hk _ _), frameBut_done (by simp)⟩

theorem headerReceived_replay (s : State) (n : Nat) (b : Bind) (r : BindRun) (h : CipherHeader) (hb : s.presentBank.bindOf 0 n = some b)
    (ht : s.traffic = true) (hr : tfind s.key.binds n = some r) (hg : s.ingFail n = false) (ha : r.state = .run)
    (hcrc : crc8 (beBytes 6 h.inv.toNat ++ [h.ctl]) = h.hcrc.toNat) (hki : h.ctl.getLsbD 7 = r.ki)
    (hc : ((s.key.slot b.slot).half r.ki).state = .current) (hm : ((s.key.slot b.slot).half r.ki).room = true) (hle : h.inv.toNat ≤ r.inv.toNat) :
    Answers (exec (.headerReceived n h) s) fun t =>
      (t.key.run n).replay = satAdd r.replay 1 ∧ (t.key.run n).inv = r.inv + 1 ∧ (t.key.run n).state = .run ∧ FrameBut [.key, .mbx] s t := by
  have he : execHeaderReceived n h s = done (((s.modKey (Key.modRun n (BindRun.goodHeader r.ki h.inv))).modKey
      (Key.modRun n BindRun.replayed)).decBlock n b.slot r.ki (r.inv + 1)) := by
    simp [execHeaderReceived, hb, ht, hr, Key.run_eq hr, hg, ha, hcrc, hki, hc, hle, -BitVec.getLsbD_eq_getElem]
    rfl
  have hr2 : tfind ((s.modKey (Key.modRun n (BindRun.goodHeader r.ki h.inv))).modKey (Key.modRun n BindRun.replayed)).key.binds n =
      some (r.goodHeader r.ki h.inv).replayed :=
    tfind_modRun_same (k := s.key.modRun n (BindRun.goodHeader r.ki h.inv)) (tfind_modRun_same hr _) _
  obtain ⟨hrun, -⟩ := decBlock_run (slot := b.slot) (i := r.ki) (r.inv + 1) hr2 hm
  exact answers_event he ⟨congrArg BindRun.replay hrun, congrArg BindRun.inv hrun, congrArg BindRun.state hrun, frameBut_done (by simp)⟩

/-! ### Tags (R262) -/

theorem retireUnused_rest (slot : Nat) (k : Key) : (k.retireUnused slot).binds = k.binds ∧ (k.retireUnused slot).sticky = k.sticky := by
  unfold Key.retireUnused
  split
  · split <;> exact ⟨rfl, rfl⟩
  · exact ⟨rfl, rfl⟩

/-- A binding whose oldest tag has come. -/
def BindRun.tagDone (l : List (Bool × BitVec 128)) (r : BindRun) : BindRun := { r with pipe := { r.pipe with due := l } }

def BindRun.tagFailed (r : BindRun) : BindRun := { r with authFail := satAdd r.authFail 1 }

def BindRun.tagUnchecked (r : BindRun) : BindRun := { r with uncheck := satAdd r.uncheck 1 }

/-- The keys after the oldest tag of a binding has come. -/
def Key.tagDone (n slot : Nat) (l : List (Bool × BitVec 128)) (k : Key) : Key := (k.modRun n (BindRun.tagDone l)).retireUnused slot

theorem tagDone_binds (n slot : Nat) (l : List (Bool × BitVec 128)) (k : Key) :
    (k.tagDone n slot l).binds = (k.modRun n (BindRun.tagDone l)).binds := (retireUnused_rest _ _).1

theorem tagDone_tfind {n slot : Nat} {k : Key} {r : BindRun} (l : List (Bool × BitVec 128)) (h : tfind k.binds n = some r) :
    tfind (k.tagDone n slot l).binds n = some (r.tagDone l) := (congrArg (tfind · n) (tagDone_binds ..)).trans (tfind_modRun_same h _)

theorem tagDone_run_ne {n slot m : Nat} {k : Key} (l : List (Bool × BitVec 128)) (h : m ≠ n) : (k.tagDone n slot l).run m = k.run m :=
  (Key.run_congr (tagDone_binds n slot l k) m).trans (Key.modRun_run_ne h _ _)

theorem tagCheck_passes (s : State) (n : Nat) (b : Bind) (r : BindRun) (d : Bool × BitVec 128) (l : List (Bool × BitVec 128))
    (hb : s.presentBank.bindOf 0 n = some b) (ht : s.traffic = true) (hr : tfind s.key.binds n = some r) (hd : r.pipe.due = d :: l)
    (hg : s.ingFail n = false) :
    Answers (exec (.tagCheck n d.2 false) s) fun t =>
      t.key.run n = { r with pipe := { r.pipe with due := l } } ∧ (∀ k, k ≠ n → t.key.run k = s.key.run k) ∧ FrameBut [.key] s t := by
  have hg2 : (s.modKey (Key.tagDone n b.slot l)).ingFail n = false := hg
  have he : execTagCheck n d.2 false s = done (s.modKey (Key.tagDone n b.slot l)) := by
    unfold Key.tagDone BindRun.tagDone at hg2 ⊢
    simp [execTagCheck, hb, ht, hr, Key.run_eq hr, hd, hg2]
  exact answers_event he ⟨Key.run_eq (tagDone_tfind l hr), fun k hk => tagDone_run_ne l hk, frameBut_done (by simp)⟩

theorem tagCheck_unchecked (s : State) (n : Nat) (b : Bind) (r : BindRun) (d : Bool × BitVec 128) (l : List (Bool × BitVec 128))
    (tag : BitVec 128) (miss : Bool) (hb : s.presentBank.bindOf 0 n = some b) (ht : s.traffic = true) (hr : tfind s.key.binds n = some r)
    (hd : r.pipe.due = d :: l) (hg : s.ingFail n = true) :
    Answers (exec (.tagCheck n tag miss) s) fun t =>
      t.key.run n = { r with pipe := { r.pipe with due := l }, uncheck := satAdd r.uncheck 1 } ∧ FrameBut [.key] s t := by
  have hg2 : (s.modKey (Key.tagDone n b.slot l)).ingFail n = true := hg
  have he : execTagCheck n tag miss s = done ((s.modKey (Key.tagDone n b.slot l)).modKey (Key.modRun n BindRun.tagUnchecked)) := by
    unfold Key.tagDone BindRun.tagDone at hg2 ⊢
    simp [execTagCheck, hb, ht, hr, Key.run_eq hr, hd, hg2]
    rfl
  exact answers_event he ⟨Key.modRun_run_same (tagDone_tfind l hr) _, frameBut_done (by simp)⟩

/-- What a failed tag does to the keys and to the tributary. -/
def State.tagFails (n slot : Nat) (l : List (Bool × BitVec 128)) (s : State) : State :=
  ((s.modKey (Key.tagDone n slot l)).modKey fun k => (k.flag 1).modRun n BindRun.tagFailed).modDp fun d =>
    { d with ing := tmod {} d.ing n fun x => { x with untrustPend := true } }

theorem tagCheck_fails (s : State) (n : Nat) (b : Bind) (r : BindRun) (d : Bool × BitVec 128) (l : List (Bool × BitVec 128))
    (tag : BitVec 128) (miss : Bool) (hb : s.presentBank.bindOf 0 n = some b) (ht : s.traffic = true) (hr : tfind s.key.binds n = some r)
    (hd : r.pipe.due = d :: l) (hg : s.ingFail n = false) (hm : miss = true ∨ tag ≠ d.2) :
    Answers (exec (.tagCheck n tag miss) s) fun t =>
      (t.key.run n).authFail = satAdd r.authFail 1 ∧ (t.key.run n).pipe.due = l ∧ (tget ({} : IngRun) t.dp.ing n).untrustPend = true ∧
      t.key.sticky.getLsbD 1 = true ∧ FrameBut [.key, .dp, .perf, .mbx] s t := by
  have hg2 : (s.modKey (Key.tagDone n b.slot l)).ingFail n = false := hg
  have hno : (!miss && decide (tag = d.2)) = false := by
    rcases hm with h | h
    · simp [h]
    · simp [h]
  have he : ∃ u : State, execTagCheck n tag miss s = done u ∧ u.key = (s.tagFails n b.slot l).key ∧ u.dp = (s.tagFails n b.slot l).dp ∧
      FrameBut [.key, .dp, .perf, .mbx] s u := by
    unfold State.tagFails
    unfold Key.tagDone BindRun.tagDone at hg2 ⊢
    simp only [execTagCheck, hb, ht, hr, Key.run_eq hr, hd, hg2, hno, Bool.not_true, Option.isNone_some, Bool.false_or, Bool.false_eq_true, if_false]
    split
    · exact ⟨_, rfl, rfl, rfl, frameBut_of_rest (by simp)⟩
    · exact ⟨_, rfl, rfl, rfl, frameBut_of_rest (by simp)⟩
  obtain ⟨u, he, hk, hdp, hfr⟩ := he
  have hrun : u.key.run n = (r.tagDone l).tagFailed :=
    (congrArg (Key.run · n) hk).trans (Key.modRun_run_same (k := (s.key.tagDone n b.slot l).flag 1) (tagDone_tfind l hr) _)
  refine answers_event he ⟨congrArg BindRun.authFail hrun, congrArg (fun r => r.pipe.due) hrun, ?_, ?_, hfr.then_settle⟩
  · rw [State.settle_dp, hdp]
    exact congrArg IngRun.untrustPend (tget_tmod_same ({} : IngRun) s.dp.ing n fun x => { x with untrustPend := true })
  · rw [State.settle_key, hk]
    exact getLsbD_setBit_true_self _ (by decide)

theorem untrustClear_due (s : State) (n : Nat) (h : (tget ({} : IngRun) s.dp.ing n).untrust = some 0) :
    Answers (exec (.untrustClear n) s) fun t =>
      tget ({} : IngRun) t.dp.ing n = { tget ({} : IngRun) s.dp.ing n with untrust := none } ∧ FrameBut [.dp] s t := by
  have he : execUntrustClear n s = done (s.modDp fun d => { d with ing := tmod {} d.ing n fun x => { x with untrust := none } }) := by
    simp only [execUntrustClear, h, bne_self_eq_false, Bool.false_eq_true, if_false]
  exact answers_event he ⟨(tget_tmod_same ({} : IngRun) s.dp.ing n fun x => { x with untrust := none }).trans rfl, frameBut_done (by simp)⟩

/-! ### The stream cipher (R258) -/

/-- The keystream block in use at a place of the stream. -/
def CStream.keystream (p : CStream) : BitVec 128 :=
  if p.n % 16 = 0 then aesBlock p.cur.key (gcmCounter p.cur.iv (2 + p.n / 16)) else p.ks

theorem cipher_byte (p : CStream) (e : Bool) (a : Byte) :
    (p.cipher e a).2 = a ^^^ BitVec.setWidth 8 (p.keystream >>> (8 * (15 - p.n % 16))) := rfl

/-- What a byte of ciphertext leaves of the hash. -/
def CStream.hashed (p : CStream) (c : Byte) : BitVec 128 :=
  if p.n % 16 = 15 then ghashStep p.cur.hashKey p.y ((p.part <<< 8) ||| BitVec.setWidth 128 c) else p.y

/-- A byte whose cipher is ciphered again comes back. -/
theorem cipher_cipher (p : CStream) (a : Byte) : (p.cipher false (p.cipher true a).2).2 = a := by
  rw [cipher_byte, cipher_byte, BitVec.xor_assoc, BitVec.xor_self, BitVec.xor_zero]

/-- The encrypter hashes the byte that it sends, the decrypter the byte that it receives. -/
theorem cipher_y (p : CStream) (e : Bool) (a : Byte) : (p.cipher e a).1.y = p.hashed (if e then (p.cipher e a).2 else a) := by
  cases e
  · simp only [CStream.cipher, CStream.hashed, Bool.false_eq_true, if_false]
    split <;> simp
  · simp only [CStream.cipher, CStream.hashed, if_true]
    split <;> simp

theorem cipher_tag (p : CStream) (a : Byte) (h : p.n + 1 = payloadBytes) :
    (p.cipher true a).1.tag = p.cur.tagOf (p.hashed (p.cipher true a).2) := by
  simp [CStream.cipher, CStream.hashed, h]

theorem decipher_due (p : CStream) (c : Byte) (h : p.n + 1 = payloadBytes) :
    (p.cipher false c).1.due = p.due ++ [(p.cur.ki, p.cur.tagOf (p.hashed c))] := by
  simp [CStream.cipher, CStream.hashed, h]

end Sys2Proof.Machine

open Sys2Proof Sys2Proof.Machine

/-- Settles O40: encryption and decryption take the half and INV of the slot or of the header, and a ciphered byte deciphers to itself, so
that both sides hash the same bytes. -/
theorem cipherBlocks : Obligations.CipherBlocks := by
  refine ⟨encryptBlockStart_block, encryptBlockStart_leadIn, headerReceived_acquire, headerReceived_replay, tagCheck_passes, tagCheck_fails,
    tagCheck_unchecked, untrustClear_due, fun p a => ⟨cipher_cipher p a, ?_⟩, fun p a h => ?_⟩
  · rw [cipher_y, cipher_y]
    rfl
  · rw [decipher_due p _ h, cipher_tag p a h]

end

section
/-!
PROOFS. A cipher pipeline whose count outlived its window.
-/

namespace Sys2Proof.Machine

/-- A device under traffic, whose first pipeline holds five fault events and no window. -/
def countWithoutWindow : State :=
  { State.reset with
    glb := { State.reset.glb with released := true, mode := .service }
    key := { State.reset.key with pipes := [(0, { events := 5 })] } }

/-- A mismatch adds to the count that stands, and the sixth event retires the pipeline. -/
theorem countWithoutWindow_mismatch : Answers (exec (.pipeMismatch 0 0 0 0) countWithoutWindow) fun t =>
    (t.key.pipe (pipeKey 0 0 0)).events = 6 ∧ (t.key.pipe (pipeKey 0 0 0)).state = 1 :=
  ⟨_, rfl, by decide +kernel⟩

end Sys2Proof.Machine

open Sys2Proof Sys2Proof.Machine

/-- Refutes O41: the first clause asks that a mismatch leave one event where no window runs, but asks nothing of the count, which no window
bounds: a pipeline with five events and no window has six after a mismatch, and is retired. -/
theorem not_cipherPipes : ¬ Obligations.CipherPipes := by
  unfold Obligations.CipherPipes
  intro h
  obtain ⟨hmismatch, -⟩ := h
  obtain ⟨t, ht, hevents, -⟩ :=
    hmismatch countWithoutWindow 0 0 0 0 (by decide) (by decide) (by decide) (by decide) (by decide +kernel) (by decide +kernel)
      (by decide +kernel) (by decide +kernel)
  obtain ⟨u, hu, hsix, -⟩ := countWithoutWindow_mismatch
  cases hu.symm.trans ht
  exact absurd (hsix.symm.trans hevents) (by decide)

end

section
/-!
PROOFS. The candidates of the timing unit.
-/

namespace Sys2Proof.Machine

/-- The candidates stay, and a sticky bit that is set stays set. -/
def Tim.Keeps (t u : Tim) : Prop := u.cands = t.cands ∧ ∀ b, t.sticky.getLsbD b = true → u.sticky.getLsbD b = true

theorem Tim.Keeps.refl (t : Tim) : t.Keeps t := ⟨rfl, fun _ h => h⟩

theorem Tim.Keeps.trans {t u v : Tim} (h : t.Keeps u) (k : u.Keeps v) : t.Keeps v := ⟨k.1.trans h.1, fun b hb => k.2 b (h.2 b hb)⟩

theorem Tim.Keeps.cand {t u : Tim} (h : t.Keeps u) (i : Nat) : u.cand i = t.cand i := congrArg (tget _ · i) h.1

theorem getLsbD_setBit_of_set {n : Nat} {w : BitVec n} {b : Nat} (k : Nat) (h : w.getLsbD b = true) : (setBit w k true).getLsbD b = true := by
  by_cases hk : b = k
  · subst hk
    exact getLsbD_setBit_true_self w (BitVec.lt_of_getLsbD h)
  · exact (getLsbD_setBit_ne w hk true).trans h

theorem keeps_flag (b : Nat) (t : Tim) : t.Keeps (t.flag b) := ⟨rfl, fun _ h => getLsbD_setBit_of_set b h⟩

theorem keeps_log (cfn : Cfn) (kind old new cause : Nat) (t : Tim) : t.Keeps (t.log cfn kind old new cause) := ⟨rfl, fun _ h => h⟩

theorem keeps_to (st : TimState) (r : Option Nat) (fb : Bool) (tick : Cfn) (t : Tim) : t.Keeps (t.to st r fb tick) := ⟨rfl, fun _ h => h⟩

theorem keeps_refreshQl (t : Tim) : t.Keeps t.refreshQl := by
  unfold Tim.refreshQl
  split
  · exact .refl t
  · exact keeps_flag 4 t

theorem keeps_excludeTail (tick : Cfn) (t : Tim) : t.Keeps (t.excludeTail tick) := by
  unfold Tim.excludeTail
  split
  · exact ⟨rfl, fun _ h => h⟩
  · exact .refl t

theorem timRest_keeps (ho : Bool) (cause : Nat) (s : State) : s.tim.Keeps (s.timRest ho cause).tim :=
  ((keeps_flag _ _).trans (keeps_log ..)).trans (keeps_to ..)

theorem timLose_keeps (s : State) : s.tim.Keeps s.timLose.tim := by
  unfold State.timLose
  dsimp only
  split
  · exact keeps_excludeTail ..
  · exact .refl _

/-- A selection changes no candidate. -/
theorem timSelect_keeps (s : State) : s.tim.Keeps s.timSelect.tim := by
  refine (timLose_keeps s).trans (.trans ?_ (keeps_refreshQl _))
  generalize s.timInForce = t
  generalize s.timLose = s
  dsimp only
  split
  · exact .refl _
  · split
    · generalize (decide (t.force = 1) && t.hoReady) = ho
      generalize (if ho = true then TimState.holdover else TimState.freeRun) = st
      split
      · exact .refl _
      · exact timRest_keeps ..
    · split
      · split
        · exact timRest_keeps ..
        · exact .refl _
      · split
        · exact ⟨rfl, fun _ h => h⟩
        · split
          · exact (((keeps_flag ..).trans (keeps_log ..)).trans (keeps_log ..)).trans (keeps_to ..)
          · exact (keeps_log ..).trans (keeps_to ..)
          · exact ((keeps_log ..).trans (keeps_log ..)).trans (keeps_to ..)

theorem timReselect_keeps (s : State) : s.tim.Keeps s.timReselect.tim := by
  unfold State.timReselect
  split
  · exact .refl _
  · exact timSelect_keeps s

theorem timUndo_cands (lost : Nat) (s : State) : (s.timUndo lost).tim.cands = s.tim.cands := by
  unfold State.timUndo
  split
  · split <;> rfl
  · rfl

theorem timReselect_cand (i : Nat) (s : State) : s.timReselect.tim.cand i = s.tim.cand i := (timReselect_keeps s).cand i

/-! ### Activity, WTR and QL (R283, R285, R286) -/

theorem candActivityLoss_enabled (s : State) (i : Nat) (h : (s.tim.cand i).enabled = true) :
    Answers (exec (.candActivityLoss i) s) fun t =>
      t.tim.cand i = { s.tim.cand i with loss := true, cut := true } ∧ (∀ k, k ≠ i → t.tim.cand k = s.tim.cand k) ∧ FrameBut [.tim] s t := by
  refine answers_event rfl ⟨(Tim.modCand_cand_same i _ s.tim).trans (if_pos h), fun k hk => Tim.modCand_cand_ne i hk _ s.tim, frameBut_done (by simp)⟩

def Cand.qualify (c : Cand) : Cand := { c with state := .qualified }

theorem candWtrExpire_due (s : State) (i : Nat) (h : (s.tim.cand i).state = .wtr) (hw : secFrames s.tim.wtr ≤ since s.tick (s.tim.cand i).since) :
    Answers (exec (.candWtrExpire i) s) fun t =>
      t.tim.cand i = { s.tim.cand i with state := .qualified } ∧ (∀ k, k ≠ i → t.tim.cand k = s.tim.cand k) ∧ FrameBut [.tim, .mbx] s t := by
  have he : execCandWtrExpire i s = done (s.modTim (Tim.modCand i Cand.qualify)).timReselect := by
    simp only [execCandWtrExpire, h, hw, decide_true, Bool.and_true, if_true]
    rfl
  refine answers_event he ⟨?_, fun k hk => ?_, frameBut_done (by simp)⟩
  · exact (timReselect_cand i _).trans (Tim.modCand_cand_same i Cand.qualify s.tim)
  · exact (timReselect_cand k _).trans (Tim.modCand_cand_ne i hk Cand.qualify s.tim)

/-- A candidate whose QL timed out. -/
def Cand.qlLost (c : Cand) : Cand := { (c.setQl 0xF) with hostVal := some 0xF }

theorem qlLost_ql (c : Cand) : c.qlLost.ql = 0xF ∧ c.qlLost.state = c.state := by
  unfold Cand.qlLost Cand.setQl
  split
  · exact ⟨‹_›, rfl⟩
  · exact ⟨rfl, rfl⟩

theorem qlTimeout_due (s : State) (i : Nat) (he : (s.tim.cand i).enabled = true) (hh : s.hostSourced i (s.tim.cand i) = true)
    (ht : (s.tim.cand i).timeout ≠ 0) (hd : secFrames (s.tim.cand i).timeout.toNat ≤ since s.tick ((s.tim.cand i).qlAt.getD 0)) :
    Answers (exec (.qlTimeout i) s) fun t =>
      (t.tim.cand i).ql = 0xF ∧ (t.tim.cand i).state = (s.tim.cand i).state ∧ (∀ k, k ≠ i → t.tim.cand k = s.tim.cand k) ∧ FrameBut [.tim] s t := by
  have hx : execQlTimeout i s = done (s.modTim fun t => (t.modCand i Cand.qlLost).refreshQl) := by
    simp only [execQlTimeout, he, hh, hd, bne_iff_ne.mpr ht, decide_true, Bool.and_true, if_true]
    rfl
  have hc : (s.tim.modCand i Cand.qlLost).refreshQl.cand i = (s.tim.cand i).qlLost :=
    ((keeps_refreshQl _).cand i).trans (Tim.modCand_cand_same ..)
  obtain ⟨hq, hs⟩ := qlLost_ql (s.tim.cand i)
  exact answers_event hx ⟨(congrArg Cand.ql hc).trans hq, (congrArg Cand.state hc).trans hs,
    fun k hk => ((keeps_refreshQl (s.tim.modCand i Cand.qlLost)).cand k).trans (Tim.modCand_cand_ne i hk _ _), frameBut_done (by simp)⟩

/-! ### Disputes (R291, R292) -/

/-- A candidate that was found to disagree with `kept`. -/
def Cand.disputed (kept : Nat) (c : Cand) : Cand := { (c.flag 1) with state := .disputed, against := some kept, agree := none }

/-- The unit where candidate `lost` is found to disagree with candidate `kept` of the pair `i`, `j`. -/
def Tim.dispute (tick cfn : Cfn) (i j kept lost : Nat) (t : Tim) : Tim :=
  (({ t with cmpAt := some (tick, min i j) }.modCand lost (Cand.disputed kept)).flag 5).log cfn 2 kept lost 0

theorem qualified_of_selectable {t : Tim} {a : Bool} {i : Nat} (h : t.selectable a i = true) : (t.cand i).state = .qualified := by
  unfold Tim.selectable at h
  simp only [Bool.and_eq_true, decide_eq_true_eq] at h
  tauto

theorem qualified_of_equalRank {t : Tim} {i j : Nat} (h : t.equalRank i j = true) :
    (t.cand i).state = .qualified ∧ (t.cand j).state = .qualified := by
  unfold Tim.equalRank at h
  simp only [Bool.and_eq_true] at h
  obtain ⟨⟨⟨⟨-, hi⟩, hj⟩, -⟩, -⟩ := h
  exact ⟨qualified_of_selectable hi, qualified_of_selectable hj⟩

/-- The unit after the two candidates disagree, of which the first is kept. -/
def State.disputing (i j : Nat) (s : State) : State :=
  (((s.timUndo j).modTim (Tim.dispute s.tick s.recCfn i j i j)).event 0x4901 0 [BitVec.ofNat 8 i, BitVec.ofNat 8 j])

theorem disputeCompare_disagrees (s : State) (i j : Nat) (x y : Int) (hij : i < j) (hr : s.tim.equalRank i j = true) (hp : s.pairDue i j = true)
    (hd : s.tim.dispPpb * 1000 < (x - y).natAbs) (hh : s.tim.hoReady = false) :
    Answers (exec (.disputeCompare i j x y) s) fun t =>
      (t.tim.cand j).state = .disputed ∧ (t.tim.cand j).against = some i ∧ (t.tim.cand j).sticky.getLsbD 1 = true ∧ t.tim.cand i = s.tim.cand i ∧
      t.tim.sticky.getLsbD 5 = true ∧ FrameBut [.tim, .mbx] s t := by
  obtain ⟨hi, hj⟩ := qualified_of_equalRank hr
  have he : execDisputeCompare i j x y s = done (s.disputing i j).timReselect := by
    simp only [execDisputeCompare, hij.ne, hi, hj, reduceCtorEq, decide_false, Bool.false_and, hr, hd, decide_true, hp, Bool.and_true,
      Tim.keepFirst, hh, hij, Bool.false_eq_true, if_false, if_true]
    rfl
  have hc : ∀ k, (s.timUndo j).tim.cand k = s.tim.cand k := fun k => congrArg (tget _ · k) (timUndo_cands j s)
  have hjc : (s.disputing i j).timReselect.tim.cand j = (s.tim.cand j).disputed i :=
    (timReselect_cand j _).trans ((Tim.modCand_cand_same j (Cand.disputed i) { (s.timUndo j).tim with cmpAt := _ }).trans
      (congrArg (Cand.disputed i) (hc j)))
  refine answers_event he ⟨congrArg Cand.state hjc, congrArg Cand.against hjc, ?_, ?_, ?_, frameBut_done (by simp [State.disputing])⟩
  · exact (congrArg (fun c => c.sticky.getLsbD 1) hjc).trans (getLsbD_setBit_true_self _ (by decide))
  · exact (timReselect_cand i _).trans ((Tim.modCand_cand_ne j hij.ne (Cand.disputed i) { (s.timUndo j).tim with cmpAt := _ }).trans (hc i))
  · exact (timReselect_keeps _).2 5 (getLsbD_setBit_true_self _ (by decide))

theorem disputeClear_agreed (s : State) (i : Nat) (a : Cfn) (h : (s.tim.cand i).state = .disputed) (ha : (s.tim.cand i).agree = some a)
    (hd : 5859375 ≤ since s.tick a) :
    Answers (exec (.disputeClear i) s) fun t =>
      t.tim.cand i = { s.tim.cand i with state := .qualified, against := none, agree := none } ∧ FrameBut [.tim, .mbx] s t := by
  have he : execDisputeClear i s = done (s.modTim (Tim.modCand i Cand.clear)).timReselect := by
    simp only [execDisputeClear, h, ha, Option.any_some, hd, decide_true, Bool.or_true, Bool.and_true, if_true]
  exact answers_event he ⟨(timReselect_cand i _).trans (Tim.modCand_cand_same i Cand.clear s.tim), frameBut_done (by simp)⟩

end Sys2Proof.Machine

open Sys2Proof Sys2Proof.Machine

/-- Settles O42: a selection changes no candidate, so each event leaves its candidate as it set it. -/
theorem timingCandidates : Obligations.TimingCandidates :=
  ⟨candActivityLoss_enabled, candWtrExpire_due, qlTimeout_due, disputeCompare_disagrees, disputeClear_agreed⟩

end

section
/-!
PROOFS. The states of the timing unit.
-/

namespace Sys2Proof.Machine

/-! ### Locking (R293, R296 to R299) -/

/-- The unit as a transition leaves it in LOCKED. -/
def Tim.locks (cfn tick : Cfn) (old : Nat) (t : Tim) : Tim := (t.log cfn 1 old 2 0).to .locked t.sel t.fallback tick

theorem choose_locks (cfn tick : Cfn) (old : Nat) (t : Tim) : (t.locks cfn tick old).choose = t.choose := by
  unfold Tim.choose
  rfl

theorem selectable_locks (cfn tick : Cfn) (old : Nat) (t : Tim) (a : Bool) (c : Nat) :
    (t.locks cfn tick old).selectable a c = t.selectable a c := by
  unfold Tim.selectable
  rfl

theorem timInForce_locks (cfn : Cfn) (old : Nat) (s : State) :
    (s.modTim (Tim.locks cfn s.tick old)).timInForce = s.timInForce.locks cfn s.tick old := by
  unfold State.timInForce
  rfl

/-- A refreshed QL leaves the state of the unit, its reference and the time of its lock. -/
theorem refreshQl_rest (t : Tim) : t.refreshQl.state = t.state ∧ t.refreshQl.sel = t.sel ∧ t.refreshQl.lockedAt = t.lockedAt ∧
    t.refreshQl.sticky.getLsbD 0 = t.sticky.getLsbD 0 ∧ t.refreshQl.outQl = t.wantQl := by
  unfold Tim.refreshQl
  split
  · exact ⟨rfl, rfl, rfl, rfl, Eq.symm ‹_›⟩
  · exact ⟨rfl, rfl, rfl, getLsbD_setBit_ne _ (by decide) _, rfl⟩

/-- A selection that names the reference that is locked only notes whether it is a fallback. -/
theorem timSelect_same {s : State} {c : Nat} {fb : Bool} (hst : s.tim.state = .locked) (hsel : s.tim.sel = some c) (hf : s.tim.force = 0)
    (hch : s.timInForce.choose = some (c, fb)) (hok : s.timInForce.selectable s.tim.auto c = true) :
    s.timSelect = s.modTim fun t => Tim.refreshQl { t with fallback := fb } := by
  have hf2 : s.timInForce.force = 0 := hf
  have hst2 : s.timInForce.state = .locked := hst
  have hsel2 : s.timInForce.sel = some c := hsel
  have hok2 : s.timInForce.selectable s.timInForce.auto c = true := hok
  have hl : s.timLose = s := by
    simp [State.timLose, hst2, hsel2, hok2]
  simp only [State.timSelect, hl, hf2, hst2, hsel2, hch, bne_self_eq_false, Bool.false_eq_true, reduceCtorEq, if_false, if_true]
  rfl

theorem timTransitionEnd_locks (s : State) (c : Nat) (hst : s.tim.state = .transition) (hsel : s.tim.sel = some c)
    (_ : s.tim.selectable s.tim.fallback c = true) (hf : s.tim.force = 0) (hch : s.timInForce.choose = some (c, s.tim.fallback))
    (hok : s.timInForce.selectable s.tim.auto c = true) (hsec : s.glb.secDue = false) :
    Answers (exec .timTransitionEnd s) fun t => t.tim.state = .locked ∧ t.tim.sel = some c ∧ t.tim.lockedAt = s.tick ∧ FrameBut [.tim] s t := by
  have hsame : (s.modTim (Tim.locks s.recCfn s.tick 3)).timSelect = _ := 
    timSelect_same (fb := s.tim.fallback) rfl hsel hf (by rw [timInForce_locks, choose_locks, hch])
      (by rw [timInForce_locks, selectable_locks]; exact hok)
  have he : execTimTransitionEnd s = done ((s.modTim (Tim.locks s.recCfn s.tick 3)).modTim fun t =>
      Tim.refreshQl { t with fallback := s.tim.fallback }) := by
    simp only [execTimTransitionEnd, hsec, Bool.false_and, Bool.false_eq_true, if_false, State.timEnd, hst, hsel, hok, if_true]
    exact congrArg done hsame
  obtain ⟨h1, h2, h3, -, -⟩ := refreshQl_rest { s.tim.locks s.recCfn s.tick 3 with fallback := s.tim.fallback }
  exact answers_event he ⟨h1, h2.trans hsel, h3, frameBut_done (by simp)⟩

theorem timLock_locks (s : State) (hst : s.tim.state = .acquiring) (hd : s.tim.lockFrames ≤ since s.tick s.tim.since) :
    Answers (exec .timLock s) fun t => t.tim.state = .locked ∧ t.tim.sel = s.tim.sel ∧ t.tim.lockedAt = s.tick ∧ FrameBut [.tim] s t := by
  have he : execTimLock s = done (s.modTim fun t => (t.locks s.recCfn s.tick 1).refreshQl) := by
    simp only [execTimLock, hst, hd, decide_true, Bool.and_true, if_true]
    rfl
  obtain ⟨h1, h2, h3, -, -⟩ := refreshQl_rest (s.tim.locks s.recCfn s.tick 1)
  exact answers_event he ⟨h1, h2, h3, frameBut_done (by simp)⟩

/-- The unit that lost its lock. -/
def Tim.unlocks (cfn tick : Cfn) (t : Tim) : Tim := ((t.flag 0).log cfn 1 2 1 0).to .acquiring t.sel t.fallback tick

theorem timLockLoss_unlocks (s : State) (p : Int) (hst : s.tim.state = .locked) (hp : 1000 < p.natAbs) :
    Answers (exec (.timLockLoss p) s) fun t =>
      t.tim.state = .acquiring ∧ t.tim.sel = s.tim.sel ∧ t.tim.sticky.getLsbD 0 = true ∧ t.tim.outQl = s.tim.ownQl ∧ FrameBut [.tim] s t := by
  have he : execTimLockLoss p s = done (s.modTim fun t => (t.unlocks s.recCfn s.tick).refreshQl) := by
    simp only [execTimLockLoss, hst, hp, decide_true, Bool.and_true, if_true]
    rfl
  obtain ⟨h1, h2, -, h4, h5⟩ := refreshQl_rest (s.tim.unlocks s.recCfn s.tick)
  exact answers_event he ⟨h1, h2, h4.trans (getLsbD_setBit_true_self _ (by decide)), h5, frameBut_done (by simp)⟩

theorem timLockLoss_small (s : State) (p : Int) (hp : p.natAbs ≤ 1000) : Answers (exec (.timLockLoss p) s) fun t => FrameBut [] s t := by
  have he : execTimLockLoss p s = done s := by
    simp [execTimLockLoss, Nat.not_lt.mpr hp]
  exact answers_event he (frameBut_done (by simp))

theorem hoReady_takes (s : State) (e : Int) (hst : s.tim.state = .locked) (hd : secFrames 62 ≤ since s.tick s.tim.lockedAt) :
    Answers (exec (.hoReady e) s) fun t =>
      t.tim.hoReady = true ∧ t.tim.estimate = e ∧ t.tim.state = .locked ∧ t.tim.sel = s.tim.sel ∧ t.tim.outQl = s.tim.outQl ∧
      t.tim.cands = s.tim.cands ∧ FrameBut [.tim] s t := by
  have he : execHoReady e s = done (s.modTim (Tim.takeEstimate s.tick e (s.cps.unit 0 (b2n (!s.tim.activeTu))).fine)) := by
    simp only [execHoReady, hst, hd, decide_true, Bool.or_true, Bool.and_true, if_true]
  exact answers_event he ⟨rfl, rfl, hst, rfl, rfl, rfl, frameBut_done (by simp)⟩

theorem holdoverLimit_ends (s : State) (hst : s.tim.state = .holdover) (hsec : s.glb.secDue = false)
    (hd : secFrames s.tim.hoLimit ≤ since s.tick s.tim.since) :
    Answers (exec .holdoverLimit s) fun t =>
      t.tim.state = .freeRun ∧ t.tim.hoReady = false ∧ t.tim.sel = none ∧ t.tim.sticky.getLsbD 3 = true ∧ FrameBut [.tim, .mbx] s t := by
  have he : execHoldoverLimit s = done ((s.timRest false 4).modTim fun t => { t with hoReady := false, estimate := 0, ests := [] }) := by
    simp only [execHoldoverLimit, hsec, Bool.false_eq_true, if_false, State.timLimit, hst, hd, decide_true, Bool.and_true, if_true]
  exact answers_event he ⟨rfl, rfl, rfl, getLsbD_setBit_true_self _ (by decide), frameBut_done (by simp)⟩

/-! ### The pair of timing units (R302 to R304, R429) -/

theorem b2n_other (b : Bool) : 1 - b2n b ≠ b2n b := by cases b <;> decide

/-- The units of the timing pair after a swap that was planned. -/
theorem tuSwap_units (s : State) :
    (s.tuSwap.cps.unit 0 (b2n s.tim.activeTu)).state = .ready ∧ (s.tuSwap.cps.unit 0 (1 - b2n s.tim.activeTu)).state = .active := by
  have hc : s.tuSwap.cps = (s.cps.modUnit 0 (b2n s.tim.activeTu) fun u => { u with state := .ready }).modUnit 0 (1 - b2n s.tim.activeTu)
      fun u => { u with state := .active } := rfl
  rw [hc]
  cases s.tim.activeTu <;> exact ⟨rfl, rfl⟩

theorem tuFlip_tim (cause : Nat) (s : State) : (s.tuFlip cause).tim.activeTu = !s.tim.activeTu ∧ (s.tuFlip cause).tim.sticky.getLsbD 6 = true ∧
    (s.tuFlip cause).tim.state = s.tim.state ∧ (s.tuFlip cause).tim.localOsc = s.tim.localOsc :=
  ⟨rfl, getLsbD_setBit_true_self _ (by decide), rfl, rfl⟩

theorem tuPeriodicSwap_due (s : State) (h0 : s.tim.swapH ≠ 0) (hd : hourFrames s.tim.swapH ≤ since s.tick s.tim.lastSwap) (hr : s.swapReady = true) :
    Answers (exec .tuPeriodicSwap s) fun t =>
      t.tim.activeTu = !s.tim.activeTu ∧ t.tim.sticky.getLsbD 6 = true ∧ t.tim.state = s.tim.state ∧
      (t.cps.unit 0 (b2n s.tim.activeTu)).state = .ready ∧ (t.cps.unit 0 (1 - b2n s.tim.activeTu)).state = .active ∧
      FrameBut [.tim, .cps, .mbx] s t := by
  have he : execTuPeriodicSwap s = done s.tuSwap := by
    simp only [execTuPeriodicSwap, bne_iff_ne.mpr h0, hd, hr, decide_true, Bool.and_true, if_true]
  obtain ⟨hready, hactive⟩ := tuSwap_units s
  obtain ⟨hflip, hsticky, hstate, -⟩ := tuFlip_tim 0 (s.modCps fun c => (c.modUnit 0 (b2n s.tim.activeTu) fun u => { u with state := .ready }).modUnit
    0 (1 - b2n s.tim.activeTu) fun u => { u with state := .active })
  exact answers_event he ⟨hflip, hsticky, hstate, hready, hactive, frameBut_done (by simp)⟩

/-- A fault of a timing unit leaves the unit that is active and the multiplexer. -/
theorem unitFault_tim (u cause cover : Nat) (s : State) :
    (s.unitFault 0 u cause cover).tim.activeTu = s.tim.activeTu ∧ (s.unitFault 0 u cause cover).tim.localOsc = s.tim.localOsc := ⟨rfl, rfl⟩

theorem tuLost_frame (cause : Nat) (s : State) : FrameBut [.tim, .cps, .mbx] s (s.tuLost cause) :=
  frameBut_of_rest (State.tuLost_timing_rest (by decide) cause s)

theorem tuEdgeMissing_fault {s : State} (hp : s.rst.phase = .started) (hs : s.rst.scanDirty = false) (hl : s.tim.localOsc = false) :
    execTuEdgeMissing s = done (s.tuLost 3) := by
  simp [execTuEdgeMissing, hp, hs, hl]

theorem tuEdgeMissing_alone (s : State) (hp : s.rst.phase = .started) (hs : s.rst.scanDirty = false) (hl : s.tim.localOsc = false)
    (hc : s.coverReady 0 = false) : Answers (exec .tuEdgeMissing s) fun t =>
      t.tim.localOsc = true ∧ t.tim.activeTu = s.tim.activeTu ∧ FrameBut [.tim, .cps, .mbx] s t := by
  have hk : s.tuLost 3 = (s.unitFault 0 (s.activeOf 0) 3 0xFFFF).modTim fun t => { t with localOsc := true } := by
    simp [State.tuLost, hc]
  obtain ⟨hact, -⟩ := unitFault_tim (s.activeOf 0) 3 0xFFFF s
  have ht : (s.tuLost 3).tim.localOsc = true ∧ (s.tuLost 3).tim.activeTu = s.tim.activeTu := by
    rw [hk]
    exact ⟨rfl, hact⟩
  exact answers_event (tuEdgeMissing_fault hp hs hl) ⟨ht.1, ht.2, (tuLost_frame 3 s).then_settle⟩

theorem tuEdgeMissing_covered (s : State) (hp : s.rst.phase = .started) (hs : s.rst.scanDirty = false) (hl : s.tim.localOsc = false)
    (hc : s.coverReady 0 = true) : Answers (exec .tuEdgeMissing s) fun t =>
      t.tim.localOsc = false ∧ t.tim.activeTu = !s.tim.activeTu ∧ FrameBut [.tim, .cps, .mbx] s t := by
  obtain ⟨hact, hosc⟩ := unitFault_tim (s.activeOf 0) 3 (1 - s.activeOf 0) s
  have ht : (s.tuLost 3).tim.localOsc = s.tim.localOsc ∧ (s.tuLost 3).tim.activeTu = !s.tim.activeTu := by
    simp only [State.tuLost, hc, if_true]
    exact ⟨hosc, congrArg (!·) hact⟩
  exact answers_event (tuEdgeMissing_fault hp hs hl) ⟨ht.1.trans hl, ht.2, (tuLost_frame 3 s).then_settle⟩

end Sys2Proof.Machine

open Sys2Proof Sys2Proof.Machine

/-- Settles O43: each event of the timing unit that is due enters the state that it names, and a unit that fails is covered by its standby
or by the local oscillator. -/
theorem timingStates : Obligations.TimingStates :=
  ⟨timTransitionEnd_locks, timLock_locks, timLockLoss_unlocks, timLockLoss_small, hoReady_takes, holdoverLimit_ends, tuPeriodicSwap_due,
    tuEdgeMissing_alone, tuEdgeMissing_covered⟩

end

section
/-!
PROOFS. The pairs of control processors and of timing units.
-/

namespace Sys2Proof.Machine

variable {ps : List Part}

/-! ### Units of a pair -/

theorem Cps.modUnit_unit_ne {pair u v : Nat} (hu : u < 2) (hv : v < 2) (h : v ≠ u) (f : UnitRun → UnitRun) (c : Cps) :
    (c.modUnit pair u f).unit pair v = c.unit pair v := by
  unfold Cps.modUnit Cps.unit
  by_cases hp : pair = 0
  · obtain rfl | rfl : u = 0 ∨ u = 1 := by omega
    · simp [hp, h]
    · obtain rfl : v = 0 := by omega
      simp [hp]
  · obtain rfl | rfl : u = 0 ∨ u = 1 := by omega
    · simp [hp, h]
    · obtain rfl : v = 0 := by omega
      simp [hp]

theorem activeOf_cp_lt (s : State) : s.activeOf 1 < 2 := by
  show b2n s.cps.active < 2
  cases s.cps.active <;> decide

theorem standbyOf_cp_ne (s : State) : s.standbyOf 1 ≠ s.activeOf 1 := by
  show 1 - b2n s.cps.active ≠ b2n s.cps.active
  cases s.cps.active <;> decide

theorem standbyOf_cp_lt (s : State) : s.standbyOf 1 < 2 := by
  show 1 - b2n s.cps.active < 2
  omega

/-- A control processor after a fault (R433). -/
def State.faulted (s : State) (u : Nat) : UnitRun := { (s.cps.unit 1 u).fault s.tick with fresh := s.coreRuns }

theorem modUnit_active (pair u : Nat) (f : UnitRun → UnitRun) (c : Cps) : (c.modUnit pair u f).active = c.active := (Cps.modUnit_frame ..).2

theorem modUnit_update (pair u : Nat) (f : UnitRun → UnitRun) (c : Cps) : (c.modUnit pair u f).update = c.update := (Cps.modUnit_frame ..).1

theorem unitFault_cps (u cause cover : Nat) (s : State) : ∃ l n, (s.unitFault 1 u cause cover).cps =
    { s.cps.modUnit 1 u (fun _ => s.faulted u) with records := l, recTotal := n } := ⟨_, _, rfl⟩

/-- A fault of a control processor touches its own unit and what it serves (R366, R433). -/
theorem unitFault_cp (u cause cover : Nat) (s : State) :
    (s.unitFault 1 u cause cover).cps.active = s.cps.active ∧ (s.unitFault 1 u cause cover).cps.update = s.cps.update ∧
    (s.unitFault 1 u cause cover).cps.unit 1 u = s.faulted u ∧ (s.unitFault 1 u cause cover).glb.remap = setBit s.glb.remap u false := by
  obtain ⟨l, n, hc⟩ := unitFault_cps u cause cover s
  rw [hc]
  refine ⟨modUnit_active .., modUnit_update .., ?_, rfl⟩
  exact Cps.modUnit_unit_same 1 u (fun _ => s.faulted u) s.cps

theorem State.unitFault_cp_rest (hp : [.glb, .mbx, .cps] ⊆ ps) (u cause cover : Nat) (s : State) :
    (s.unitFault 1 u cause cover).rest ps = s.rest ps := by
  simp only [List.cons_subset, List.nil_subset, and_true] at hp
  simp [State.unitFault, hp]

/-- The takeover of the control processors: the other one is active, and its load begins anew (R428). -/
theorem cpFlip_cps (cause : Nat) (s : State) : (s.cpFlip cause).cps.active = (!s.cps.active) ∧
    ((s.cpFlip cause).cps.unit 1 (1 - b2n s.cps.active)).state = .active ∧ (s.cpFlip cause).cps.lastSwap = s.tick ∧
    (s.cpFlip cause).glb = s.glb := by
  refine ⟨rfl, ?_, rfl, rfl⟩
  exact congrArg UnitRun.state (Cps.modUnit_unit_same 1 (1 - b2n s.cps.active) (fun u => { u with state := .active }) s.cps)

/-- A lost control processor whose standby can cover it. -/
def State.covered (cause : Nat) (s : State) : State :=
  ((s.unitFault 1 (s.activeOf 1) cause (1 - s.activeOf 1)).cpFlip 2).unitRecord 1 3 (s.activeOf 1) cause (s.cps.unit 1 (s.activeOf 1)).events
    (1 - s.activeOf 1)

theorem cpLost_covered {s : State} (cause reset : Nat) (h : s.coverReady 1 = true) : s.cpLost cause reset = s.covered cause := by
  simp [State.cpLost, State.covered, h]

theorem covered_spec (cause : Nat) (s : State) : (s.covered cause).cps.active = (!s.cps.active) ∧
    ((s.covered cause).cps.unit 1 (1 - s.activeOf 1)).state = .active ∧ (s.covered cause).glb.remap = setBit s.glb.remap (s.activeOf 1) false ∧
    FrameBut [.cps, .mbx, .glb, .sch] s (s.covered cause) := by
  obtain ⟨hact, -, -, hremap⟩ := unitFault_cp (s.activeOf 1) cause (1 - s.activeOf 1) s
  obtain ⟨hflip, hnew, -, hglb⟩ := cpFlip_cps 2 (s.unitFault 1 (s.activeOf 1) cause (1 - s.activeOf 1))
  have hr := State.unitFault_cp_rest (ps := [.cps, .mbx, .glb, .sch]) (by decide) (s.activeOf 1) cause (1 - s.activeOf 1) s
  rw [hact] at hflip hnew
  refine ⟨hflip, hnew, (congrArg Glb.remap hglb).trans hremap, frameBut_of_rest ?_⟩
  simp [State.covered, hr]

/-- A standby control processor that is lost outside an update only restarts. -/
theorem standbyLost_cp {s : State} (cause : Nat) (h : s.cps.update = none) :
    s.standbyLost 1 cause = s.unitFault 1 (s.standbyOf 1) cause 0xFFFF := by
  simp [State.standbyLost, h]

theorem fault_events (s : State) (u : Nat) : (s.faulted u).events = (s.cps.unit 1 u).events + 1 := rfl

/-! ### Heartbeats (R428, R432) -/

theorem heartbeatLoss_lost {s : State} {p u : Nat} (h : s.voted p u = true) :
    execHeartbeatLoss p u false false s = done (if u != s.activeOf p then s.standbyLost p 1 else if p = 1 then s.cpLost 1 7 else s.tuLost 1) := by
  simp [execHeartbeatLoss, State.vote, h]

theorem heartbeatLoss_active (s : State) (h : s.voted 1 (s.activeOf 1) = true) (hc : s.coverReady 1 = true) :
    Answers (exec (.heartbeatLoss 1 (s.activeOf 1) false false) s) fun t =>
      t.cps.active = !s.cps.active ∧ (t.cps.unit 1 (1 - s.activeOf 1)).state = .active ∧ t.glb.remap = (setBit s.glb.remap (s.activeOf 1) false) ∧
      FrameBut [.cps, .mbx, .glb, .sch] s t := by
  have he : execHeartbeatLoss 1 (s.activeOf 1) false false s = done (s.covered 1) := by
    simp [heartbeatLoss_lost h, cpLost_covered 1 7 hc]
  obtain ⟨hact, hnew, hremap, hfr⟩ := covered_spec 1 s
  exact answers_event he ⟨hact, hnew, by simp [hremap], hfr.then_settle⟩

theorem heartbeatLoss_standby (s : State) (h : s.voted 1 (s.standbyOf 1) = true) (hu : s.cps.update = none) :
    Answers (exec (.heartbeatLoss 1 (s.standbyOf 1) false false) s) fun t =>
      t.cps.active = s.cps.active ∧ (t.cps.unit 1 (s.standbyOf 1)).events = (s.cps.unit 1 (s.standbyOf 1)).events + 1 ∧
      t.glb.remap = (setBit s.glb.remap (s.standbyOf 1) false) ∧ FrameBut [.cps, .mbx, .glb] s t := by
  have he : execHeartbeatLoss 1 (s.standbyOf 1) false false s = done (s.unitFault 1 (s.standbyOf 1) 1 0xFFFF) := by
    rw [heartbeatLoss_lost h, if_pos (bne_iff_ne.mpr (standbyOf_cp_ne s)), standbyLost_cp 1 hu]
  obtain ⟨hact, -, hunit, hremap⟩ := unitFault_cp (s.standbyOf 1) 1 0xFFFF s
  exact answers_event he ⟨hact, congrArg UnitRun.events hunit, by simp [hremap],
    (frameBut_of_rest (State.unitFault_cp_rest (by decide) _ _ _ s)).then_settle⟩

theorem heartbeatLoss_seen (s : State) (p u : Nat) (h : s.voted p u = true) (hm : s.pert.hbMutes = false) :
    Answers (exec (.heartbeatLoss p u true true) s) fun t =>
      t.cps = s.cps.modUnit p u (fun x => { x with unseen := false }) ∧ FrameBut [.cps] s t := by
  have he : execHeartbeatLoss p u true true s = done (s.refereeSees p u true) := by
    simp [execHeartbeatLoss, State.vote, h, Pert.mutes, hm]
  exact answers_event he ⟨rfl, frameBut_done (by simp)⟩

/-- The vote on a heartbeat that the partner hears and the referee does not (R432). -/
def State.unheard (u : Nat) (s : State) : State :=
  ((s.count 767 1).unitRecord 1 6 u 1 (s.cps.unit 1 u).events 0xFFFF).refereeSees 1 u false

def UnitRun.lost (x : UnitRun) : UnitRun := { x with unseen := true }

theorem unheard_cps (u : Nat) (s : State) : ∃ l n, (s.unheard u).cps =
    ({ s.cps with records := l, recTotal := n } : Cps).modUnit 1 u UnitRun.lost := ⟨_, _, rfl⟩

theorem unheard_unit (u : Nat) (s : State) : (s.unheard u).cps.unit 1 u = (s.cps.unit 1 u).lost ∧ (s.unheard u).cps.active = s.cps.active ∧
    (u < 2 → (s.unheard u).cps.unit 1 (1 - u) = s.cps.unit 1 (1 - u)) := by
  obtain ⟨l, n, hc⟩ := unheard_cps u s
  rw [hc]
  exact ⟨Cps.modUnit_unit_same .., modUnit_active .., fun hu => Cps.modUnit_unit_ne hu (by omega) (by omega) ..⟩

theorem heartbeatLoss_unheard {s : State} {u : Nat} (h : s.voted 1 u = true) (hm : s.pert.hbMutes = false) :
    execHeartbeatLoss 1 u true false s =
      done (if (s.unheard u).bothUnseen then (s.unheard u).faultReset false 7 else s.unheard u) := by
  simp [execHeartbeatLoss, State.vote, h, Pert.mutes, hm]
  rfl

theorem bothUnseen_other {s : State} {u : Nat} (hu : u < 2) (h : (s.cps.unit 1 u).unseen = false) : s.bothUnseen = false := by
  obtain rfl | rfl : u = 0 ∨ u = 1 := by omega
  · have ha : s.cps.cpA.unseen = false := h
    simp [State.bothUnseen, ha]
  · have hb : s.cps.cpB.unseen = false := h
    simp [State.bothUnseen, hb]

theorem heartbeatLoss_partnerSees (s : State) (u : Nat) (hu : u < 2) (h : s.voted 1 u = true) (hm : s.pert.hbMutes = false)
    (ho : (s.cps.unit 1 (1 - u)).unseen = false) : Answers (exec (.heartbeatLoss 1 u true false) s) fun t =>
      t.cps.unit 1 u = { s.cps.unit 1 u with unseen := true } ∧ t.cps.active = s.cps.active ∧ FrameBut [.cps, .mbx, .perf] s t := by
  obtain ⟨hunit, hact, hother⟩ := unheard_unit u s
  have hb : (s.unheard u).bothUnseen = false := bothUnseen_other (u := 1 - u) (by omega) (by rw [hother hu, ho])
  have he : execHeartbeatLoss 1 u true false s = done (s.unheard u) := by
    rw [heartbeatLoss_unheard h hm, hb]
    rfl
  exact answers_event he ⟨hunit, hact, frameBut_done (by simp [State.unheard])⟩

/-- A vote that only notes what the referee hears leaves each unit voted as before. -/
theorem voted_unheard (u v : Nat) (s : State) : (s.unheard u).voted 1 v = s.voted 1 v := by
  have hw : ((s.unheard u).cps.unit 1 v).works = (s.cps.unit 1 v).works := by
    obtain ⟨l, n, hc⟩ := unheard_cps u s
    rw [hc]
    unfold Cps.modUnit Cps.unit
    by_cases hu : u = 0 <;> by_cases hv : v = 0 <;> simp [hu, hv, UnitRun.works, UnitRun.lost]
  unfold State.voted
  rw [hw]
  rfl

theorem bothUnseen_of {s : State} {u : Nat} (hu : u < 2) (h0 : s.voted 1 0 = true) (h1 : s.voted 1 1 = true)
    (h : (s.cps.unit 1 u).unseen = true) (ho : (s.cps.unit 1 (1 - u)).unseen = true) : s.bothUnseen = true := by
  obtain rfl | rfl : u = 0 ∨ u = 1 := by omega
  · have ha : s.cps.cpA.unseen = true := h
    have hb : s.cps.cpB.unseen = true := ho
    simp [State.bothUnseen, h0, h1, ha, hb]
  · have ha : s.cps.cpA.unseen = true := ho
    have hb : s.cps.cpB.unseen = true := h
    simp [State.bothUnseen, h0, h1, ha, hb]

theorem faultReset_started {s : State} (src : Nat) (h : s.rst.phase = .started) : s.faultReset false src = s.assertReset false src := by
  simp [State.faultReset, State.starting, h]

theorem heartbeatLoss_bothUnseen (s : State) (u : Nat) (hu : u < 2) (h0 : s.voted 1 0 = true) (h1 : s.voted 1 1 = true)
    (hm : s.pert.hbMutes = false) (ho : (s.cps.unit 1 (1 - u)).unseen = true) (hp : s.rst.phase = .started) :
    Answers (exec (.heartbeatLoss 1 u true false) s) fun t => t.rst.phase = .inReset ∧ t.rst.lastSrc = 7 ∧ t.rst.coldKind = false := by
  obtain ⟨hunit, -, hother⟩ := unheard_unit u s
  have hv : s.voted 1 u = true := by
    obtain rfl | rfl : u = 0 ∨ u = 1 := by omega
    · exact h0
    · exact h1
  have hb : (s.unheard u).bothUnseen = true :=
    bothUnseen_of hu ((voted_unheard u 0 s).trans h0) ((voted_unheard u 1 s).trans h1) (congrArg UnitRun.unseen hunit) (by rw [hother hu, ho])
  have hph : (s.unheard u).rst.phase = .started := hp
  have he : execHeartbeatLoss 1 u true false s = done ((s.unheard u).assertReset false 7) := by
    rw [heartbeatLoss_unheard hv hm, hb, if_pos rfl, faultReset_started 7 hph]
  have hcold : (s.unheard u).coldAt false = false := by simp [State.coldAt, hph]
  have hr : ((s.unheard u).assertReset false 7).rst = (s.unheard u).rst.reset false 7 (s.unheard u).glb.mode := by
    rw [assertReset_rst, hcold]
  refine answers_event he ?_
  rw [State.settle_rst, hr]
  exact ⟨rfl, rfl, rfl⟩

def UnitRun.heard (x : UnitRun) : UnitRun := { x with unseen := false }

def UnitRun.isolate (x : UnitRun) : UnitRun := if x.state = .ready then { x with state := .isolated } else x

theorem isolate_cps (s : State) : ∃ l n, (s.isolate 1).cps =
    ({ s.cps with records := l, recTotal := n } : Cps).modUnit 1 (s.standbyOf 1) UnitRun.isolate := ⟨_, _, rfl⟩

theorem heartbeatLoss_isolates (s : State) (h : s.voted 1 (s.activeOf 1) = true) (hm : s.pert.hbMutes = false)
    (hr : (s.cps.unit 1 (s.standbyOf 1)).state = .ready) : Answers (exec (.heartbeatLoss 1 (s.activeOf 1) false true) s) fun t =>
      (t.cps.unit 1 (s.standbyOf 1)).state = .isolated ∧ t.cps.active = s.cps.active ∧ FrameBut [.cps, .mbx, .perf] s t := by
  have he : execHeartbeatLoss 1 (s.activeOf 1) false true s = done ((s.refereeSees 1 (s.activeOf 1) true).isolate 1) := by
    simp [execHeartbeatLoss, State.vote, h, Pert.mutes, hm]
  have hact : (s.refereeSees 1 (s.activeOf 1) true).cps.active = s.cps.active := modUnit_active ..
  have hstb : (s.refereeSees 1 (s.activeOf 1) true).standbyOf 1 = s.standbyOf 1 := congrArg (fun a => 1 - b2n a) hact
  have hunit : (s.refereeSees 1 (s.activeOf 1) true).cps.unit 1 (s.standbyOf 1) = s.cps.unit 1 (s.standbyOf 1) :=
    Cps.modUnit_unit_ne (activeOf_cp_lt s) (standbyOf_cp_lt s) (standbyOf_cp_ne s) ..
  obtain ⟨l, n, hc⟩ := isolate_cps (s.refereeSees 1 (s.activeOf 1) true)
  rw [hstb] at hc
  refine answers_event he ⟨?_, ?_, frameBut_done (by simp)⟩
  · rw [State.settle_cps, hc, Cps.modUnit_unit_same]
    refine (congrArg (fun x => (UnitRun.isolate x).state) hunit).trans ?_
    simp [UnitRun.isolate, hr]
  · rw [State.settle_cps, hc, modUnit_active]
    exact hact

/-! ### Resynchronisation (R433 to R436) -/

def UnitRun.ready (x : UnitRun) : UnitRun := { x with state := .ready, readmitted := false }

/-- A unit of a pair that is ready again. -/
def State.readied (pair u : Nat) (s : State) : State :=
  (s.modCps (Cps.modUnit pair u UnitRun.ready)).unitRecord pair 7 u 7 (s.cps.unit pair u).events 0xFFFF

theorem readied_cps (pair u : Nat) (s : State) : ∃ l n, (s.readied pair u).cps =
    { s.cps.modUnit pair u UnitRun.ready with records := l, recTotal := n } := ⟨_, _, rfl⟩

theorem readied_unit (pair u : Nat) (s : State) : (s.readied pair u).cps.unit pair u = (s.cps.unit pair u).ready ∧
    (s.readied pair u).cps.active = s.cps.active ∧ (s.readied pair u).cps.update = s.cps.update := by
  obtain ⟨l, n, hc⟩ := readied_cps pair u s
  rw [hc]
  exact ⟨Cps.modUnit_unit_same pair u UnitRun.ready s.cps, modUnit_active .., modUnit_update ..⟩

theorem unitReady_tu (s : State) (u : Nat) (hu : u < 2) (h : (s.cps.unit 0 u).state = .resync) (hl : s.tim.localOsc = false) :
    Answers (exec (.unitReady 0 u) s) fun t =>
      t.cps.unit 0 u = { s.cps.unit 0 u with state := .ready, readmitted := false } ∧ t.tim.aligned = true ∧ t.tim.stbReady = s.tim.hoReady ∧
      t.tim.stbEst = s.tim.estimate ∧ t.tim.activeTu = s.tim.activeTu ∧ FrameBut [.cps, .mbx, .tim] s t := by
  have he : execUnitReady 0 u s = done ((s.readied 0 u).modTim fun t => { t with aligned := true, stbReady := t.hoReady, stbEst := t.estimate }) := by
    simp [execUnitReady, Nat.not_le.mpr hu, h, hl]
    rfl
  exact answers_event he ⟨(readied_unit 0 u s).1, rfl, rfl, rfl, rfl, frameBut_done (by simp [State.readied])⟩

theorem unitReady_cp (s : State) (u : Nat) (hu : u < 2) (h : (s.cps.unit 1 u).state = .resync) (hn : s.cps.update = none) :
    Answers (exec (.unitReady 1 u) s) fun t =>
      t.cps.unit 1 u = { s.cps.unit 1 u with state := .ready, readmitted := false } ∧ t.cps.active = s.cps.active ∧
      t.glb.remap = (setBit s.glb.remap u true) ∧ FrameBut [.cps, .mbx, .glb] s t := by
  obtain ⟨hunit, hact, hup⟩ := readied_unit 1 u s
  have hup2 : (s.readied 1 u).cps.update = none := hup.trans hn
  have he : execUnitReady 1 u s = done ((s.readied 1 u).modGlb fun g => { g with remap := setBit g.remap u true }) := by
    unfold State.readied UnitRun.ready at hup2 ⊢
    simp [execUnitReady, Nat.not_le.mpr hu, h, hup2]
  exact answers_event he ⟨hunit, hact, by rw [settle_remap]; rfl, frameBut_done (by simp [State.readied])⟩

def UnitRun.retire (x : UnitRun) : UnitRun := { x with state := .retired }

/-- A unit of a pair that did not come back in time. -/
def State.timedOut (pair u : Nat) (s : State) : State :=
  (s.modCps (Cps.modUnit pair u UnitRun.retire)).unitRecord pair 2 u 6 (s.cps.unit pair u).events 0xFFFF

theorem timedOut_unit (pair u : Nat) (s : State) : ((s.timedOut pair u).cps.unit pair u).state = .retired :=
  congrArg UnitRun.state (Cps.modUnit_unit_same pair u UnitRun.retire s.cps)

theorem endUpdate_unit (status pair u : Nat) (s : State) : (s.endUpdate status).cps.unit pair u = s.cps.unit pair u := by
  unfold State.endUpdate
  split
  · rfl
  · rfl

theorem resyncTimeout_tu (s : State) (u : Nat) (hu : u < 2) (h : (s.cps.unit 0 u).state = .resync)
    (hd : 11718750 ≤ since s.tick (s.cps.unit 0 u).since) :
    Answers (exec (.resyncTimeout 0 u) s) fun t => (t.cps.unit 0 u).state = .retired ∧ FrameBut [.cps, .mbx] s t := by
  have he : execResyncTimeout 0 u s = done (s.timedOut 0 u) := by
    simp [execResyncTimeout, Nat.not_le.mpr hu, h, Nat.not_lt.mpr hd]
    rfl
  exact answers_event he ⟨timedOut_unit 0 u s, frameBut_done (by simp [State.timedOut])⟩

theorem resyncTimeout_cp (s : State) (u : Nat) (hu : u < 2) (h : (s.cps.unit 1 u).state = .resync)
    (hd : 2929688 ≤ since s.tick (s.cps.unit 1 u).since) :
    Answers (exec (.resyncTimeout 1 u) s) fun t => (t.cps.unit 1 u).state = .retired ∧ FrameBut [.cps, .mbx] s t := by
  have he : execResyncTimeout 1 u s = done (if (s.timedOut 1 u).cps.update.isSome then (s.timedOut 1 u).endUpdate 0x8003 else s.timedOut 1 u) := by
    simp [execResyncTimeout, Nat.not_le.mpr hu, h, Nat.not_lt.mpr hd]
    rfl
  have hf : FrameBut [.cps, .mbx] s (s.timedOut 1 u) := frameBut_of_rest (by simp [State.timedOut])
  split at he
  · exact answers_event he ⟨(congrArg UnitRun.state (endUpdate_unit 0x8003 1 u _)).trans (timedOut_unit 1 u s),
      (hf.trans (frameBut_of_rest (by simp))).then_settle⟩
  · exact answers_event he ⟨timedOut_unit 1 u s, hf.then_settle⟩

theorem unitWindowEnd_clears (s : State) (p u : Nat) (w : Cfn) (hp : p < 2) (hu : u < 2) (hw : (s.cps.unit p u).window = some w)
    (hd : 8437500000 ≤ since s.tick w) (hr : (s.cps.unit p u).state ≠ .retired) :
    Answers (exec (.unitWindowEnd p u) s) fun t =>
      t.cps.unit p u = { s.cps.unit p u with events := 0, window := none } ∧ FrameBut [.cps] s t := by
  have he : ∃ f : UnitRun → UnitRun, execUnitWindowEnd p u s = done (s.modCps (Cps.modUnit p u f)) ∧
      f (s.cps.unit p u) = { s.cps.unit p u with events := 0, window := none } := by
    simp only [execUnitWindowEnd, ge_iff_le, Nat.not_le.mpr hp, Nat.not_le.mpr hu, decide_false, Bool.or_self, Bool.false_eq_true, if_false]
    exact ⟨_, rfl, by simp [hw, hd, hr]⟩
  obtain ⟨f, he, hf⟩ := he
  exact answers_event he ⟨(Cps.modUnit_unit_same p u f s.cps).trans hf, frameBut_done (by simp)⟩

/-! ### Swaps, the journal and errors of a processor's own memory (R428, R429) -/

theorem cpFlip_unit_ne (cause : Nat) (s : State) {v : Nat} (hv : v < 2) (h : v ≠ 1 - b2n s.cps.active) :
    (s.cpFlip cause).cps.unit 1 v = s.cps.unit 1 v :=
  Cps.modUnit_unit_ne (u := 1 - b2n s.cps.active) (by omega) hv h (fun u => { u with state := .active }) s.cps

/-- The swap of the control processors: the one that was active becomes ready before it hands over. -/
def State.stepDown (s : State) : State := s.modCps (Cps.modUnit 1 (s.activeOf 1) fun u => { u with state := .ready })

theorem cpSwap_units (cause : Nat) (s : State) : (s.cpSwap cause).cps.active = (!s.cps.active) ∧
    ((s.cpSwap cause).cps.unit 1 (s.activeOf 1)).state = .ready ∧ ((s.cpSwap cause).cps.unit 1 (s.standbyOf 1)).state = .active ∧
    (s.cpSwap cause).cps.lastSwap = s.tick := by
  have ha : s.stepDown.cps.active = s.cps.active := modUnit_active ..
  have hu : s.stepDown.cps.unit 1 (s.activeOf 1) = { s.cps.unit 1 (s.activeOf 1) with state := .ready } := Cps.modUnit_unit_same ..
  obtain ⟨hflip, hnew, hswap, -⟩ := cpFlip_cps cause s.stepDown
  have hold := cpFlip_unit_ne cause s.stepDown (activeOf_cp_lt s) (by rw [ha]; exact (standbyOf_cp_ne s).symm)
  rw [ha] at hflip hnew
  exact ⟨hflip, (congrArg UnitRun.state hold).trans (congrArg UnitRun.state hu), hnew, hswap⟩

theorem cpPeriodicSwap_due (s : State) (h0 : s.cps.swapH ≠ 0) (hd : hourFrames s.cps.swapH ≤ since s.tick s.cps.lastSwap)
    (hc : s.coverReady 1 = true) (hn : s.cps.update = none) (hh : s.rst.cpHalted = 0) (hp : s.rst.phase = .started) :
    Answers (exec .cpPeriodicSwap s) fun t =>
      t.cps.active = !s.cps.active ∧ (t.cps.unit 1 (s.activeOf 1)).state = .ready ∧ (t.cps.unit 1 (s.standbyOf 1)).state = .active ∧
      t.cps.lastSwap = s.tick ∧ FrameBut [.cps, .mbx, .sch] s t := by
  have he : execCpPeriodicSwap s = done (s.cpSwap 0) := by
    simp [execCpPeriodicSwap, State.cpSwapDue, State.cpSwapReady, h0, hd, hc, hn, hh, hp]
  obtain ⟨hact, hready, hactive, hswap⟩ := cpSwap_units 0 s
  exact answers_event he ⟨hact, hready, hactive, hswap, frameBut_done (by simp)⟩

theorem cpPeriodicSwap_waits (s : State) (h0 : s.cps.swapH ≠ 0) (hd : hourFrames s.cps.swapH ≤ since s.tick s.cps.lastSwap)
    (hc : s.coverReady 1 = false) : Answers (exec .cpPeriodicSwap s) fun t => t.cps = { s.cps with swapDue := true } ∧ FrameBut [.cps] s t := by
  have he : execCpPeriodicSwap s = done (s.modCps fun c => { c with swapDue := true }) := by
    simp [execCpPeriodicSwap, State.cpSwapDue, State.cpSwapReady, h0, hd, hc]
  exact answers_event he ⟨rfl, frameBut_done (by simp)⟩

theorem journalRecord_applied (s : State) (x : JRec) (l : List JRec) (hs : (s.cps.unit 1 (s.standbyOf 1)).state ≠ .retired)
    (hj : s.mbx.journal = x :: l) : Answers (exec .journalRecord s) fun t =>
      t.mbx = { s.mbx with journal := l } ∧ t.cps.applied = s.cps.applied + 1 ∧ FrameBut [.cps, .mbx] s t := by
  have he : execJournalRecord s = done ((s.modCps fun c => { c with
      applied := c.applied + 1, checkpoint := c.checkpoint || c.update.isSome }).modMbx fun m => { m with journal := m.journal.drop 1 }) := by
    simp [execJournalRecord, hs, hj]
  have hm : { s.mbx with journal := s.mbx.journal.drop 1 } = { s.mbx with journal := l } := by
    rw [hj]
    rfl
  exact answers_event he ⟨hm, rfl, frameBut_done (by simp)⟩

theorem memRun_noted (s : State) (m : Nat) : ((s.modMemRun m (MemRun.note false)).memRun m).ue = satAdd (s.memRun m).ue 1 :=
  congrArg MemRun.ue (tget_tmod_same ({} : MemRun) s.mem.mems m (MemRun.note false))

theorem cpBankError_runs {s : State} (u : Nat) (hu : u < 2) (hb : s.rst.bootOkSeen = true) (hs : s.rst.scanDirty = false) (hh : s.rst.cpHalted = 0) :
    s.cpBankError u = if u = s.activeOf 1 then s.cpLost 2 8 else if (s.cps.unit 1 u).state = .retired then s else s.standbyLost 1 2 := by
  simp [State.cpBankError, Nat.not_le.mpr hu, State.nganasRuns, hb, hs, hh]

theorem cpBankError_active (s : State) (hb : s.rst.bootOkSeen = true) (hs : s.rst.scanDirty = false) (hh : s.rst.cpHalted = 0)
    (hc : s.coverReady 1 = true) : Answers (exec (.cpBankUncorrectableError (s.activeOf 1)) s) fun t =>
      t.cps.active = !s.cps.active ∧ t.glb.remap = (setBit s.glb.remap (s.activeOf 1) false) ∧
      (t.memRun (s.activeOf 1)).ue = satAdd (s.memRun (s.activeOf 1)).ue 1 ∧ FrameBut [.cps, .mbx, .glb, .sch, .mem] s t := by
  have hu := activeOf_cp_lt s
  have hc2 : (s.modMemRun (s.activeOf 1) (MemRun.note false)).coverReady 1 = true := hc
  have he : execCpBankUncorrectableError (s.activeOf 1) s = done ((s.modMemRun (s.activeOf 1) (MemRun.note false)).covered 2) := by
    unfold execCpBankUncorrectableError
    rw [if_neg (Nat.not_le.mpr hu), cpBankError_runs (s := s.modMemRun (s.activeOf 1) (MemRun.note false)) _ hu hb hs hh, cpLost_covered 2 8 hc2]
    exact congrArg done (if_pos rfl)
  obtain ⟨hact, -, hremap, hfr⟩ := covered_spec 2 (s.modMemRun (s.activeOf 1) (MemRun.note false))
  have hmem : ((s.modMemRun (s.activeOf 1) (MemRun.note false)).covered 2).mem = (s.modMemRun (s.activeOf 1) (MemRun.note false)).mem :=
    hfr .mem (by decide)
  refine answers_event he ⟨hact, by rw [settle_remap, hremap]; rfl, ?_, ?_⟩
  · exact (congrArg (fun m : Mem => (tget ({} : MemRun) m.mems (s.activeOf 1)).ue) hmem).trans (memRun_noted s _)
  · exact ((frameBut_of_rest (by simp)).trans (hfr.mono (by simp))).then_settle

theorem cpBankError_standby (s : State) (hb : s.rst.bootOkSeen = true) (hs : s.rst.scanDirty = false) (hh : s.rst.cpHalted = 0)
    (hr : (s.cps.unit 1 (s.standbyOf 1)).state ≠ .retired) (hn : s.cps.update = none) :
    Answers (exec (.cpBankUncorrectableError (s.standbyOf 1)) s) fun t =>
      t.cps.active = s.cps.active ∧ (t.cps.unit 1 (s.standbyOf 1)).events = (s.cps.unit 1 (s.standbyOf 1)).events + 1 ∧
      t.glb.remap = (setBit s.glb.remap (s.standbyOf 1) false) ∧
      (t.memRun (s.standbyOf 1)).ue = satAdd (s.memRun (s.standbyOf 1)).ue 1 ∧ FrameBut [.cps, .mbx, .glb, .mem] s t := by
  have hu := standbyOf_cp_lt s
  have hn2 : (s.modMemRun (s.standbyOf 1) (MemRun.note false)).cps.update = none := hn
  have he : execCpBankUncorrectableError (s.standbyOf 1) s =
      done ((s.modMemRun (s.standbyOf 1) (MemRun.note false)).unitFault 1 (s.standbyOf 1) 2 0xFFFF) := by
    unfold execCpBankUncorrectableError
    rw [if_neg (Nat.not_le.mpr hu), cpBankError_runs (s := s.modMemRun (s.standbyOf 1) (MemRun.note false)) _ hu hb hs hh, standbyLost_cp 2 hn2]
    exact congrArg done ((if_neg (standbyOf_cp_ne s)).trans (if_neg hr))
  obtain ⟨hact, -, hunit, hremap⟩ := unitFault_cp (s.standbyOf 1) 2 0xFFFF (s.modMemRun (s.standbyOf 1) (MemRun.note false))
  have hfr : FrameBut [.cps, .mbx, .glb] (s.modMemRun (s.standbyOf 1) (MemRun.note false)) _ :=
    frameBut_of_rest (State.unitFault_cp_rest (by decide) (s.standbyOf 1) 2 0xFFFF (s.modMemRun (s.standbyOf 1) (MemRun.note false)))
  refine answers_event he ⟨hact, congrArg UnitRun.events hunit, by rw [settle_remap, hremap]; rfl, ?_, ?_⟩
  · exact (congrArg (fun m : Mem => (tget ({} : MemRun) m.mems (s.standbyOf 1)).ue) (hfr .mem (by decide))).trans (memRun_noted s _)
  · exact ((frameBut_of_rest (by simp)).trans (hfr.mono (by simp))).then_settle

end Sys2Proof.Machine

open Sys2Proof Sys2Proof.Machine

/-- Settles O44: a vote, a fault, a swap or a return of a unit changes the unit that it names, and the pair follows it. -/
theorem redundantUnits : Obligations.RedundantUnits :=
  ⟨heartbeatLoss_active, heartbeatLoss_standby, heartbeatLoss_seen, unitReady_tu, unitReady_cp, resyncTimeout_tu, resyncTimeout_cp,
    unitWindowEnd_clears, cpPeriodicSwap_due, journalRecord_applied, cpBankError_active, cpBankError_standby, heartbeatLoss_partnerSees,
    heartbeatLoss_bothUnseen, heartbeatLoss_isolates, cpPeriodicSwap_waits⟩

end

section
/-!
PROOFS. The roles of the twin.
-/

namespace Sys2Proof.Machine

/-! ### Taking a role (R324) -/

/-- What a twin that takes a role holds, and what it keeps. -/
theorem setRole_twin (x : TwinRole) (cause : Nat) (s : State) :
    (s.setRole x cause).twin.role = x ∧ (s.setRole x cause).twin.act = (x.wantsAct && !s.twin.peerAct) ∧
    (s.setRole x cause).twin.yielding = none ∧ (s.setRole x cause).twin.lossAt = s.twin.lossAt ∧ (s.setRole x cause).twin.hbOk = s.twin.hbOk ∧
    (s.setRole x cause).twin.sticky = setBit s.twin.sticky 0 true := ⟨rfl, rfl, rfl, rfl, rfl, rfl⟩

/-- A role is taken without a word to the rest of the device, but for the summary bit. -/
theorem setRole_rest (x : TwinRole) (cause : Nat) (s : State) :
    (s.setRole x cause).glb = { s.glb with intSticky := setBit s.glb.intSticky 23 true } := rfl

theorem leaveMate_twin (s : State) : s.leaveMate.twin = s.twin := by
  unfold State.leaveMate
  split
  · rfl
  · rfl

theorem goActive_twin (cause : Nat) (s : State) :
    (s.goActive cause).twin.role = .activeAlone ∧ (s.goActive cause).twin.act = !s.twin.peerAct := by
  have h : (s.goActive cause).twin = (s.setRole .activeAlone cause).twin := leaveMate_twin _
  obtain ⟨hrole, hact, -⟩ := setRole_twin .activeAlone cause s
  exact ⟨(congrArg Twin.role h).trans hrole, (congrArg Twin.act h).trans hact⟩

/-! ### Loss of the heartbeat and takeovers (R323, R324) -/

/-- The twin that missed the heartbeat. -/
def State.hbMissed (s : State) : State :=
  (s.modTwin fun t => { t with lossAt := some s.tick, actLow := !t.peerAct, hbOk := false }).twinFlag 2

theorem twinHbLoss_leader (s : State) (hr : s.twin.role = .leader) (hl : s.twin.lossDue = true) (hg : s.glb.released = true) :
    Answers (exec .twinHbLoss s) fun t =>
      t.twin.role = (if s.twin.senior then .activeAlone else .standbyAlone) ∧ t.twin.lossAt = some s.tick ∧ t.twin.hbOk = false ∧
      t.twin.sticky.getLsbD 2 = true ∧ t.twin.sticky.getLsbD 0 = true ∧ FrameBut [.twin, .glb, .mbx] s t := by
  have he : execTwinHbLoss s = done (s.hbMissed.setRole (if s.twin.senior then .activeAlone else .standbyAlone) 1) := by
    cases hs : s.twin.senior
    · simp [execTwinHbLoss, hr, hl, hg, hs]
      rfl
    · simp [execTwinHbLoss, hr, hl, hg, hs]
      rfl
  generalize (if s.twin.senior then TwinRole.activeAlone else .standbyAlone) = x at he ⊢
  have hmiss : s.hbMissed.twin.sticky.getLsbD 2 = true := getLsbD_setBit_true_self _ (by decide)
  refine answers_event he ⟨rfl, rfl, rfl, ?_, getLsbD_setBit_true_self _ (by decide), frameBut_done (by simp [State.hbMissed])⟩
  exact (getLsbD_setBit_ne _ (by decide) _).trans hmiss

theorem twinActivate_takes (s : State) (d : Cfn) (hr : s.twin.role = .follower) (hs : s.twin.senior = true) (hl : s.twin.lossAt = some d)
    (hd : s.twin.hbLoss + 2 ≤ since s.tick d) :
    Answers (exec .twinActivate s) fun t => t.twin.role = .activeAlone ∧ t.twin.act = !s.twin.peerAct ∧ FrameBut [.twin, .glb, .mbx] s t := by
  have he : execTwinActivate s = done (s.goActive 1) := by
    simp [execTwinActivate, hr, hs, hl, hd]
  obtain ⟨hrole, hact⟩ := goActive_twin 1 s
  exact answers_event he ⟨hrole, hact, frameBut_done (by simp)⟩

theorem twinStandbyTakeover_takes (s : State) (d : Cfn) (hr : s.twin.role = .standbyAlone) (ha : s.twin.actLow = true)
    (hl : s.twin.lossAt = some d) (hd : 2 * s.twin.hbLoss + 8 ≤ since s.tick d) :
    Answers (exec .twinStandbyTakeover s) fun t =>
      t.twin.role = .activeAlone ∧ t.twin.act = !s.twin.peerAct ∧ FrameBut [.twin, .glb, .mbx] s t := by
  have he : execTwinStandbyTakeover s = done (s.goActive 2) := by
    simp [execTwinStandbyTakeover, hr, ha, hl, hd]
  obtain ⟨hrole, hact⟩ := goActive_twin 2 s
  exact answers_event he ⟨hrole, hact, frameBut_done (by simp)⟩

/-! ### Joining (R316, R326) -/

/-- The twin whose CFN is aligned. -/
def Twin.aligned (t : Twin) : Twin := { t with joined := t.joined || t.joining, domAlign := false, secSuspect := true }

theorem twinJoinAligned_takes (s : State) (c : Cfn) (n : Nat) (hj : s.twin.joinAs ≠ 0) (hn : s.twin.joined = false) (hd : s.twin.domAlign = false)
    (he : s.sch.dataEnable = false) (hg : s.glb.released = true) (hl : n ∈ s.twinLanes) (hk : s.lockedStitch n = true)
    (h3 : 3 ≤ (s.lane n).stRun) (hc : (s.lane n).stCfn = some (c - 1)) : Answers (exec (.twinJoinAligned c) s) fun t =>
      t.glb.cfn = c ∧ t.twin.joined = true ∧ t.twin.role = s.twin.role ∧ FrameBut [.glb, .twin] s t := by
  have hany : (s.twinLanes.any fun n => s.lockedStitch n && decide (3 ≤ (s.lane n).stRun) &&
      (s.lane n).stCfn.any fun d => decide (c = cfnAdd d 1)) = true := by
    refine List.any_eq_true.mpr ⟨n, hl, ?_⟩
    simp [hk, h3, hc, cfnAdd]
  have ha : s.twin.aligning = true := by simp [Twin.aligning, hj, hn]
  have hx : execTwinJoinAligned c s = done ((s.takeCfn c).modTwin Twin.aligned) := by
    simp only [execTwinJoinAligned, hd, Bool.false_eq_true, if_false, ha, he, hg, hany, Bool.not_true, Bool.or_self]
    rfl
  have hjoin : (s.twin.joined || s.twin.joining) = true := by simp [Twin.joining, hj]
  have hf : FrameBut [.glb, .twin] s ((s.takeCfn c).modTwin Twin.aligned) :=
    ((frameBut_modGlb _ s).mono (by simp)).trans ((frameBut_modTwin Twin.aligned (s.takeCfn c)).mono (by simp))
  refine answers_event hx ⟨?_, hjoin, rfl, hf.then_settle⟩
  rw [State.settle_glb]
  rfl

theorem joinReady_of {t : Twin} (hj : t.joined = true) (hr : 100 ≤ t.hbRun) (ha : t.joinAs ≠ 0) : t.joinReady = true := by
  simp [Twin.joinReady, Twin.joining, hj, hr, ha]

/-- The twin that joined in a role. -/
def Twin.endJoin (x : TwinRole) (t : Twin) : Twin :=
  { t with joinAs := 0, joinFrom := none, sweep := if x = .leader then 0 else 8192, swept := 0, diverged := false, unlinked := false }

/-- The end of a join, before the mode follows. -/
def State.joinEnds (x : TwinRole) (s : State) : State :=
  match s.twin.joinFrom with
  | some o => ((s.setRole x 3).modTwin (Twin.endJoin x)).complete o 0x0D01 0 x.code []
  | none => (s.setRole x 3).modTwin (Twin.endJoin x)

theorem joinEnds_spec (x : TwinRole) (s : State) : (s.joinEnds x).twin.role = x ∧ (s.joinEnds x).twin.joinFrom = none ∧
    (s.joinEnds x).twin.sweep = (if x = .leader then 0 else 8192) ∧ (s.joinEnds x).glb = (s.setRole x 3).glb ∧
    (s.joinEnds x).mateFollowWaits = s.mateFollowWaits ∧ FrameBut [.twin, .glb, .mbx] s (s.joinEnds x) := by
  unfold State.joinEnds
  split
  · exact ⟨rfl, rfl, rfl, rfl, rfl, frameBut_of_rest (by simp)⟩
  · exact ⟨rfl, rfl, rfl, rfl, rfl, frameBut_of_rest (by simp)⟩

theorem twinJoinDone_ends {s : State} (hj : s.twin.joined = true) (hr : 100 ≤ s.twin.hbRun) (ha : s.twin.joinAs ≠ 0) :
    execTwinJoinDone s = done (if (if s.twin.joinAs = 2 then TwinRole.leader else .follower) = .leader
      then s.joinEnds .leader
      else if (s.joinEnds .follower).mateFollowWaits then (s.joinEnds .follower).trigger .mateFollow
      else (s.joinEnds .follower).setMode .mateFollow 3) := by
  unfold State.joinEnds
  by_cases h2 : s.twin.joinAs = 2
  · simp only [execTwinJoinDone, joinReady_of hj hr ha, h2, Bool.not_true, Bool.false_eq_true, if_false, if_true]
    rfl
  · simp only [execTwinJoinDone, joinReady_of hj hr ha, h2, Bool.not_true, Bool.false_eq_true, if_false, reduceCtorEq]
    rfl

theorem twinJoinDone_leader (s : State) (hj : s.twin.joined = true) (hr : 100 ≤ s.twin.hbRun) (ha : s.twin.joinAs = 2) :
    Answers (exec .twinJoinDone s) fun t =>
      t.twin.role = .leader ∧ t.twin.joinFrom = none ∧ t.twin.sweep = 0 ∧ FrameBut [.twin, .glb, .mbx] s t := by
  have he := twinJoinDone_ends hj hr (by simp [ha])
  rw [if_pos (by simp [ha])] at he
  obtain ⟨hrole, hfrom, hsweep, -, -, hfr⟩ := joinEnds_spec .leader s
  exact answers_event he ⟨hrole, hfrom, hsweep, hfr.then_settle⟩

theorem twinJoinDone_follower {s : State} (hj : s.twin.joined = true) (hr : 100 ≤ s.twin.hbRun) (ha : s.twin.joinAs = 3) :
    execTwinJoinDone s = done (if s.mateFollowWaits then (s.joinEnds .follower).trigger .mateFollow
      else (s.joinEnds .follower).setMode .mateFollow 3) := by
  obtain ⟨-, -, -, -, hwaits, -⟩ := joinEnds_spec .follower s
  have he := twinJoinDone_ends hj hr (by simp [ha])
  rw [if_neg (by simp [ha]), hwaits] at he
  exact he

theorem setMode_frame (m : Mode) (trigger : Nat) (s : State) : FrameBut [.glb, .mbx] s (s.setMode m trigger) :=
  ((frameBut_modGlb _ s).mono (by simp)).trans (((frameBut_raise 23 _).mono (by simp)).trans ((frameBut_event _ _ _ _).mono (by simp)))

theorem twinJoinDone_mode (s : State) (hj : s.twin.joined = true) (hr : 100 ≤ s.twin.hbRun) (ha : s.twin.joinAs = 3)
    (hw : s.mateFollowWaits = false) : Answers (exec .twinJoinDone s) fun t =>
      t.twin.role = .follower ∧ t.glb.mode = .mateFollow ∧ t.twin.joinFrom = none ∧ FrameBut [.twin, .glb, .mbx] s t := by
  have he := twinJoinDone_follower hj hr ha
  rw [hw, if_neg Bool.false_ne_true] at he
  obtain ⟨hrole, hfrom, -, -, -, hfr⟩ := joinEnds_spec .follower s
  refine answers_event he ⟨hrole, ?_, hfrom, (hfr.trans ((setMode_frame .mateFollow 3 _).mono (by simp))).then_settle⟩
  rw [settle_mode]
  rfl

theorem twinJoinDone_waits (s : State) (hj : s.twin.joined = true) (hr : 100 ≤ s.twin.hbRun) (ha : s.twin.joinAs = 3)
    (hw : s.mateFollowWaits = true) : Answers (exec .twinJoinDone s) fun t =>
      t.twin.role = .follower ∧ t.glb.mode = s.glb.mode ∧ ModeTrigger.mateFollow ∈ t.glb.triggers ∧ t.twin.joinFrom = none ∧
      FrameBut [.twin, .glb, .mbx] s t := by
  have he := twinJoinDone_follower hj hr ha
  rw [hw, if_pos rfl] at he
  obtain ⟨hrole, hfrom, -, hglb, -, hfr⟩ := joinEnds_spec .follower s
  have hmode : ((s.joinEnds .follower).trigger .mateFollow).glb.mode = (s.joinEnds .follower).glb.mode := rfl
  refine answers_event he ⟨hrole, ?_, ?_, hfrom, (hfr.trans ((frameBut_modGlb _ _).mono (by simp))).then_settle⟩
  · rw [settle_mode]
    exact hmode.trans ((congrArg Glb.mode hglb).trans rfl)
  · rw [settle_triggers]
    exact mem_addNew _ _

/-! ### The hand-over (R325) -/

theorem twinHandover_starts (s : State) (c : Nat) (hr : s.twin.role = .leader) (hy : s.twin.yielding = none) (hg : s.glb.released = true) :
    Answers (exec (.twinHandover c) s) fun t => t.twin = { s.twin with yielding := some (cfnAdd s.tick 1) } ∧ FrameBut [.twin] s t := by
  have he : execTwinHandover c s = done (s.modTwin fun t => { t with yielding := some (cfnAdd s.tick 1) }) := by
    simp [execTwinHandover, hr, hy, hg, State.startYield]
  exact answers_event he ⟨rfl, frameBut_done (by simp)⟩

theorem twinHandover_yields (s : State) (c : Nat) (y : Cfn) (hr : s.twin.role = .leader) (hy : s.twin.yielding = some y)
    (hd : cfnGe s.tick (cfnAdd y 1) = true) : Answers (exec (.twinHandover c) s) fun t =>
      t.twin.role = .standbyAlone ∧ t.twin.yielding = none ∧ t.twin.act = false ∧ FrameBut [.twin, .glb, .mbx] s t := by
  have he : execTwinHandover c s = done (s.setRole .standbyAlone c) := by
    simp [execTwinHandover, hr, hy, hd]
  exact answers_event he ⟨rfl, rfl, rfl, frameBut_done (by simp)⟩

theorem twinHandover_takes (s : State) (c : Nat) (y : Cfn) (hr : s.twin.role = .follower) (hy : s.twin.peerYield = some y)
    (hd : cfnGe s.tick (cfnAdd y 2) = true) : Answers (exec (.twinHandover c) s) fun t =>
      t.twin.role = .activeAlone ∧ FrameBut [.twin, .glb, .mbx] s t := by
  have he : execTwinHandover c s = done (s.goActive c) := by
    simp [execTwinHandover, hr, hy, hd]
  exact answers_event he ⟨(goActive_twin c s).1, frameBut_done (by simp)⟩

end Sys2Proof.Machine

open Sys2Proof Sys2Proof.Machine

/-- Settles O45: each event of the twin that is due takes the role that it names, and the device's mode follows a join in Mate-follow. -/
theorem twinRoles : Obligations.TwinRoles :=
  ⟨twinHbLoss_leader, twinActivate_takes, twinStandbyTakeover_takes, twinJoinAligned_takes, twinJoinDone_leader, twinJoinDone_mode,
    twinHandover_starts, twinHandover_yields, twinHandover_takes, twinJoinDone_waits⟩

end

section
/-!
PROOFS. The power manager.
-/

namespace Sys2Proof.Machine

/-! ### Samples (R421) -/

/-- The power manager and the phase stay. -/
def SamePower (s t : State) : Prop := t.pwr = s.pwr ∧ t.rst.phase = s.rst.phase

theorem foldl_samePower {α : Type} {f : State → α → State} (h : ∀ s a, SamePower s (f s a)) (l : List α) (s : State) :
    SamePower s (l.foldl f s) := by
  induction l generalizing s with
  | nil => exact ⟨rfl, rfl⟩
  | cons a l ih =>
    obtain ⟨hp, hr⟩ := ih (f s a)
    exact ⟨hp.trans (h s a).1, hr.trans (h s a).2⟩

theorem tget_map_range {α : Type} (d : α) (f : Nat → α) (n i : Nat) (h : i < n) : tget d ((List.range n).map fun i => (i, f i)) i = f i := by
  have hl : List.lookup i ((List.range n).map fun i => (i, f i)) = some (f i) := by
    induction n with
    | zero => omega
    | succ n ih =>
      rw [List.range_succ, List.map_append, List.lookup_append]
      by_cases hn : i < n
      · rw [ih hn]
        rfl
      · obtain rfl : i = n := by omega
        rw [List.lookup_eq_none_iff.mpr (by simp; omega)]
        simp
  exact congrArg (Option.getD · d) hl

/-- A sample holds the reading of each sensor, and leaves the voltage. -/
theorem takeSample_holds (l : List Int) (s : State) :
    (∀ i, i < 16 → tget (false, 0) (s.takeSample l).pwr.temps i = (sensorOk l i, (l[i]?).getD 0)) ∧
    (s.takeSample l).pwr.cmdMv = s.pwr.cmdMv ∧ (s.takeSample l).rst.phase = s.rst.phase := by
  unfold State.takeSample
  extract_lets d temps p0 pt hot ph p2 _
  have hp : p2.temps = temps ∧ p2.cmdMv = s.pwr.cmdMv := by
    unfold p2
    split
    · exact ⟨rfl, rfl⟩
    · exact ⟨rfl, rfl⟩
  obtain ⟨hpwr, hph⟩ := foldl_samePower (f := fun s f => s.therm 4 (p2.faultSensor f) (tget (false, 0) temps (p2.faultSensor f)).2)
    (fun _ _ => ⟨rfl, rfl⟩) (p2.faults.filter fun f => !s.pwr.faults.contains f) { d.2 with pwr := p2 }
  refine ⟨fun i hi => ?_, (congrArg Pwr.cmdMv hpwr).trans hp.2, hph⟩
  exact (congrArg (tget (false, (0 : Int)) · i) ((congrArg Pwr.temps hpwr).trans hp.1)).trans
    (tget_map_range (false, (0 : Int)) (fun i => (sensorOk l i, (l[i]?).getD 0)) 16 i hi)

/-- The temperatures, the voltage and the phase stay. -/
def SameSample (s t : State) : Prop := t.pwr.temps = s.pwr.temps ∧ t.pwr.cmdMv = s.pwr.cmdMv ∧ t.rst.phase = s.rst.phase

theorem SameSample.refl (s : State) : SameSample s s := ⟨rfl, rfl, rfl⟩

theorem SameSample.trans {s t u : State} (h : SameSample s t) (k : SameSample t u) : SameSample s u :=
  ⟨k.1.trans h.1, k.2.1.trans h.2.1, k.2.2.trans h.2.2⟩

theorem thermalSteps_sample (s : State) : SameSample s s.thermalSteps := by
  unfold State.thermalSteps
  extract_lets t hot u
  have hu : SameSample s u := by
    unfold u
    split
    · exact ⟨rfl, rfl, rfl⟩
    · split
      · exact ⟨rfl, rfl, rfl⟩
      · exact .refl s
  refine hu.trans ?_
  clear_value u
  split
  · split
    · exact ⟨rfl, rfl, rfl⟩
    · exact ⟨rfl, rfl, rfl⟩
  · split
    · exact ⟨rfl, rfl, rfl⟩
    · exact .refl u

/-- What a tamper alarm can touch. -/
def tamperParts : List Part := [.sch, .pnd, .dp, .eng, .key, .bus, .mem, .mbx, .drawn]

theorem State.abortMarch_tamper_rest (r : MarchRun) (s : State) : (s.abortMarch r).rest tamperParts = s.rest tamperParts := by
  simp [State.abortMarch, tamperParts]

theorem State.abortMarches_tamper_rest (which : MarchRun → Bool) (s : State) :
    (s.abortMarches which).rest tamperParts = s.rest tamperParts := by
  simp [State.abortMarches, State.abortMarch_tamper_rest]

theorem tamper_frame (src : Nat) (s : State) : FrameBut tamperParts s (s.tamper src) := by
  refine frameBut_of_rest ?_
  have h := State.abortMarches_tamper_rest (fun m => m.memory = 4 || m.memory = 5 || m.memory = 0x18) s
  unfold tamperParts at h ⊢
  unfold State.tamper State.wipe
  dsimp only
  split
  · rfl
  · simp [h]

theorem tamper_sample (src : Nat) (s : State) : SameSample s (s.tamper src) := by
  have hp : (s.tamper src).pwr = s.pwr := tamper_frame src s .pwr (by decide)
  have hr : (s.tamper src).rst = s.rst := tamper_frame src s .rst (by decide)
  exact ⟨congrArg Pwr.temps hp, congrArg Pwr.cmdMv hp, congrArg Rst.phase hr⟩

theorem tempSample_holds (s : State) (l : List Int) (hp : s.rst.powered = true) (hr : s.rst.phase ≠ .inReset) :
    Answers (exec (.tempSample l) s) fun t =>
      (∀ i, i < 16 → tget (false, 0) t.pwr.temps i = (sensorOk l i, (l[i]?).getD 0)) ∧ t.pwr.cmdMv = s.pwr.cmdMv ∧
      t.rst.phase = s.rst.phase := by
  have he : ∃ u, execTempSample l s = done u ∧ SameSample (s.takeSample l) u := by
    simp only [execTempSample, hp, hr, Bool.not_true, decide_false, Bool.or_self, Bool.false_eq_true, if_false]
    split
    · exact ⟨_, rfl, (thermalSteps_sample _).trans (tamper_sample _ _)⟩
    · exact ⟨_, rfl, thermalSteps_sample _⟩
  obtain ⟨u, he, htemps, hmv, hph⟩ := he
  obtain ⟨hi, hm, hq⟩ := takeSample_holds l s
  refine answers_event he ⟨fun i h => ?_, hmv.trans hm, hph.trans hq⟩
  exact (congrArg (tget (false, (0 : Int)) · i) htemps).trans (hi i h)

/-! ### The loop (R419) -/

theorem avsStep_up {s : State} (h : 645 ≤ s.pwr.cmdMv.toNat) (h2 : s.pwr.cmdMv.toNat ≤ 795) :
    s.avsStep true = s.modPwr fun p => { p with cmdMv := BitVec.ofNat 16 (s.pwr.cmdMv.toNat + 5), stepDue := none } := by
  have hc : max 650 (min 800 (s.pwr.cmdMv.toNat + 5)) = s.pwr.cmdMv.toNat + 5 := by omega
  simp [State.avsStep, hc]

/-- The run of slow samples that the loop counts. -/
def avsRun (l : List Nat) (s : State) : Nat := if 103 * Config.avsTarget s.rst.trim < 100 * minOf l then s.pwr.highRun + 1 else 0

theorem avsRun_short {l : List Nat} {s : State} (h : s.pwr.highRun < 99) : avsRun l s ≠ 100 := by
  unfold avsRun
  split <;> omega

/-- Where the run is short, the loop only steps up. -/
theorem avsTick_short {s : State} (l : List Nat) (ha : s.pwr.avsOn = true) (hr : s.pwr.retries = 0) (hh : s.pwr.highRun < 99) :
    execAvsTick l s = done (if minOf l < Config.avsTarget s.rst.trim then (s.modPwr fun p => { p with highRun := avsRun l s }).avsStep true
      else s.modPwr fun p => { p with highRun := avsRun l s }) := by
  have h100 := avsRun_short (l := l) hh
  have hret : (s.modPwr fun p => { p with highRun := avsRun l s }).pwr.retries = 0 := hr
  unfold avsRun at h100 hret ⊢
  by_cases hs : minOf l < Config.avsTarget s.rst.trim
  · simp only [execAvsTick, ha, Bool.not_true, Bool.false_eq_true, if_false, h100, hs, if_true, hret]
  · simp only [execAvsTick, ha, Bool.not_true, Bool.false_eq_true, if_false, h100, hs]

theorem avsTick_within (s : State) (l : List Nat) (ha : s.pwr.avsOn = true) (hr : s.pwr.retries = 0) (hh : s.pwr.highRun < 99)
    (h645 : 645 ≤ s.pwr.cmdMv.toNat) (h795 : s.pwr.cmdMv.toNat ≤ 795) : Answers (exec (.avsTick l) s) fun t =>
      t.pwr.cmdMv.toNat = s.pwr.cmdMv.toNat + (if minOf l < Config.avsTarget s.rst.trim then 5 else 0) ∧ t.pwr.sticky = s.pwr.sticky ∧
      FrameBut [.pwr] s t := by
  have he := avsTick_short l ha hr hh
  by_cases hs : minOf l < Config.avsTarget s.rst.trim
  · rw [if_pos hs, avsStep_up (s := s.modPwr fun p => { p with highRun := avsRun l s }) h645 h795] at he
    rw [if_pos hs]
    refine answers_event he ⟨?_, rfl, frameBut_done (by simp)⟩
    show (BitVec.ofNat 16 (s.pwr.cmdMv.toNat + 5)).toNat = _
    rw [BitVec.toNat_ofNat]
    omega
  · rw [if_neg hs] at he ⊢
    exact answers_event he ⟨rfl, rfl, frameBut_done (by simp)⟩

/-- A note of the power manager sets its sticky bit. -/
theorem avsNote_spec {bit : Nat} (kind : Nat) (hb : bit < 6) (s : State) :
    (s.avsNote bit kind).pwr.sticky.getLsbD bit = true ∧ (s.avsNote bit kind).pwr.cmdMv = s.pwr.cmdMv := by
  unfold State.avsNote
  split
  · exact ⟨‹_›, rfl⟩
  · exact ⟨getLsbD_setBit_true_self _ hb, rfl⟩

theorem avsStep_top {s : State} (h : s.pwr.cmdMv.toNat = 800) :
    s.avsStep true = (s.modPwr fun p => { p with cmdMv := 800, stepDue := none }).avsNote 0 2 := by
  simp [State.avsStep, h]

theorem avsTick_top (s : State) (l : List Nat) (ha : s.pwr.avsOn = true) (hr : s.pwr.retries = 0) (hh : s.pwr.highRun < 99)
    (h800 : s.pwr.cmdMv.toNat = 800) : Answers (exec (.avsTick l) s) fun t =>
      t.pwr.cmdMv.toNat = 800 ∧ (minOf l < Config.avsTarget s.rst.trim → t.pwr.sticky.getLsbD 0 = true) ∧ FrameBut [.pwr, .mbx] s t := by
  have he := avsTick_short l ha hr hh
  by_cases hs : minOf l < Config.avsTarget s.rst.trim
  · rw [if_pos hs, avsStep_top (s := s.modPwr fun p => { p with highRun := avsRun l s }) h800] at he
    obtain ⟨hbit, hmv⟩ := avsNote_spec 2 (by decide : 0 < 6)
      ((s.modPwr fun p => { p with highRun := avsRun l s }).modPwr fun p => { p with cmdMv := 800, stepDue := none })
    exact answers_event he ⟨congrArg BitVec.toNat hmv, fun _ => hbit, frameBut_done (by simp)⟩
  · rw [if_neg hs] at he
    exact answers_event he ⟨h800, fun h => absurd h hs, frameBut_done (by simp)⟩

/-! ### PMBus (R420) -/

theorem railStatus_good {s : State} {w : W16} (h : w &&& Config.pmbusFaults = 0) : s.railStatus w = s := by
  simp [State.railStatus, h]

theorem avsPoll_good (s : State) (v : Nat) (w : W16) (ha : s.pwr.avsOn = true) (hw : w &&& Config.pmbusFaults = 0) :
    Answers (exec (.avsPoll v w) s) fun t => t.pwr = { s.pwr with measMv := BitVec.ofNat 16 v } ∧ FrameBut [.pwr] s t := by
  have he : execAvsPoll v w s = done (s.modPwr fun p => { p with measMv := BitVec.ofNat 16 v }) := by
    simp [execAvsPoll, ha, railStatus_good hw]
  exact answers_event he ⟨rfl, frameBut_done (by simp)⟩

/-- The manager whose transfer succeeded. -/
def Pwr.recover (p : Pwr) : Pwr := { p with retries := 0, avsHeld := false, avsOn := p.avsOn || (p.avsHeld && p.avsEnable) }

theorem pmbusRetry_succeeds (s : State) (hd : s.pwr.stepDue = none) :
    Answers (exec (.pmbusRetry true) s) fun t => t.pwr.retries = 0 ∧ t.pwr.avsHeld = false ∧ FrameBut [.pwr] s t := by
  have hd2 : (s.modPwr Pwr.recover).pwr.stepDue = none := hd
  have he : execPmbusRetry true s = done (s.modPwr Pwr.recover) := by
    unfold Pwr.recover at hd2 ⊢
    simp only [execPmbusRetry, if_true, hd2]
  exact answers_event he ⟨rfl, rfl, frameBut_done (by simp)⟩

theorem pmbusRetry_again (s : State) (hh : s.pwr.avsHeld = false) (hr : s.pwr.retries < 2) :
    Answers (exec (.pmbusRetry false) s) fun t => t.pwr = { s.pwr with retries := s.pwr.retries + 1 } ∧ FrameBut [.pwr] s t := by
  have he : execPmbusRetry false s = done (s.modPwr fun p => { p with retries := p.retries + 1 }) := by
    simp only [execPmbusRetry, hh, hr, Bool.false_eq_true, if_false, if_true]
  exact answers_event he ⟨rfl, frameBut_done (by simp)⟩

def Pwr.hold (p : Pwr) : Pwr := { (p.flag 2) with retries := 3, avsHeld := true, avsOn := false }

theorem pmbusRetry_holds (s : State) (hh : s.pwr.avsHeld = false) (hr : s.pwr.retries = 2) :
    Answers (exec (.pmbusRetry false) s) fun t =>
      t.pwr.avsHeld = true ∧ t.pwr.avsOn = false ∧ t.pwr.sticky.getLsbD 2 = true ∧ FrameBut [.pwr, .mbx] s t := by
  have he : execPmbusRetry false s = done ((s.modPwr Pwr.hold).event 0x4A02 1 (leBytes 2 (s.modPwr Pwr.hold).pwr.vcore.toNat)) := by
    simp only [execPmbusRetry, hh, hr, Nat.lt_irrefl, Bool.false_eq_true, if_false]
    rfl
  exact answers_event he ⟨rfl, rfl, getLsbD_setBit_true_self _ (by decide), frameBut_done (by simp)⟩

theorem pmbusAlert_notes (s : State) (w : W16) : Answers (exec (.pmbusAlert w) s) fun t =>
    (w &&& Config.pmbusFaults ≠ 0 → t.pwr.sticky.getLsbD 1 = true) ∧ (w &&& Config.pmbusFaults = 0 → t.pwr = s.pwr) ∧
    FrameBut [.pwr, .mbx] s t := by
  by_cases hw : w &&& Config.pmbusFaults = 0
  · exact answers_event (congrArg done (railStatus_good hw)) ⟨fun h => absurd hw h, fun _ => rfl, frameBut_done (by simp)⟩
  · have he : s.railStatus w = s.avsNote 1 3 := if_pos (bne_iff_ne.mpr hw)
    exact answers_event (congrArg done he) ⟨fun _ => (avsNote_spec 3 (by decide) s).1, fun h => absurd h hw, frameBut_done (by simp)⟩

/-! ### Gating (R415) -/

/-- Memory 0x18, the keys' state memory, lies in the keys. -/
theorem marchUndefined_keyState_rest (u : Nat) (s : State) : (s.marchUndefined 0x18 u).rest [.key, .drawn] = s.rest [.key, .drawn] := by
  have h : s.marchUndefined 0x18 u =
    s.modKey fun k => { k with slots := (List.range 16384).map fun n => (n, (tget {} k.slots n).undefState u n) } := rfl
  rw [h]
  simp

theorem loseCiphers_frame (i : Nat) (s : State) : FrameBut [.key, .drawn] s (s.loseCiphers i) := by
  unfold State.loseCiphers
  dsimp only
  split
  · exact frameBut_of_rest (by simp [marchUndefined_keyState_rest])
  · exact frameBut_of_rest (by simp)

theorem islandGate_cipher (s : State) (b : Nat) (h20 : 20 ≤ b) (h22 : b < 22) (hg : s.glb.released = true) (hp : s.glb.power = 1)
    (hn : s.pwr.gated.getLsbD b = false) (hu : s.islandUsed b = false) (hd : 97657 ≤ since s.tick (tget 0 s.pwr.usedAt b)) :
    Answers (exec (.islandGate b) s) fun t => t.pwr.gated.getLsbD b = true ∧ FrameBut [.pwr, .key, .drawn] s t := by
  have he : execIslandGate b s = done ((s.modPwr fun p => { p with gated := setBit p.gated b true }).loseCiphers (b - 20)) := by
    have h16 : ¬ b < 16 := by omega
    have h20' : ¬ b < 20 := by omega
    simp only [execIslandGate, h22, hg, hp, hn, hu, hd, State.gate, h16, h20', decide_true, Bool.not_false, Bool.and_self, if_true, if_false]
  have hfr := loseCiphers_frame (b - 20) (s.modPwr fun p => { p with gated := setBit p.gated b true })
  refine answers_event he ⟨?_, ((frameBut_of_rest (by simp)).trans (hfr.mono (by simp))).then_settle⟩
  exact (congrArg (fun p : Pwr => p.gated.getLsbD b) (hfr .pwr (by decide))).trans (getLsbD_setBit_true_self _ (by omega))

end Sys2Proof.Machine

open Sys2Proof Sys2Proof.Machine

/-- Settles O46: a sample, a step of the loop, a transfer and a gating change what they name, and a step beyond 800 mV is noted. -/
theorem powerManager : Obligations.PowerManager :=
  ⟨tempSample_holds, avsTick_within, avsTick_top, avsPoll_good, pmbusRetry_succeeds, pmbusRetry_again, pmbusRetry_holds, pmbusAlert_notes,
    islandGate_cipher⟩

end

section
/-!
PROOFS. JTAG and the failure of a quadrant.
-/

namespace Sys2Proof.Machine

/-! ### The CRC of a fuse copy (R409) -/

/-- A fold keeps what each of its steps keeps. -/
theorem foldl_keeps {α β : Type} {P : β → Prop} {f : β → α → β} (h : ∀ b a, P b → P (f b a)) (l : List α) (b : β) (hb : P b) :
    P (l.foldl f b) := by
  induction l generalizing b with
  | nil => exact hb
  | cons a l ih => exact ih (f b a) (h b a hb)

theorem crc32_lt (l : List Byte) : crc32 l < 2 ^ 32 := by
  refine Nat.xor_lt_two_pow (foldl_keeps (P := (· < 2 ^ 32)) (fun c b hc => ?_) l _ (by decide)) (by decide)
  have hb : c ^^^ b.toNat < 2 ^ 32 := Nat.xor_lt_two_pow hc (by omega)
  refine foldl_keeps (P := (· < 2 ^ 32)) (fun c _ hc => ?_) _ _ hb
  have hd : c / 2 < 2 ^ 32 := (Nat.div_le_self c 2).trans_lt hc
  split
  · exact Nat.xor_lt_two_pow hd (by decide)
  · exact hd

/-- The copy that JTAG programs. -/
def programmed (v : BitVec 4) (u : W64) (k tr rp : List Byte) : FuseCopy :=
  let f : FuseCopy := { trim := tr, repairs := rp, variant := v, uniqueId := u, kekSeed := k, bitP := 7 }
  { f with crc := BitVec.ofNat 32 (crc32 f.bytes) }

theorem programmed_crcOk (v : BitVec 4) (u : W64) (k tr rp : List Byte) : (programmed v u k tr rp).crcOk = true := by
  have h := crc32_lt (programmed v u k tr rp).bytes
  refine decide_eq_true ?_
  show crc32 (programmed v u k tr rp).bytes = (BitVec.ofNat 32 (crc32 (programmed v u k tr rp).bytes)).toNat
  rw [BitVec.toNat_ofNat, Nat.mod_eq_of_lt h]

/-- A copy whose provisioning fuses alone are blown is that of a provisioned device. -/
theorem programmed_lc (v : BitVec 4) (u : W64) (k tr rp : List Byte) :
    lcOf (programmed v u k tr rp) (programmed v u k tr rp) = .provisioned := by
  unfold lcOf fuseBit
  have h : popc 3 7 ≥ 2 ∧ ¬ popc 3 0 ≥ 2 := by decide
  simp only [programmed]
  simp [h]

/-! ### JTAG (R413) -/

theorem jtagScan_open (s : State) (h : s.rst.dbgLevel = 3) :
    Answers (exec .jtagScan s) fun t => t.rst = { s.rst with scanDirty := true } ∧ FrameBut [.rst] s t := by
  have he : execJtagScan s = done (s.modRst fun r => { r with scanDirty := true }) := by simp [execJtagScan, h]
  exact answers_event he ⟨rfl, frameBut_done (by simp)⟩

theorem jtagScan_closed (s : State) (h : s.rst.dbgLevel ≠ 3) : Answers (exec .jtagScan s) fun t => FrameBut [] s t := by
  have he : execJtagScan s = done s := congrArg done (if_neg h)
  exact answers_event he (frameBut_done (by simp))

/-- A level below D3 is set without a wipe. -/
theorem setDebug_low {l : Nat} (h : l < 3) (cause : Byte) (s : State) : (s.setDebug l cause).rst.dbgLevel = BitVec.ofNat 2 l ∧
    (s.setDebug l cause).key = s.key ∧ FrameBut [.rst, .mbx, .pert] s (s.setDebug l cause) := by
  unfold State.setDebug
  dsimp only
  split
  · next hl => exact ⟨by rw [hl, BitVec.ofNat_toNat, BitVec.setWidth_eq], rfl, FrameBut.refl _ s⟩
  · rw [if_neg (by omega : ¬ l = 3)]
    exact ⟨rfl, rfl, frameBut_of_rest (by simp)⟩

theorem jtagDebugSet_low (s : State) (l : Nat) (hl : l < 3) (hp : s.rst.phase = .started) (hc : s.rst.lc = .blank ∨ s.rst.lc = .fieldReturn) :
    Answers (exec (.jtagDebugSet l) s) fun t =>
      t.rst.dbgLevel = BitVec.ofNat 2 l ∧ t.key.slots = s.key.slots ∧ FrameBut [.rst, .mbx, .pert, .drawn] s t := by
  have he : execJtagDebugSet l s = done ((s.draw 8).2.setDebug l (s.draw 8).1) := by
    rcases hc with hc | hc
    · simp [execJtagDebugSet, hp, hc, Nat.not_lt.mpr (Nat.le_of_lt hl)]
    · simp [execJtagDebugSet, hp, hc, Nat.not_lt.mpr (Nat.le_of_lt hl)]
  obtain ⟨hlevel, hkey, hfr⟩ := setDebug_low hl (s.draw 8).1 (s.draw 8).2
  exact answers_event he ⟨hlevel, congrArg Key.slots hkey, ((frameBut_of_rest (by simp)).trans (hfr.mono (by simp))).then_settle⟩

theorem jtagDebugSet_locked (s : State) (l : Nat) (hb : s.rst.lc ≠ .blank) (hf : s.rst.lc ≠ .fieldReturn) :
    Answers (exec (.jtagDebugSet l) s) fun t => FrameBut [] s t := by
  have he : execJtagDebugSet l s = done s := by simp [execJtagDebugSet, hb, hf]
  exact answers_event he (frameBut_done (by simp))

theorem jtagFuseProgram_blank (s : State) (v : BitVec 4) (u : W64) (k tr rp : List Byte) (h0 : s.rst.fuse0.blank = true)
    (h1 : s.rst.fuse1.blank = true) : Answers (exec (.jtagFuseProgram v u k tr rp) s) fun t =>
      t.rst.fuse0.variant = v ∧ t.rst.fuse0.uniqueId = u ∧ t.rst.fuse0.crcOk = true ∧ t.rst.fuse1 = t.rst.fuse0 ∧
      lcOf t.rst.fuse0 t.rst.fuse1 = .provisioned ∧ t.rst.variant = s.rst.variant ∧ FrameBut [.rst] s t := by
  have he : execJtagFuseProgram v u k tr rp s =
      done (s.modRst fun r => { r with fuse0 := programmed v u k tr rp, fuse1 := programmed v u k tr rp }) := by
    simp only [execJtagFuseProgram, h0, h1, Bool.and_self, if_true]
    rfl
  exact answers_event he ⟨rfl, rfl, programmed_crcOk .., rfl, programmed_lc .., rfl, frameBut_done (by simp)⟩

theorem jtagCpHalt_sets (s : State) (u : Nat) (h : Bool) (hu : u < 2) (hd : 2 ≤ s.rst.dbgLevel.toNat) (hl : s.rst.lc ≠ .operational)
    (hn : s.cps.update = none) : Answers (exec (.jtagCpHalt u h) s) fun t => t.rst.cpHalted.getLsbD u = h ∧ FrameBut [.rst] s t := by
  have he : execJtagCpHalt u h s = done (s.modRst fun r => { r with cpHalted := setBit r.cpHalted u h }) := by
    simp [execJtagCpHalt, hu, hd, hl, State.resumeUpdate, hn]
  refine answers_event he ⟨?_, frameBut_done (by simp)⟩
  cases h
  · exact getLsbD_setBit_false_self ..
  · exact getLsbD_setBit_true_self _ hu

theorem jtagCpHalt_closed (s : State) (u : Nat) (h : Bool) (hd : s.rst.dbgLevel.toNat < 2) :
    Answers (exec (.jtagCpHalt u h) s) fun t => FrameBut [] s t := by
  have he : execJtagCpHalt u h s = done s := by simp [execJtagCpHalt, Nat.not_le.mpr hd]
  exact answers_event he (frameBut_done (by simp))

/-! ### A quadrant (R19, R20) -/

/-- What the failure of quadrant `q` does to a lane. -/
def laneOfFailed (q : Nat) (cfn : Cfn) (n : Nat) (l : Lane) : Lane :=
  if n / 32 = q && l.role != LaneRole.off && !l.retired && !l.retiring then { l with pend := some (.toRetired cfn) } else l

/-- The device after the failure of a quadrant, before its twin yields. -/
def State.quadFailed (q : Nat) (s : State) : State :=
  ((({ s with lanes := tmap (laneOfFailed q s.cfn) s.lanes }).modGlb fun g => { g with quadFail := setBit g.quadFail q true }).unitRecord
    7 2 q 7 0 0xFFFF)

theorem quadFailed_lane (q n : Nat) (s : State) : (s.quadFailed q).lane n = laneOfFailed q s.cfn n (s.lane n) ∨
    (s.quadFailed q).lane n = s.lane n ∧ s.lane n = {} := by
  have h : (s.quadFailed q).lane n = tget {} (tmap (laneOfFailed q s.cfn) s.lanes) n := rfl
  rw [h]
  unfold State.lane tget
  rw [tfind_tmap]
  cases tfind s.lanes n with
  | none => exact .inr ⟨rfl, rfl⟩
  | some l => exact .inl rfl

theorem startYield_lanes (s : State) : s.startYield.lanes = s.lanes := by
  unfold State.startYield
  split
  · rfl
  · rfl

theorem quadFailed_frame (q : Nat) (s : State) : FrameBut [.glb, .lanes, .cps, .mbx, .twin] s (s.quadFailed q).startYield :=
  frameBut_of_rest (by simp [State.quadFailed])

theorem quadrantFailure_retires (s : State) (q : Nat) (hq : q < 4) (hp : s.rst.phase = .started) (hf : s.glb.quadFail.getLsbD q = false) :
    Answers (exec (.quadrantFailure q) s) fun t =>
      t.glb.quadFail.getLsbD q = true ∧
      (∀ n, n / 32 = q → (s.lane n).role ≠ .off → (s.lane n).retired = false → (s.lane n).retiring = false →
        (t.lane n).pend = some (.toRetired s.glb.cfn)) ∧
      (∀ n, n / 32 ≠ q → t.lane n = s.lane n) ∧ FrameBut [.glb, .lanes, .cps, .mbx, .twin] s t := by
  have he : execQuadrantFailure q s = done (s.quadFailed q).startYield := by
    simp only [execQuadrantFailure, Nat.not_le.mpr hq, hp, hf, decide_false, bne_self_eq_false, Bool.or_self, Bool.false_eq_true, if_false]
    rfl
  have hglb : (s.quadFailed q).startYield.glb.quadFail = setBit s.glb.quadFail q true := congrArg Glb.quadFail (startYield_sch _).2
  have hl : ∀ n, (s.quadFailed q).startYield.lane n = (s.quadFailed q).lane n := fun n => congrArg (fun t : Tbl Lane => tget ({} : Lane) t n) (startYield_lanes _)
  refine answers_event he ⟨?_, fun n hn hr h1 h2 => ?_, fun n hn => ?_, ?_⟩
  · rw [settle_quadFail, hglb]
    exact getLsbD_setBit_true_self _ hq
  · refine (congrArg Lane.pend (hl n)).trans ?_
    rcases quadFailed_lane q n s with h | ⟨-, h⟩
    · rw [h]
      simp [laneOfFailed, hn, hr, h1, h2, State.cfn]
    · exact absurd (congrArg Lane.role h) hr
  · refine (hl n).trans ?_
    rcases quadFailed_lane q n s with h | ⟨h, -⟩
    · rw [h]
      simp [laneOfFailed, hn]
    · exact h
  · exact (quadFailed_frame q s).then_settle

end Sys2Proof.Machine

open Sys2Proof Sys2Proof.Machine

/-- Settles O47: JTAG acts where its debug level or the life cycle allows, and the lanes of a quadrant that failed retire. -/
theorem jtagAndQuadrants : Obligations.JtagAndQuadrants :=
  ⟨jtagScan_open, jtagScan_closed, jtagDebugSet_low, jtagDebugSet_locked, jtagFuseProgram_blank, jtagCpHalt_sets, jtagCpHalt_closed,
    quadrantFailure_retires⟩

end
